-- ==== Sys2Proof/Word.lean ====
section
/-! DEFINITION. The words of the JN-460: bytes of its serial line and loop, the signed arithmetic of its
effort chain. -/

namespace Sys2Proof

/-- A byte of the host link or of a loop telegram. -/
abbrev Byte := BitVec 8

/-- `x` held within `lo..hi` (00_scope.md, Units and numbers: "Where a quantity is clamped"). -/
def clampInt (lo hi x : Int) : Int := max lo (min hi x)

end Sys2Proof
end

