-- ==== Sys2Proof/Config.lean ====
section
/-! DEFINITION. What the spec fixes once for every part, and the two values it leaves open. -/

namespace Sys2Proof.Config

/-- The largest route distance and mark, in dm (R85, R87). -/
def maxDistance : Nat := 16000000

/-- The largest origin ROUTE START takes, in dm (R82). -/
def maxOrigin : Nat := 4000000

/-- One decimetre in 1/256 mm (R84). -/
def unitsPerDm : Nat := 25600

/-- Entries the route table holds (R88). -/
def maxEntries : Nat := 96

/-- Records the pending-event set holds (R177). -/
def maxEvents : Nat := 64

/-- Requests the input queue holds (R174). -/
def maxRequests : Nat := 4

/-- Telegrams the signal queue holds (R114). -/
def maxSignals : Nat := 4

/-- Patterns a waiting queue holds (R155). -/
def maxWaiting : Nat := 4

/-- The period of the speed sample, the control period and the DEMAND window, in ms (R5, R25, R78). -/
def period : Nat := 10

/-- DESIGN CHOICE (log entry 14). The slip speed ADHESION FAULT reports while the reference source is LOST:
R50 says none is measured then and R54 reports it all the same. A free value: nothing constrains it. -/
opaque unmeasuredSlip : Nat → Int

/-- DESIGN CHOICE (log entry 41). Whether a TRAIL takes at standstill a NEUTRAL of its lines that it ignored on the move: R79 says
that it does, R26 and R27 that no ignored position is taken there. A free value: nothing constrains it. -/
opaque takesIgnoredNeutral : Bool

end Sys2Proof.Config
end

