-- ==== Sys2Proof/Syntax.lean ====
section
/-! DEFINITION. The commands of the JN-460: one constructor of `Instr` for each row of spec/opcode_table.json. -/

namespace Sys2Proof

/-- The four axle channels (R1): AX0 on motor bogie A, AX1 on bogie B, AX2 and AX3 the reference axles. -/
inductive AxleId | ax0 | ax1 | ax2 | ax3
  deriving DecidableEq, Repr, Inhabited

/-- The two reference axles, the only ones that keep an agreement run (R9). -/
inductive RefAxle | ax2 | ax3
  deriving DecidableEq, Repr, Inhabited

/-- The two motor bogies (R48). -/
inductive Bogie | a | b
  deriving DecidableEq, Repr, Inhabited

/-- The four junction slots (06, "The junction unit holds the following state"). -/
inductive SlotId | j0 | j1 | j2 | j3
  deriving DecidableEq, Repr, Inhabited

/-- The four sound channels (R152). -/
inductive SoundChannel | bell | horn | chime | buzzer
  deriving DecidableEq, Repr, Inhabited

/-- The three directions a junction may be asked for (R87), in the order of their codes. -/
inductive PointDirection | left | straight | right
  deriving DecidableEq, Repr, Inhabited

/-- The point positions a POINT ANSWER may carry (R109), in the order of their codes. -/
inductive PointPosition | left | straight | right | moving | unknown
  deriving DecidableEq, Repr, Inhabited

/-- The verdicts a POINT ANSWER may carry (R109), in the order of their codes. -/
inductive Verdict | accepted | queued | refused
  deriving DecidableEq, Repr, Inhabited

/-- What a POINT ANSWER says of a junction (R109). -/
structure PointAnswer where
  position : PointPosition
  locked : Bool
  verdict : Verdict
  deriving DecidableEq, Repr, Inhabited

/-- The pins one pass of the effort chain reads (R25): the HANDLE code, the direction inputs, and the
direction train lines as sensed. -/
structure PassInputs where
  handle : Nat
  dirF : Bool
  dirR : Bool
  tlFwd : Bool
  tlRev : Bool
  deriving DecidableEq, Repr, Inhabited

/-- A route entry record as the host sends it (11, section 2): marks 1 to 4, F, and the fields of every kind. -/
structure EntryRecord where
  tag : Nat
  kind : Nat
  fixPresent : Bool
  requestOnly : Bool
  mark1 : Nat
  mark2 : Nat
  mark3 : Nat
  mark4 : Nat
  fix : Nat
  ident : Nat
  option : Nat
  ceiling : Nat
  deriving DecidableEq, Repr, Inhabited

/-- A PATTERN LOAD record (R153, 11 section 1); the step count is the length of `steps`, each a level code
and a duration. -/
structure PatternRecord where
  number : Nat
  channel : Nat
  cls : Nat
  passes : Nat
  steps : List (Nat × Nat)
  deriving DecidableEq, Repr, Inhabited

/-- A request of the host, as its frame carries it (10 section 3, 11 section 1). `unknownKind` and
`badLength` are the frames the host link itself refuses (R175). -/
inductive HostRequest
  | ident
  | status
  | events (n : Nat)
  | set (number : Nat) (value : Int)
  | get (number : Nat)
  | freeze (group : Nat)
  | thaw (group : Nat)
  | routeStart (origin : Nat)
  | routeInsert (entry : EntryRecord)
  | routeRemove (tag : Nat)
  | routeRead (selector : Nat) (which : Nat)
  | routeEnd
  | junctionCancel (tag : Nat)
  | junctionRetry (tag : Nat)
  | mask (requester : Nat)
  | unmask (requester : Nat)
  | loopReset
  | halt
  | resume
  | stopRequest (accessible : Nat)
  | stopClear
  | play (pattern : Nat)
  | silence (pattern : Nat)
  | patternLoad (pattern : PatternRecord)
  | axleRead (channel : Nat)
  | axleReset (channel : Nat)
  | buttonRead (channel : Nat)
  | restart (argument : Nat)
  | unknownKind (kind : Nat)
  | badLength (kind : Nat)
  deriving DecidableEq, Repr, Inhabited

/-- The commands: the rows of spec/opcode_table.json in the table's order. A host request carries first the
tag of its frame (0..255) and then its arguments. -/
inductive Instr
  | powerUp
  | restartFull (tag : Nat)
  | restartJourney (tag : Nat)
  | encoderEdge (channel : AxleId) (phaseA phaseB : Bool)
  | phaseErrorWindowExpiry (channel : AxleId)
  | speedSample
  | axleSuspect
  | agreementRunComplete (channel : RefAxle)
  | standstillSet
  | axleRead (tag channel : Nat)
  | axleReset (tag channel : Nat)
  | controlPeriod (inputs : PassInputs)
  | directionSettleExpiry
  | handleHoldExpiry
  | handleFault
  | demandLost
  | adhesionFault (bogie : Bogie)
  | sandRunExpiry
  | sandRestExpiry
  | doorReleaseAsserted
  | doorReleaseReleased
  | haltReleased
  | halt (tag : Nat)
  | resume (tag : Nat)
  | vigilPress
  | vigilRelease
  | holdLimitExpiry
  | graceExpiry
  | warnToHaltExpiry
  | repressWindowExpiry
  | roleInputChange (activeCab coupling : Bool)
  | demandWindowExpiry (highMicros : Nat)
  | haltLineChange (asserted : Bool)
  | startEmissionExpiry
  | startEdge
  | startRetentionExpiry
  | routeStart (tag origin : Nat)
  | routeEnd (tag : Nat)
  | routeInsert (tag : Nat) (entry : EntryRecord)
  | routeRemove (tag entryTag : Nat)
  | routeRead (tag selector which : Nat)
  | loopOkReleased (assertedAgain : Bool)
  | loopReset (tag : Nat)
  | telegramAirtimeEnd
  | answerWindowExpiry
  | slotRepeatExpiry (slot : SlotId)
  | signalRepeatExpiry (entryTag : Nat)
  | pointAnswer (telegram : List Byte)
  | priorityAck (telegram : List Byte)
  | junctionCancel (tag entryTag : Nat)
  | junctionRetry (tag entryTag : Nat)
  | mask (tag requester : Nat)
  | unmask (tag requester : Nat)
  | scan (readings : List Nat)
  | buttonStuck (channel : Nat)
  | stopCancel
  | stopreqEdge (asserted : Bool)
  | stopRequest (tag accessible : Nat)
  | stopClear (tag : Nat)
  | buttonRead (tag channel : Nat)
  | stepExpiry (channel : SoundChannel)
  | strikePulseExpiry
  | bellPedalPress
  | bellPedalRelease
  | bellIntervalExpiry
  | hornPress
  | hornRelease
  | hornTailExpiry
  | play (tag pattern : Nat)
  | silence (tag pattern : Nat)
  | patternLoad (tag : Nat) (pattern : PatternRecord)
  | set (tag number : Nat) (value : Int)
  | get (tag number : Nat)
  | freeze (tag group : Nat)
  | thaw (tag group : Nat)
  | byteReceived (byte : Byte) (framingError : Bool)
  | frameGapExpiry
  | replyEnd
  | unknownKindRequest (tag kind : Nat)
  | ident (tag : Nat)
  | status (tag : Nat)
  | events (tag n : Nat)
  deriving DecidableEq, Repr

end Sys2Proof
end

