-- ==== Sys2Proof/WellFormed.lean ====
section
/-! DEFINITION. Which commands can be delivered: every operand within what its pin or its field of the frame
can carry (11 section 1, 00_scope.md Units and numbers). -/

namespace Sys2Proof

/-- `n` fits in `k` bytes. -/
def fitsBytes (k n : Nat) : Bool := n < 256 ^ k

/-- `v` fits in four bytes of two's complement (11, "SET": value 4, signed). -/
def fitsSigned32 (v : Int) : Bool := -2147483648 ≤ v && v ≤ 2147483647

/-- Each field of a route entry record fits its place (11 section 2). -/
def EntryRecord.wf (r : EntryRecord) : Bool :=
  fitsBytes 2 r.tag && fitsBytes 1 r.kind && fitsBytes 4 r.mark1 && fitsBytes 4 r.mark2 && fitsBytes 4 r.mark3 &&
  fitsBytes 4 r.mark4 && fitsBytes 4 r.fix && fitsBytes 2 r.ident && fitsBytes 1 r.option && fitsBytes 2 r.ceiling

/-- Each field of a PATTERN LOAD fits its place, and the steps fit a frame of at most 250 (11 section 1). -/
def PatternRecord.wf (r : PatternRecord) : Bool :=
  fitsBytes 1 r.number && fitsBytes 1 r.channel && fitsBytes 1 r.cls && fitsBytes 1 r.passes &&
  r.steps.length ≤ 121 && r.steps.all fun s => fitsBytes 1 s.1 && fitsBytes 1 s.2

/-- The request kinds of 11 section 1. -/
def knownKind (k : Nat) : Bool :=
  [0x01, 0x02, 0x03, 0x10, 0x11, 0x12, 0x13, 0x20, 0x21, 0x22, 0x23, 0x24, 0x25, 0x26, 0x30, 0x31, 0x32, 0x40, 0x41,
    0x42, 0x43, 0x50, 0x51, 0x52, 0x60, 0x61, 0x62, 0x70].contains k

/-- Each argument of a request fits its field of the payload (11 section 1). -/
def HostRequest.wf : HostRequest → Bool
  | .ident | .status | .routeEnd | .loopReset | .halt | .resume | .stopClear => true
  | .events n => fitsBytes 1 n
  | .set number value => fitsBytes 2 number && fitsSigned32 value
  | .get number => fitsBytes 2 number
  | .freeze g | .thaw g => fitsBytes 1 g
  | .routeStart origin => fitsBytes 4 origin
  | .routeInsert r => r.wf
  | .routeRemove t | .junctionCancel t | .junctionRetry t => fitsBytes 2 t
  | .routeRead sel which => fitsBytes 1 sel && fitsBytes 2 which
  | .mask r | .unmask r => fitsBytes 1 r
  | .stopRequest a => fitsBytes 1 a
  | .play p | .silence p => fitsBytes 1 p
  | .patternLoad r => r.wf
  | .axleRead c | .axleReset c | .buttonRead c => fitsBytes 1 c
  | .restart a => fitsBytes 1 a
  | .unknownKind k => fitsBytes 1 k && !knownKind k
  | .badLength k => fitsBytes 1 k && knownKind k

/-- The command can be delivered. -/
def Instr.wf : Instr → Bool
  | .restartFull tag | .restartJourney tag | .halt tag | .resume tag | .routeEnd tag | .loopReset tag
  | .stopClear tag | .ident tag | .status tag => fitsBytes 1 tag
  | .controlPeriod i => fitsBytes 1 i.handle
  | .demandWindowExpiry high => high ≤ 10000
  | .scan readings => readings.length = 24 && readings.all (· ≤ 4095)
  | .buttonStuck c => c < 24
  | .signalRepeatExpiry t => 1 ≤ t && fitsBytes 2 t
  | .axleRead tag c => fitsBytes 1 tag && (HostRequest.axleRead c).wf
  | .axleReset tag c => fitsBytes 1 tag && (HostRequest.axleReset c).wf
  | .routeStart tag o => fitsBytes 1 tag && (HostRequest.routeStart o).wf
  | .routeInsert tag r => fitsBytes 1 tag && (HostRequest.routeInsert r).wf
  | .routeRemove tag t => fitsBytes 1 tag && (HostRequest.routeRemove t).wf
  | .routeRead tag sel w => fitsBytes 1 tag && (HostRequest.routeRead sel w).wf
  | .junctionCancel tag t => fitsBytes 1 tag && (HostRequest.junctionCancel t).wf
  | .junctionRetry tag t => fitsBytes 1 tag && (HostRequest.junctionRetry t).wf
  | .mask tag r => fitsBytes 1 tag && (HostRequest.mask r).wf
  | .unmask tag r => fitsBytes 1 tag && (HostRequest.unmask r).wf
  | .stopRequest tag a => fitsBytes 1 tag && (HostRequest.stopRequest a).wf
  | .buttonRead tag c => fitsBytes 1 tag && (HostRequest.buttonRead c).wf
  | .play tag p => fitsBytes 1 tag && (HostRequest.play p).wf
  | .silence tag p => fitsBytes 1 tag && (HostRequest.silence p).wf
  | .patternLoad tag r => fitsBytes 1 tag && (HostRequest.patternLoad r).wf
  | .set tag n v => fitsBytes 1 tag && (HostRequest.set n v).wf
  | .get tag n => fitsBytes 1 tag && (HostRequest.get n).wf
  | .freeze tag g => fitsBytes 1 tag && (HostRequest.freeze g).wf
  | .thaw tag g => fitsBytes 1 tag && (HostRequest.thaw g).wf
  | .unknownKindRequest tag k => fitsBytes 1 tag && (HostRequest.unknownKind k).wf
  | .events tag n => fitsBytes 1 tag && (HostRequest.events n).wf
  | .powerUp | .encoderEdge _ _ _ | .phaseErrorWindowExpiry _ | .speedSample | .axleSuspect | .agreementRunComplete _
  | .standstillSet | .directionSettleExpiry | .handleHoldExpiry | .handleFault | .demandLost | .adhesionFault _
  | .sandRunExpiry | .sandRestExpiry | .doorReleaseAsserted | .doorReleaseReleased | .haltReleased | .vigilPress
  | .vigilRelease | .holdLimitExpiry | .graceExpiry | .warnToHaltExpiry | .repressWindowExpiry | .roleInputChange _ _
  | .haltLineChange _ | .startEmissionExpiry | .startEdge | .startRetentionExpiry | .loopOkReleased _
  | .telegramAirtimeEnd | .answerWindowExpiry | .slotRepeatExpiry _ | .pointAnswer _ | .priorityAck _ | .stopCancel
  | .stopreqEdge _ | .stepExpiry _ | .strikePulseExpiry | .bellPedalPress | .bellPedalRelease | .bellIntervalExpiry
  | .hornPress | .hornRelease | .hornTailExpiry | .byteReceived _ _ | .frameGapExpiry | .replyEnd => true

end Sys2Proof
end

