-- ==== Sys2Proof/Decode.lean ====
section
/-! DEFINITION. Reading commands from bits: the table's words (it gives none), the payload of a host frame,
and the telegrams of the loop, with the encoder of each beside it. -/

namespace Sys2Proof

/-- The command a word of spec/opcode_table.json spells. No row of the table gives bits, so no word spells one. -/
def decodeTableWord (_nbits _w : Nat) : Option Instr := none

/-! ### Bytes (11, "A multi-byte number is sent high byte first") -/

/-- `n` bytes of `x` in two's complement, high byte first. -/
def bytesBE : Nat → Int → List Byte
  | 0, _ => []
  | n + 1, x => bytesBE n (x / 256) ++ [BitVec.ofInt 8 x]

/-- The unsigned number its bytes give, high byte first. -/
def numOf : List Byte → Nat
  | [] => 0
  | b :: bs => b.toNat * 256 ^ bs.length + numOf bs

/-- The signed 32-bit number four bytes give. -/
def signed32Of (bs : List Byte) : Int := (BitVec.ofNat 32 (numOf bs)).toInt

/-- Field `len` bytes long at `offset` of a payload, as an unsigned number. -/
def fieldAt (p : List Byte) (offset len : Nat) : Nat := numOf ((p.drop offset).take len)

/-- A flag byte. -/
def flagByte (b : Bool) : Byte := if b then 1 else 0

/-! ### CRC-16 of a frame (R181) -/

/-- One bit of R181: shift toward the high end, combine 0x1021 if the bit shifted out differs from the data bit. -/
def crc16Bit (r : BitVec 16) (bit : Bool) : BitVec 16 :=
  if r.getLsbD 15 != bit then (r <<< 1) ^^^ 0x1021 else r <<< 1

/-- The bits of a byte, most significant first. -/
def bitsOf (b : Byte) : List Bool :=
  [b.getLsbD 7, b.getLsbD 6, b.getLsbD 5, b.getLsbD 4, b.getLsbD 3, b.getLsbD 2, b.getLsbD 1, b.getLsbD 0]

/-- The CRC-16 of R181 over `bs`: the register starts at 0xFFFF and is sent without inversion. -/
def crc16 (bs : List Byte) : BitVec 16 :=
  bs.foldl (fun r b => (bitsOf b).foldl crc16Bit r) 0xFFFF

/-- The two CRC bytes of a frame, high byte first (11 section 1). -/
def crcBytes (bs : List Byte) : List Byte := bytesBE 2 (crc16 bs).toNat

/-! ### The check of a telegram (R183) -/

/-- One bit of R183, with 0x1D. -/
def check8Bit (r : BitVec 8) (bit : Bool) : BitVec 8 :=
  if r.getLsbD 7 != bit then (r <<< 1) ^^^ 0x1D else r <<< 1

/-- The check of R183 over `bs`: the register starts at 0xFF and is inverted after the last byte. -/
def telegramCheck (bs : List Byte) : Byte :=
  ~~~ bs.foldl (fun r b => (bitsOf b).foldl check8Bit r) 0xFF

/-- A telegram with its check behind it. -/
def withCheck (bs : List Byte) : List Byte := bs ++ [telegramCheck bs]

/-! ### Telegrams (11 section 5) -/

def PointDirection.code : PointDirection → Nat
  | .left => 0 | .straight => 1 | .right => 2

def PointPosition.code : PointPosition → Nat
  | .left => 0 | .straight => 1 | .right => 2 | .moving => 3 | .unknown => 4

def PointPosition.ofCode : Nat → Option PointPosition
  | 0 => some .left | 1 => some .straight | 2 => some .right | 3 => some .moving | 4 => some .unknown | _ => none

def Verdict.code : Verdict → Nat
  | .accepted => 0 | .queued => 1 | .refused => 2

def Verdict.ofCode : Nat → Option Verdict
  | 0 => some .accepted | 1 => some .queued | 2 => some .refused | _ => none

/-- POINT REQUEST: type 0x1, direction in bits 3..2, class (PAIR 1) in bit 1 (11 section 5). -/
def pointRequestBytes (junction : Nat) (direction : PointDirection) (pair : Bool) (tram : Nat) : List Byte :=
  withCheck (BitVec.ofNat 8 (0x10 + direction.code * 4 + (if pair then 2 else 0)) ::
    (bytesBE 2 junction ++ bytesBE 2 tram))

/-- POINT CANCEL: type 0x2. -/
def pointCancelBytes (junction tram : Nat) : List Byte := withCheck (0x20 :: (bytesBE 2 junction ++ bytesBE 2 tram))

/-- PRIORITY CALL: type 0x3, priority level in bits 3..2. -/
def priorityCallBytes (signal level tram : Nat) : List Byte :=
  withCheck (BitVec.ofNat 8 (0x30 + level * 4) :: (bytesBE 2 signal ++ bytesBE 2 tram))

/-- PRIORITY CLEAR: type 0x4. -/
def priorityClearBytes (signal tram : Nat) : List Byte := withCheck (0x40 :: (bytesBE 2 signal ++ bytesBE 2 tram))

/-- POINT ANSWER as the junction sends it: type 0x9, position, lock and verdict in byte 1. -/
def pointAnswerBytes (junction tram : Nat) (a : PointAnswer) : List Byte :=
  withCheck (0x90 ::
    BitVec.ofNat 8 (a.position.code * 32 + (if a.locked then 16 else 0) + a.verdict.code * 4) ::
    (bytesBE 2 junction ++ bytesBE 2 tram))

/-- PRIORITY ACK as the signal sends it: type 0xA. -/
def priorityAckBytes (signal tram : Nat) : List Byte := withCheck (0xA0 :: (bytesBE 2 signal ++ bytesBE 2 tram))

/-- A received telegram that is a POINT ANSWER not discarded by R183: its length is 7, its check right, its type 0x9,
its position 0..4, its verdict 0..2 and its tram number this tram's. Answers the junction ID and what it says. -/
def parsePointAnswer (tram : Nat) (bs : List Byte) : Option (Nat × PointAnswer) :=
  match bs with
  | [b0, b1, j1, j0, t1, t0, c] =>
    if c = telegramCheck [b0, b1, j1, j0, t1, t0] ∧ b0.toNat / 16 = 9 ∧ numOf [t1, t0] = tram then
      match PointPosition.ofCode (b1.toNat / 32), Verdict.ofCode (b1.toNat / 4 % 4) with
      | some p, some v => some (numOf [j1, j0], ⟨p, b1.getLsbD 4, v⟩)
      | _, _ => none
    else none
  | _ => none

/-- A received telegram that is a PRIORITY ACK not discarded by R183. Answers the signal ID. -/
def parsePriorityAck (tram : Nat) (bs : List Byte) : Option Nat :=
  match bs with
  | [b0, s1, s0, t1, t0, c] =>
    if c = telegramCheck [b0, s1, s0, t1, t0] ∧ b0.toNat / 16 = 10 ∧ numOf [t1, t0] = tram then
      some (numOf [s1, s0])
    else none
  | _ => none

/-! ### Host requests (11 sections 1 and 2) -/

/-- The kind byte of a request. -/
def HostRequest.kind : HostRequest → Nat
  | .ident => 0x01 | .status => 0x02 | .events _ => 0x03
  | .set _ _ => 0x10 | .get _ => 0x11 | .freeze _ => 0x12 | .thaw _ => 0x13
  | .routeStart _ => 0x20 | .routeInsert _ => 0x21 | .routeRemove _ => 0x22 | .routeRead _ _ => 0x23
  | .routeEnd => 0x24 | .junctionCancel _ => 0x25 | .junctionRetry _ => 0x26
  | .mask _ => 0x30 | .unmask _ => 0x31 | .loopReset => 0x32
  | .halt => 0x40 | .resume => 0x41 | .stopRequest _ => 0x42 | .stopClear => 0x43
  | .play _ => 0x50 | .silence _ => 0x51 | .patternLoad _ => 0x52
  | .axleRead _ => 0x60 | .axleReset _ => 0x61 | .buttonRead _ => 0x62
  | .restart _ => 0x70
  | .unknownKind k => k | .badLength k => k

/-- The 29 bytes of a route entry record (11 section 2). -/
def EntryRecord.bytes (r : EntryRecord) : List Byte :=
  bytesBE 2 r.tag ++ bytesBE 1 r.kind ++ [flagByte r.fixPresent ||| (flagByte r.requestOnly <<< 1)] ++
  bytesBE 4 r.mark1 ++ bytesBE 4 r.mark2 ++ bytesBE 4 r.mark3 ++ bytesBE 4 r.mark4 ++ bytesBE 4 r.fix ++
  bytesBE 2 r.ident ++ bytesBE 1 r.option ++ bytesBE 2 r.ceiling

/-- A route entry record read from its 29 bytes. Bits 7 to 2 of its flags are not judged (log entry 53). -/
def EntryRecord.ofBytes (p : List Byte) : EntryRecord where
  tag := fieldAt p 0 2
  kind := fieldAt p 2 1
  fixPresent := (p.getD 3 0).getLsbD 0
  requestOnly := (p.getD 3 0).getLsbD 1
  mark1 := fieldAt p 4 4
  mark2 := fieldAt p 8 4
  mark3 := fieldAt p 12 4
  mark4 := fieldAt p 16 4
  fix := fieldAt p 20 4
  ident := fieldAt p 24 2
  option := fieldAt p 26 1
  ceiling := fieldAt p 27 2

/-- The steps of a PATTERN LOAD, two bytes each: level and duration. -/
def stepsOf : List Byte → List (Nat × Nat)
  | l :: d :: rest => (l.toNat, d.toNat) :: stepsOf rest
  | _ => []

/-- The payload of a request (11 section 1). -/
def HostRequest.payload : HostRequest → List Byte
  | .ident | .status | .routeEnd | .loopReset | .halt | .resume | .stopClear => []
  | .events n => bytesBE 1 n
  | .set number value => bytesBE 2 number ++ bytesBE 4 value
  | .get number => bytesBE 2 number
  | .freeze g | .thaw g => bytesBE 1 g
  | .routeStart origin => bytesBE 4 origin
  | .routeInsert r => r.bytes
  | .routeRemove t | .junctionCancel t | .junctionRetry t => bytesBE 2 t
  | .routeRead sel which => bytesBE 1 sel ++ bytesBE 2 which
  | .mask r | .unmask r => bytesBE 1 r
  | .stopRequest a => bytesBE 1 a
  | .play p | .silence p => bytesBE 1 p
  | .patternLoad r =>
    bytesBE 1 r.number ++ bytesBE 1 r.channel ++ bytesBE 1 r.cls ++ bytesBE 1 r.passes ++ bytesBE 1 r.steps.length ++
      r.steps.flatMap fun s => bytesBE 1 s.1 ++ bytesBE 1 s.2
  | .axleRead c | .axleReset c | .buttonRead c => bytesBE 1 c
  | .restart a => bytesBE 1 a
  | .unknownKind _ | .badLength _ => []

/-- A payload of one byte. -/
def oneByte (kind : Nat) (p : List Byte) (f : Nat → HostRequest) : HostRequest :=
  if p.length = 1 then f (fieldAt p 0 1) else .badLength kind

/-- A payload of two bytes. -/
def twoBytes (kind : Nat) (p : List Byte) (f : Nat → HostRequest) : HostRequest :=
  if p.length = 2 then f (fieldAt p 0 2) else .badLength kind

/-- No payload. -/
def noBytes (kind : Nat) (p : List Byte) (r : HostRequest) : HostRequest :=
  if p.length = 0 then r else .badLength kind

/-- The request a frame's kind and payload give: the two checks of R175 (kind, then length by R182), then the fields. -/
def parseRequest (kind : Nat) (p : List Byte) : HostRequest :=
  match kind with
  | 0x01 => noBytes kind p .ident
  | 0x02 => noBytes kind p .status
  | 0x03 => oneByte kind p .events
  | 0x10 => if p.length = 6 then .set (fieldAt p 0 2) (signed32Of (p.drop 2)) else .badLength kind
  | 0x11 => twoBytes kind p .get
  | 0x12 => oneByte kind p .freeze
  | 0x13 => oneByte kind p .thaw
  | 0x20 => if p.length = 4 then .routeStart (fieldAt p 0 4) else .badLength kind
  | 0x21 => if p.length = 29 then .routeInsert (.ofBytes p) else .badLength kind
  | 0x22 => twoBytes kind p .routeRemove
  | 0x23 => if p.length = 3 then .routeRead (fieldAt p 0 1) (fieldAt p 1 2) else .badLength kind
  | 0x24 => noBytes kind p .routeEnd
  | 0x25 => twoBytes kind p .junctionCancel
  | 0x26 => twoBytes kind p .junctionRetry
  | 0x30 => oneByte kind p .mask
  | 0x31 => oneByte kind p .unmask
  | 0x32 => noBytes kind p .loopReset
  | 0x40 => noBytes kind p .halt
  | 0x41 => noBytes kind p .resume
  | 0x42 => oneByte kind p .stopRequest
  | 0x43 => noBytes kind p .stopClear
  | 0x50 => oneByte kind p .play
  | 0x51 => oneByte kind p .silence
  | 0x52 =>
    if p.length = 5 + 2 * fieldAt p 4 1 then
      .patternLoad ⟨fieldAt p 0 1, fieldAt p 1 1, fieldAt p 2 1, fieldAt p 3 1, stepsOf (p.drop 5)⟩
    else .badLength kind
  | 0x60 => oneByte kind p .axleRead
  | 0x61 => oneByte kind p .axleReset
  | 0x62 => oneByte kind p .buttonRead
  | 0x70 => oneByte kind p .restart
  | _ => .unknownKind kind

/-- A frame around `kind`, `tag` and `payload` (11 section 1): lead byte 0x7B, length, kind, tag, payload, CRC-16. -/
def frameBytes (kind tag : Nat) (payload : List Byte) : List Byte :=
  let body := BitVec.ofNat 8 (2 + payload.length) :: BitVec.ofNat 8 kind :: BitVec.ofNat 8 tag :: payload
  0x7B :: body ++ crcBytes body

end Sys2Proof
end

