-- ==== Sys2Proof/Machine/State.lean ====
section
/-! DEFINITION. The state of the JN-460 as plain data, block by block (00_scope.md, "The part at a glance"), its
value right after reset, and the reasons a step can stop. -/

namespace Sys2Proof.Machine

/-! ### Pins -/

/-- The levels the part's inputs were last found at. A level that no command delivers as an event of its own is
written by the command that reads it. `haltLine` and `stopreqLine` are the levels the others give those lines. -/
structure Pins where
  handle : Nat
  dirF : Bool
  dirR : Bool
  tlFwd : Bool
  tlRev : Bool
  activeCab : Bool
  coupling : Bool
  doorRelease : Bool
  vigil : Bool
  bellPedal : Bool
  hornButton : Bool
  loopOk : Bool
  haltLine : Bool
  stopreqLine : Bool
  deriving DecidableEq, Repr

/-! ### Axle unit (01) -/

/-- Decode modes, in the order of their codes (09, index of settings). -/
inductive DecodeMode | phase1x | phase2x | phase4x | pulseDir
  deriving DecidableEq, Repr

/-- Channel states (R6). -/
inductive ChannelState | ok | suspect | failed
  deriving DecidableEq, Repr

/-- Travel sense (R4). -/
inductive Sense | forward | reverse
  deriving DecidableEq, Repr

/-- An open phase-error window (R3): its count and its expiry. -/
structure PhaseWindow where
  count : Nat
  expiry : Nat
  deriving DecidableEq, Repr

/-- The figures of the last speed sample that AXLE READ reports and that change between samples (R15): the channel state, the
travel per count, the ring, the tally, and the count of the window, 0 when it is closed. -/
structure ChannelFigures where
  state : ChannelState
  travel : Int
  ring : List Int
  tally : Nat
  window : Nat
  deriving DecidableEq, Repr

/-- One axle channel (01 section 1). `mode` is the decode mode in use, taken up at a speed sample (R17, log entry 39);
`agreement` is the time the agreement run began (R9); `shown` holds what the last sample left for AXLE READ (R15). -/
structure AxleChannel where
  mode : DecodeMode
  phaseA : Bool
  phaseB : Bool
  count : BitVec 32
  prevCount : BitVec 32
  ring : List Int
  tally : Nat
  window : Option PhaseWindow
  state : ChannelState
  sampled : ChannelState
  speed : Int
  agreement : Option Nat
  shown : ChannelFigures
  deriving DecidableEq, Repr

/-- The reference source with the channel behind it (R7). -/
inductive RefSource
  | mean
  | larger (channel : AxleId)
  | single (channel : AxleId)
  | degraded (channel : AxleId)
  | lost
  deriving DecidableEq, Repr

/-- The axle unit. `disagreement` is the time the disagreement run began (R8), and `shownRun` how long it had lasted at the last
speed sample (R15); `standstillRun` is how long the standstill run has lasted (R14). -/
structure AxleUnit where
  ax0 : AxleChannel
  ax1 : AxleChannel
  ax2 : AxleChannel
  ax3 : AxleChannel
  sense : Sense
  disagreement : Option Nat
  shownRun : Nat
  refSpeed : Int
  source : RefSource
  refTravel : Int
  standstill : Bool
  standstillRun : Option Nat
  sampleDue : Nat
  lastSample : Nat
  deriving DecidableEq, Repr

/-! ### Traction unit (02) -/

/-- Traction states (R19), in the order of their codes. -/
inductive TractionState | inhibited | startHeld | running | halted
  deriving DecidableEq, Repr

/-- Directions of the selector and the held direction (R26), in the order of their codes. -/
inductive Position | neutral | forward | reverse
  deriving DecidableEq, Repr

/-- The level of an effort line (R44): held low, or a duty in per mille. -/
inductive EffortLine
  | low
  | duty (perMille : Int)
  deriving DecidableEq, Repr

/-- The traction unit's own state (02, opening table). `powerLimit` and `brakeLimit` are Pmax and Bmax as the last pass took
them up, for the rewrite of the bogie efforts between passes (R41, R46). -/
structure Traction where
  state : TractionState
  powerLimit : Int
  brakeLimit : Int
  effort : Int
  effortA : Int
  effortB : Int
  lineA : EffortLine
  lineB : EffortLine
  invDir : Bool
  overspeed : Bool
  ceilingInUse : Int
  direction : Position
  ignored : Option Position
  settle : Option Nat
  lastH : Int
  lastHEmergency : Bool
  invalidRun : Option Nat
  handleFaultMark : Bool
  inEmergency : Bool
  demandLoss : Option Nat
  passDue : Nat
  deriving DecidableEq, Repr

/-! ### Adhesion section (03) -/

/-- Adhesion states (03, opening table). -/
inductive AdhesionState | adhering | slipping | recovering
  deriving DecidableEq, Repr

/-- One motor bogie of the adhesion section. `slipTimer` is the time the stay in SLIPPING began (R54). -/
structure BogieState where
  state : AdhesionState
  k : Int
  slipTimer : Option Nat
  fault : Bool
  deriving DecidableEq, Repr

/-- The sand state and its timers (R56, R58). -/
inductive SandState
  | off
  | on (expiry : Nat)
  | resting (expiry : Nat)
  deriving DecidableEq, Repr

/-- The adhesion section. `lastSign` is the sign of E at the last step (R49); `stepSand` is the sand state the last completed
step left, which STATUS carries (R55). -/
structure Adhesion where
  a : BogieState
  b : BogieState
  lastSign : Int
  sand : SandState
  stepSand : SandState
  deriving DecidableEq, Repr

/-! ### Halt latch and vigilance monitor (04) -/

/-- The eight halt causes (R61), lowest code first. -/
inductive Cause | host | demandLost | trainline | vigilance | junction | rollback | referenceLost | breach
  deriving DecidableEq, Repr

/-- The present causes (R61): one flag for each. -/
structure Causes where
  host : Bool
  demandLost : Bool
  trainline : Bool
  vigilance : Bool
  junction : Bool
  rollback : Bool
  referenceLost : Bool
  breach : Bool
  deriving DecidableEq, Repr

/-- The halt latch record (R62). -/
structure LatchRecord where
  first : Cause
  time : Nat
  distance : Nat
  speed : Int
  stopped : Bool
  deriving DecidableEq, Repr

/-- The halt latch. `ackRun` is the time the acknowledgement run began (R66). -/
structure HaltLatch where
  causes : Causes
  latch : Option LatchRecord
  ackRun : Option Nat
  deriving DecidableEq, Repr

/-- Vigilance states (R68). -/
inductive VigilState | off | held | released | warnReleased | warnHeld | tripped
  deriving DecidableEq, Repr

/-- The vigilance monitor; `timer` is the expiry of the one timer its state runs (R68). -/
structure Vigilance where
  state : VigilState
  timer : Option Nat
  deriving DecidableEq, Repr

/-! ### Train-line interface (04) -/

/-- Roles (R72), in the order of their codes. -/
inductive Role | lead | trail | noCab | conflict
  deriving DecidableEq, Repr

/-- The train-line interface. `demandDrive` is the duty written on DEMAND, none while it is not driven;
`demandChanged` whether it changed in the measurement window under way (R73). -/
structure TrainLines where
  role : Role
  coupled : Bool
  halting : Bool
  emission : Option Nat
  previousDemand : Int
  retained : Option Nat
  demandU : Nat
  conflictRun : Nat
  demandDrive : Option Int
  tlFwdDrive : Bool
  tlRevDrive : Bool
  demandChanged : Bool
  demandDue : Nat
  deriving DecidableEq, Repr

/-! ### Route engine (05) -/

/-- States of a junction entry (R87), in the order of their codes. -/
inductive JunctionState | pending | asking | overdue | set | refused | breached | passed | cancelled
  deriving DecidableEq, Repr

/-- States of a signal entry (R87), in the order of their codes. -/
inductive SignalState | ahead | calling | acknowledged | calledOff
  deriving DecidableEq, Repr

/-- States of a stop entry (R87), in the order of their codes. -/
inductive StopState | ahead | approaching | announced | served | passed
  deriving DecidableEq, Repr

/-- States of a restriction entry (R87), in the order of their codes. -/
inductive RestrictionState | ahead | active | done
  deriving DecidableEq, Repr

/-- A junction entry's own fields (R87). The slot it holds is kept in the slots. -/
structure JunctionEntry where
  markA : Nat
  markE : Nat
  markC : Nat
  markX : Nat
  fix : Option Nat
  junction : Nat
  direction : PointDirection
  state : JunctionState
  answer : Option PointAnswer
  sent : Nat
  unanswered : Nat
  deriving DecidableEq, Repr

/-- A signal entry's own fields (R87, R128); `timer` is the expiry of its repeat timer. -/
structure SignalEntry where
  callIn : Nat
  callOff : Nat
  signal : Nat
  level : Nat
  state : SignalState
  timer : Option Nat
  deriving DecidableEq, Repr

/-- A stop entry's own fields (R87). -/
structure StopEntry where
  approach : Nat
  stopMark : Nat
  stop : Nat
  requestOnly : Bool
  state : StopState
  deriving DecidableEq, Repr

/-- A restriction entry's own fields (R87). -/
structure RestrictionEntry where
  start : Nat
  finish : Nat
  ceiling : Int
  state : RestrictionState
  deriving DecidableEq, Repr

/-- The fields of an entry's kind. -/
inductive EntryBody
  | junction (j : JunctionEntry)
  | signal (g : SignalEntry)
  | stop (p : StopEntry)
  | restriction (r : RestrictionEntry)
  deriving DecidableEq, Repr

/-- One record of the route table: its tag, how many of its marks have been crossed (R89), and its kind's fields. -/
structure Entry where
  tag : Nat
  crossed : Nat
  body : EntryBody
  deriving DecidableEq, Repr

/-- The terms of the effective ceiling (R101), in the order of their codes (11 section 3). -/
inductive CeilingTerm | line | restriction | approach | degraded
  deriving DecidableEq, Repr

/-- The route engine (05, opening table). -/
structure RouteEngine where
  active : Bool
  distance : Nat
  residue : Nat
  setLength : Nat
  table : List Entry
  ceiling : Int
  term : CeilingTerm
  sandInhibit : Bool
  deriving DecidableEq, Repr

/-! ### Junction unit (06) -/

/-- Loop states (R106). -/
inductive LoopState | normal | fault
  deriving DecidableEq, Repr

/-- The six requesters, in cycle order (R115). -/
inductive Requester | j0 | j1 | j2 | j3 | cancel | signal
  deriving DecidableEq, Repr

/-- The rotation position (R115): a requester, or the LOW position. -/
inductive RotationPosition
  | at (r : Requester)
  | low
  deriving DecidableEq, Repr

/-- The telegrams the junction unit sends (R109), with their content as it stood at the grant. -/
inductive Telegram
  | pointRequest (junction : Nat) (direction : PointDirection) (pair : Bool) (tram : Nat)
  | pointCancel (junction tram : Nat)
  | priorityCall (signal level tram : Nat)
  | priorityClear (signal tram : Nat)
  deriving DecidableEq, Repr

/-- A turn under way (R111): whose, for which entry, the telegram, the answer window it will listen for (0 once the role has
taken the window away, R108), and whether a POINT ANSWER matched to its entry has been taken since it began (R119). -/
structure Turn where
  holder : Requester
  entry : Option Nat
  telegram : Telegram
  window : Nat
  answered : Bool
  deriving DecidableEq, Repr

/-- The transmitter (R111): IDLE, SENDING until the airtime's end, LISTENING until the window's expiry. -/
inductive Transmitter
  | idle
  | sending (turn : Turn) (expiry : Nat)
  | listening (turn : Turn) (expiry : Nat)
  deriving DecidableEq, Repr

/-- What a slot holds (R113): nothing, the entry with a tag, or a cancel not yet sent. -/
inductive SlotHolder
  | free
  | entry (tag : Nat)
  | cancelled
  deriving DecidableEq, Repr

/-- A junction slot: its holder, its request and its repeat timer (R112). -/
structure Slot where
  holder : SlotHolder
  waiting : Bool
  timer : Option Nat
  deriving DecidableEq, Repr

/-- A POINT CANCEL waiting in the cancel queue, and the slot it keeps from being free (R113). -/
structure CancelItem where
  slot : SlotId
  junction : Nat
  deriving DecidableEq, Repr

/-- A priority telegram waiting in the signal queue, with the tag of the entry that queued it (R114). -/
structure SignalItem where
  tag : Nat
  clear : Bool
  signal : Nat
  level : Nat
  deriving DecidableEq, Repr

/-- The masks, one flag for each requester (R117). -/
structure Masks where
  j0 : Bool
  j1 : Bool
  j2 : Bool
  j3 : Bool
  cancel : Bool
  signal : Bool
  deriving DecidableEq, Repr

/-- The junction unit (06, opening table). -/
structure JunctionUnit where
  loop : LoopState
  transmitter : Transmitter
  j0 : Slot
  j1 : Slot
  j2 : Slot
  j3 : Slot
  cancelQueue : List CancelItem
  signalQueue : List SignalItem
  rotation : RotationPosition
  low : Requester
  urgentRun : Nat
  masks : Masks
  deriving DecidableEq, Repr

/-! ### Stop-request unit (07) -/

/-- Button channel kinds, in the order of their codes. -/
inductive ButtonKind | sensed | contact | unused
  deriving DecidableEq, Repr

/-- Button channel states, in the order of their codes (11 section 7). -/
inductive ButtonState | released | pressing | pressed | releasing | stuck | fault
  deriving DecidableEq, Repr

/-- One button channel. `pressSince` is the scan that confirmed its press (R140); `scannedAs` the kind under which the
previous scan visited it (R133, R135). -/
structure Button where
  state : ButtonState
  reading : Nat
  baseline : Nat
  delta : Int
  confirm : Nat
  acquisition : Nat
  drift : Nat
  rise : Nat
  recovery : Nat
  pressSince : Option Nat
  scannedAs : Option ButtonKind
  deriving DecidableEq, Repr

/-- What set the stop-request latch (R141). -/
inductive StopSource
  | button (channel : Nat)
  | host
  | trainline
  deriving DecidableEq, Repr

/-- The stop-request latch record (R142). -/
structure StopRecord where
  source : StopSource
  accessible : Bool
  presses : Nat
  distance : Nat
  deriving DecidableEq, Repr

/-- The stop-request unit (07, opening table); `buttons` are SB0 to SB23. -/
structure StopUnit where
  buttons : List Button
  hot : Bool
  lastActive : Option Nat
  scanDue : Nat
  lastScan : Nat
  latch : Option StopRecord
  sensed : Bool
  deriving DecidableEq, Repr

/-! ### Sound unit (08) -/

/-- Pattern classes, in the order of their codes. -/
inductive SoundClass | urgent | normal
  deriving DecidableEq, Repr

/-- The levels a pattern step may name, over all four channels (R152). -/
inductive Level | strike | rest | on | off | high | low
  deriving DecidableEq, Repr

/-- One step of a pattern (08 section 2): a level and a duration in units of 10 ms. -/
structure PatternStep where
  level : Level
  duration : Nat
  deriving DecidableEq, Repr

/-- A pattern's record (08 section 2); `passes` 0 means until silenced. -/
structure Pattern where
  channel : SoundChannel
  cls : SoundClass
  passes : Nat
  steps : List PatternStep
  deriving DecidableEq, Repr

/-- A player (R154). `pass` counts the passes already ended. -/
inductive Player
  | idle
  | playing (pattern step pass expiry : Nat)
  | driver
  deriving DecidableEq, Repr

/-- Who asked for a pattern (08 section 4). -/
inductive Origin | internal | host
  deriving DecidableEq, Repr

/-- An entry of a waiting queue (R155). -/
structure Waiting where
  pattern : Nat
  cls : SoundClass
  origin : Origin
  deriving DecidableEq, Repr

/-- One output channel: its player and its waiting queue, head first. -/
structure SoundLine where
  player : Player
  queue : List Waiting
  deriving DecidableEq, Repr

/-- The sound unit. `loaded` holds the loaded patterns of 6..15 by number. -/
structure SoundUnit where
  bell : SoundLine
  horn : SoundLine
  chime : SoundLine
  buzzer : SoundLine
  pulse : Option Nat
  bellHold : Option Nat
  bellDue : Option Nat
  hornHold : Option Nat
  hornTail : Option Nat
  loaded : List (Nat × Pattern)
  deriving DecidableEq, Repr

/-! ### Settings store (09) -/

/-- The seven groups (R165). -/
inductive Group | g0 | g1 | g2 | g3 | g4 | g5 | g6
  deriving DecidableEq, Repr

/-- One flag for each group. -/
structure PerGroup where
  g0 : Bool
  g1 : Bool
  g2 : Bool
  g3 : Bool
  g4 : Bool
  g5 : Bool
  g6 : Bool
  deriving DecidableEq, Repr

/-- The settings store. `effective` lists the settings whose value was ever set, by rising number; a setting not listed
has its default. `pending` lists the pending values, by rising number. `effortHeld` is the lock condition of G2 as last
judged at its events: E was not 0 (R165). -/
structure SettingsStore where
  effective : List (Nat × Int)
  pending : List (Nat × Int)
  frozen : PerGroup
  locked : PerGroup
  effortHeld : Bool
  deriving DecidableEq, Repr

/-! ### Host link (10) -/

/-- The receiver (R173): HUNTING, or IN_FRAME with the bytes after the lead byte and the time of the last byte. -/
inductive Receiver
  | hunting
  | inFrame (bytes : List Byte) (last : Nat)
  deriving DecidableEq, Repr

/-- A request of the input queue, with the tag of its frame. -/
structure QueuedRequest where
  tag : Nat
  request : HostRequest
  deriving DecidableEq, Repr

/-- The line out (R174): FREE, or SENDING the bytes of a reply, which may be a BUSY reply. -/
inductive LineOut
  | free
  | sending (bytes : List Byte) (busyReply : Bool)
  deriving DecidableEq, Repr

/-- A record of the pending-event set (10 section 4); `kind` is its code. -/
structure EventRecord where
  kind : Nat
  subject : Nat
  repeated : Bool
  value : Int
  distance : Nat
  deriving DecidableEq, Repr

/-- Kinds of reset, in the order of their codes. -/
inductive ResetKind | powerUp | full | journey
  deriving DecidableEq, Repr

/-- The host link (10, opening table). `headRunning` says that the head of the queue has executed and its reply is being
sent. The events stand in the order EVENTS returns them (R178). -/
structure HostLink where
  receiver : Receiver
  queue : List QueuedRequest
  headRunning : Bool
  line : LineOut
  busy : Option (Nat × Nat)
  events : List EventRecord
  incomplete : Bool
  lastReset : ResetKind
  deriving DecidableEq, Repr

/-! ### The whole part -/

/-- The state of the part: the waiting commands, the clock in ms since POWER-UP, the counter the free values are drawn
with, the pins and the blocks. -/
structure State where
  pending : List Instr
  now : Nat
  freeCount : Nat
  pins : Pins
  axle : AxleUnit
  traction : Traction
  adhesion : Adhesion
  halt : HaltLatch
  vigilance : Vigilance
  lines : TrainLines
  route : RouteEngine
  junction : JunctionUnit
  stop : StopUnit
  sound : SoundUnit
  settings : SettingsStore
  host : HostLink
  deriving DecidableEq, Repr

/-- The reasons a step can stop the model. The spec names no event that stops the part. -/
inductive Fault
  /-- Raised by a SCAN command that does not carry 24 readings: the converter delivers one for every channel it visits
  (R133), so no such scan exists. Safe: the model stops where the hardware cannot be (log entry 30). -/
  | scanReadingMissing
  deriving DecidableEq, Repr

/-- The reasons a command can be turned away by the model. -/
inductive Refusal
  /-- Raised by an arm of exec whose command has no meaning yet. Safe: nothing can be proved of a state that is not
  answered. No arm raises it in this model. -/
  | notModelled (mnemonic : String)
  deriving DecidableEq, Repr

/-! ### One setter for each block -/

def State.setNow (s : State) (t : Nat) : State := { s with now := t }
def State.setFreeCount (s : State) (n : Nat) : State := { s with freeCount := n }
def State.setPins (s : State) (p : Pins) : State := { s with pins := p }
def State.setAxle (s : State) (x : AxleUnit) : State := { s with axle := x }
def State.setTraction (s : State) (x : Traction) : State := { s with traction := x }
def State.setAdhesion (s : State) (x : Adhesion) : State := { s with adhesion := x }
def State.setHalt (s : State) (x : HaltLatch) : State := { s with halt := x }
def State.setVigilance (s : State) (x : Vigilance) : State := { s with vigilance := x }
def State.setLines (s : State) (x : TrainLines) : State := { s with lines := x }
def State.setRoute (s : State) (x : RouteEngine) : State := { s with route := x }
def State.setJunction (s : State) (x : JunctionUnit) : State := { s with junction := x }
def State.setStop (s : State) (x : StopUnit) : State := { s with stop := x }
def State.setSound (s : State) (x : SoundUnit) : State := { s with sound := x }
def State.setSettings (s : State) (x : SettingsStore) : State := { s with settings := x }
def State.setHost (s : State) (x : HostLink) : State := { s with host := x }

/-! ### Reset values -/

/-- The pins at reset: DESIGN CHOICE (log entry 7), the spec gives no level to an input. -/
def Pins.atReset : Pins where
  handle := 104
  dirF := false
  dirR := false
  tlFwd := false
  tlRev := false
  activeCab := false
  coupling := false
  doorRelease := false
  vigil := false
  bellPedal := false
  hornButton := false
  loopOk := true
  haltLine := false
  stopreqLine := false

/-- An axle channel after POWER-UP and RESTART FULL, its decoder on the phases' present levels (R18). -/
def AxleChannel.atReset (phaseA phaseB : Bool) : AxleChannel where
  mode := .phase4x
  phaseA := phaseA
  phaseB := phaseB
  count := 0
  prevCount := 0
  ring := [0, 0, 0, 0, 0, 0, 0, 0, 0, 0]
  tally := 0
  window := none
  state := .ok
  sampled := .ok
  speed := 0
  agreement := none
  shown := ⟨.ok, 518, [0, 0, 0, 0, 0, 0, 0, 0, 0, 0], 0, 0⟩

/-- The axle unit after POWER-UP and RESTART FULL at time `t` (R18), around the channels given. -/
def AxleUnit.atReset (t : Nat) (c0 c1 c2 c3 : AxleChannel) : AxleUnit where
  ax0 := c0
  ax1 := c1
  ax2 := c2
  ax3 := c3
  sense := .forward
  disagreement := none
  shownRun := 0
  refSpeed := 0
  source := .mean
  refTravel := 0
  standstill := true
  standstillRun := none
  sampleDue := t + 10
  lastSample := t

/-- The traction unit after POWER-UP and RESTART FULL at time `t` (R47). -/
def Traction.atReset (t : Nat) : Traction where
  state := .inhibited
  powerLimit := 1000
  brakeLimit := 1000
  effort := 0
  effortA := 0
  effortB := 0
  lineA := .low
  lineB := .low
  invDir := false
  overspeed := false
  ceilingInUse := 16700
  direction := .neutral
  ignored := none
  settle := none
  lastH := 0
  lastHEmergency := false
  invalidRun := none
  handleFaultMark := false
  inEmergency := false
  demandLoss := none
  passDue := t + 10

/-- A bogie that adheres, at full factor (R49, R60). -/
def BogieState.adhering : BogieState := ⟨.adhering, 1000, none, false⟩

/-- The adhesion section after POWER-UP and RESTART FULL (R60). -/
def Adhesion.atReset : Adhesion := ⟨.adhering, .adhering, 0, .off, .off⟩

/-- No cause present. -/
def Causes.none : Causes := ⟨false, false, false, false, false, false, false, false⟩

/-- The halt latch after POWER-UP and RESTART FULL (R81). -/
def HaltLatch.atReset : HaltLatch := ⟨.none, none, none⟩

/-- The vigilance monitor after POWER-UP and RESTART FULL (R81). -/
def Vigilance.atReset : Vigilance := ⟨.off, none⟩

/-- The train-line interface after POWER-UP and RESTART FULL at time `t`, before its inputs are sampled (R81). -/
def TrainLines.atReset (t : Nat) : TrainLines where
  role := .noCab
  coupled := false
  halting := false
  emission := none
  previousDemand := 0
  retained := none
  demandU := 0
  conflictRun := 0
  demandDrive := none
  tlFwdDrive := false
  tlRevDrive := false
  demandChanged := false
  demandDue := t + 10

/-- The route engine after POWER-UP and RESTART FULL, coupled flag clear (R105). -/
def RouteEngine.atReset : RouteEngine where
  active := false
  distance := 0
  residue := 0
  setLength := 320
  table := []
  ceiling := 16700
  term := .line
  sandInhibit := false

/-- A free slot (R132). -/
def Slot.empty : Slot := ⟨.free, false, none⟩

/-- The junction unit after POWER-UP and RESTART FULL, LOOP_OK not yet judged (R132). -/
def JunctionUnit.atReset : JunctionUnit where
  loop := .normal
  transmitter := .idle
  j0 := .empty
  j1 := .empty
  j2 := .empty
  j3 := .empty
  cancelQueue := []
  signalQueue := []
  rotation := .at .j0
  low := .signal
  urgentRun := 0
  masks := ⟨false, false, false, false, false, false⟩

/-- A button channel before its first scan (R151; its readings DESIGN CHOICE 0, log entry 8). -/
def Button.atReset : Button where
  state := .released
  reading := 0
  baseline := 0
  delta := 0
  confirm := 0
  acquisition := 0
  drift := 0
  rise := 0
  recovery := 0
  pressSince := none
  scannedAs := none

/-- The stop-request unit after POWER-UP and RESTART FULL at time `t`, the STOPREQ line at `level` (R151). -/
def StopUnit.atReset (t : Nat) (level : Bool) : StopUnit where
  buttons := List.replicate 24 .atReset
  hot := false
  lastActive := none
  scanDue := t
  lastScan := t
  latch := none
  sensed := level

/-- A sound channel at rest. -/
def SoundLine.atReset : SoundLine := ⟨.idle, []⟩

/-- The sound unit after POWER-UP and RESTART FULL (R164). -/
def SoundUnit.atReset : SoundUnit where
  bell := .atReset
  horn := .atReset
  chime := .atReset
  buzzer := .atReset
  pulse := none
  bellHold := none
  bellDue := none
  hornHold := none
  hornTail := none
  loaded := []

/-- No flag set. -/
def PerGroup.clear : PerGroup := ⟨false, false, false, false, false, false, false⟩

/-- The settings store after POWER-UP and RESTART FULL (R172). -/
def SettingsStore.atReset : SettingsStore := ⟨[], [], .clear, .clear, false⟩

/-- The host link after POWER-UP (R180): the set holds POWER UP, subject 0, route distance 0. -/
def HostLink.atReset : HostLink where
  receiver := .hunting
  queue := []
  headRunning := false
  line := .free
  busy := none
  events := [⟨1, 0, false, 0, 0⟩]
  incomplete := false
  lastReset := .powerUp

/-- The part right after POWER-UP, with nothing at its pins: every block as its chapter's table of reset values says. -/
def State.reset : State where
  pending := []
  now := 0
  freeCount := 0
  pins := .atReset
  axle := .atReset 0 (.atReset false false) (.atReset false false) (.atReset false false) (.atReset false false)
  traction := .atReset 0
  adhesion := .atReset
  halt := .atReset
  vigilance := .atReset
  lines := .atReset 0
  route := .atReset
  junction := .atReset
  stop := .atReset 0 false
  sound := .atReset
  settings := .atReset
  host := .atReset

end Sys2Proof.Machine
end

