-- ==== Sys2Proof/Machine/SettingIndex.lean ====
section
/-! DEFINITION. The index of settings (09, "Index of settings"): numbers, ranges, defaults, and the value a setting has. -/

namespace Sys2Proof.Machine

/-- One row of the index: the numbers it covers, the range of their values, their default. -/
structure SettingRow where
  first : Nat
  last : Nat
  lo : Int
  hi : Int
  default : Int
  deriving DecidableEq, Repr

/-- The index of settings of 09, row by row; an enumerated setting's range is that of its codes. -/
def settingIndex : List SettingRow :=
  [⟨0, 0, 1, 100, 8⟩, ⟨1, 1, 1, 100, 12⟩, ⟨2, 2, 1, 200, 20⟩, ⟨3, 3, 100, 5000, 1500⟩, ⟨4, 4, 200, 3000, 1000⟩,
    ⟨5, 5, -600, -100, -300⟩, ⟨6, 6, 100, 1000, 300⟩, ⟨7, 7, 0, 2000, 500⟩, ⟨8, 8, 200, 1000, 1000⟩,
    ⟨9, 9, 200, 1000, 1000⟩] ++
  [⟨100, 103, 0, 3, 2⟩, ⟨104, 107, 64, 65535, 518⟩, ⟨108, 108, 1, 255, 16⟩, ⟨109, 109, 50, 2000, 200⟩,
    ⟨110, 110, 500, 10000, 2000⟩, ⟨111, 111, 10, 200, 30⟩] ++
  [⟨200, 200, 100, 2000, 400⟩, ⟨201, 201, 20, 300, 80⟩, ⟨202, 202, 5, 200, 40⟩, ⟨203, 203, 100, 800, 250⟩,
    ⟨204, 204, 1, 50, 5⟩, ⟨205, 205, 1, 10, 4⟩, ⟨206, 206, 100, 950, 700⟩, ⟨207, 207, 100, 2000, 300⟩,
    ⟨208, 208, 1, 30, 10⟩, ⟨209, 209, 1, 30, 5⟩] ++
  [⟨300, 300, 100, 600, 320⟩, ⟨301, 301, 1000, 25000, 16700⟩, ⟨302, 302, 1000, 10000, 4200⟩,
    ⟨303, 303, 1000, 10000, 5600⟩, ⟨304, 304, 0, 500, 50⟩, ⟨305, 305, 0, 1000, 200⟩, ⟨306, 306, 10, 500, 50⟩,
    ⟨307, 307, 1, 65535, 1⟩, ⟨308, 308, 20, 200, 60⟩, ⟨309, 309, 100, 1000, 200⟩, ⟨310, 310, 2, 32, 8⟩,
    ⟨311, 311, 0, 500, 80⟩, ⟨312, 312, 1, 8, 4⟩, ⟨313, 317, 0, 1, 0⟩, ⟨318, 318, 0, 1, 1⟩] ++
  [⟨400, 423, 0, 2, 0⟩, ⟨424, 447, 0, 1, 0⟩, ⟨448, 448, 0, 23, 0⟩, ⟨449, 449, 0, 23, 23⟩, ⟨450, 450, 20, 1000, 120⟩,
    ⟨451, 452, 1, 8, 3⟩, ⟨453, 453, 5, 120, 30⟩, ⟨454, 454, 40, 400, 80⟩, ⟨455, 455, 0, 100, 30⟩,
    ⟨456, 456, 0, 100, 20⟩] ++
  [⟨500, 500, 150, 1000, 250⟩, ⟨501, 501, 0, 1000, 300⟩] ++
  [⟨600, 600, 0, 1, 1⟩, ⟨601, 601, 1, 10, 3⟩, ⟨602, 602, 1, 5, 2⟩, ⟨603, 603, 20, 120, 60⟩, ⟨604, 604, 0, 1000, 200⟩,
    ⟨605, 605, 300, 1000, 700⟩]

/-- The row a setting number belongs to; none for a number not in the index. -/
def settingRow (n : Nat) : Option SettingRow := settingIndex.find? fun r => decide (r.first ≤ n) && decide (n ≤ r.last)

/-- The default of a setting. -/
def settingDefault (n : Nat) : Int := ((settingRow n).map (·.default)).getD 0

/-- `v` lies within the range of setting `n`, and `n` is in the index (R166). -/
def settingAllows (n : Nat) (v : Int) : Bool :=
  match settingRow n with
  | some r => decide (r.lo ≤ v) && decide (v ≤ r.hi)
  | none => false

/-- The group of a setting: the hundreds digit of its number (09). -/
def settingGroup (n : Nat) : Nat := n / 100

/-- The value listed under `n`, if any. -/
def listed (n : Nat) : List (Nat × Int) → Option Int
  | [] => none
  | (m, v) :: l => if m = n then some v else listed n l

/-- The list with `v` under `n`, numbers rising. -/
def listSet (n : Nat) (v : Int) : List (Nat × Int) → List (Nat × Int)
  | [] => [(n, v)]
  | (m, w) :: l => if n < m then (n, v) :: (m, w) :: l else if n = m then (n, v) :: l else (m, w) :: listSet n v l

/-- The effective value of setting `n` (09, opening table). -/
def SettingsStore.value (st : SettingsStore) (n : Nat) : Int := (listed n st.effective).getD (settingDefault n)

/-- The effective value as a natural number, for the settings that are never negative. -/
def SettingsStore.nat (st : SettingsStore) (n : Nat) : Nat := (st.value n).toNat

end Sys2Proof.Machine

/-! Setting numbers by name. -/

namespace Sys2Proof.Setting

def powerBuild : Nat := 0
def brakeBuild : Nat := 1
def release : Nat := 2
def taperBand : Nat := 3
def overspeedMargin : Nat := 4
def overspeedBrake : Nat := 5
def rollbackLimit : Nat := 6
def settleTime : Nat := 7
def powerLimit : Nat := 8
def brakeLimit : Nat := 9
def decodeMode (c : AxleId) : Nat := match c with | .ax0 => 100 | .ax1 => 101 | .ax2 => 102 | .ax3 => 103
def travel (c : AxleId) : Nat := match c with | .ax0 => 104 | .ax1 => 105 | .ax2 => 106 | .ax3 => 107
def phaseErrorLimit : Nat := 108
def agreeTolerance : Nat := 109
def disagreementTime : Nat := 110
def standstillThreshold : Nat := 111
def absoluteThreshold : Nat := 200
def relativeThreshold : Nat := 201
def cutStep : Nat := 202
def kMin : Nat := 203
def recoveryStep : Nat := 204
def slipTimeLimit : Nat := 205
def sandThreshold : Nat := 206
def sandMinSpeed : Nat := 207
def sandMax : Nat := 208
def sandRest : Nat := 209
def tramLength : Nat := 300
def lineCeiling : Nat := 301
def approachCeiling : Nat := 302
def degradedCeiling : Nat := 303
def insertMargin : Nat := 304
def retireDistance : Nat := 305
def fixTolerance : Nat := 306
def tramNumber : Nat := 307
def answerWindow : Nat := 308
def repeatInterval : Nat := 309
def silenceLimit : Nat := 310
def urgencyDistance : Nat := 311
def urgentBudget : Nat := 312
def classOf (r : Machine.Requester) : Nat :=
  match r with | .j0 => 313 | .j1 => 314 | .j2 => 315 | .j3 => 316 | .cancel => 317 | .signal => 318
def buttonKind (channel : Nat) : Nat := 400 + channel
def accessible (channel : Nat) : Nat := 424 + channel
def scanFirst : Nat := 448
def scanLast : Nat := 449
def pressThreshold : Nat := 450
def confirmScans : Nat := 451
def releaseScans : Nat := 452
def stuckTime : Nat := 453
def coldInterval : Nat := 454
def zoneBefore : Nat := 455
def zoneAfter : Nat := 456
def bellInterval : Nat := 500
def hornMinimum : Nat := 501
def haltOutput : Nat := 600
def vigilanceGrace : Nat := 601
def warnToHalt : Nat := 602
def holdLimit : Nat := 603
def startRetention : Nat := 604
def haltBrake : Nat := 605

end Sys2Proof.Setting
end

