-- ==== Sys2Proof/Machine/Ops.lean ====
section
/-! DEFINITION. The operations every block shares: the clock, the pending-event set (R177), the lock groups and the
applying of pending values (R165, R168). -/

namespace Sys2Proof.Machine

/-! ### The clock (log entries 2, 3, 4) -/

/-- The clock at `t`, unless it is past it. -/
def State.reach (s : State) (t : Nat) : State := s.setNow (max s.now t)

/-- What the expiry `timer` of a running timer brings, at its time; nothing comes of a timer that is not running (log
entry 3). -/
def atExpiry (timer : Option Nat) (f : State → State) (s : State) : State :=
  match timer with
  | none => s
  | some t => f (s.reach t)

/-! ### Settings as the blocks read them -/

/-- The effective value of a setting. -/
def State.cfg (s : State) (n : Nat) : Int := s.settings.value n

/-- The effective value of a setting that is never negative. -/
def State.cfgN (s : State) (n : Nat) : Nat := s.settings.nat n

/-! ### The pending-event set (10 section 4) -/

/-- The order in which EVENTS returns records: descending kind, then ascending subject (R178). -/
def EventRecord.before (a b : EventRecord) : Bool :=
  decide (b.kind < a.kind) || (decide (a.kind = b.kind) && decide (a.subject < b.subject))

/-- `r` at its place in the order of EVENTS. -/
def insertEvent (r : EventRecord) : List EventRecord → List EventRecord
  | [] => [r]
  | x :: l => if r.before x then r :: x :: l else x :: insertEvent r l

/-- The set's records and its incomplete flag after the event of `r` (R177): case 1 a record of the same kind and subject,
case 2 room, case 3 a full set, whose last record in the order of EVENTS is the candidate. -/
def enterEvent (r : EventRecord) (events : List EventRecord) (incomplete : Bool) : List EventRecord × Bool :=
  if events.any fun x => decide (x.kind = r.kind) && decide (x.subject = r.subject) then
    (events.map fun x =>
      if x.kind = r.kind ∧ x.subject = r.subject then { x with repeated := true, value := r.value } else x, incomplete)
  else if events.length < Config.maxEvents then (insertEvent r events, incomplete)
  else
    match events.getLast? with
    | some candidate => if candidate.kind < r.kind then (insertEvent r events.dropLast, true) else (events, true)
    | none => (events, true)

/-- A block raises an event (R177), at the route distance the route engine holds. -/
def raise (kind subject : Nat) (value : Int) (s : State) : State :=
  let e := enterEvent ⟨kind, subject, false, value, s.route.distance⟩ s.host.events s.host.incomplete
  s.setHost { s.host with events := e.1, incomplete := e.2 }

/-! ### Lock groups (09 section 1) -/

def Group.code : Group → Nat
  | .g0 => 0 | .g1 => 1 | .g2 => 2 | .g3 => 3 | .g4 => 4 | .g5 => 5 | .g6 => 6

/-- The group a host names (R170); none outside 0..6. -/
def Group.ofCode : Nat → Option Group
  | 0 => some .g0 | 1 => some .g1 | 2 => some .g2 | 3 => some .g3 | 4 => some .g4 | 5 => some .g5 | 6 => some .g6
  | _ => none

def PerGroup.get (p : PerGroup) : Group → Bool
  | .g0 => p.g0 | .g1 => p.g1 | .g2 => p.g2 | .g3 => p.g3 | .g4 => p.g4 | .g5 => p.g5 | .g6 => p.g6

def PerGroup.put (p : PerGroup) (g : Group) (b : Bool) : PerGroup :=
  match g with
  | .g0 => { p with g0 := b } | .g1 => { p with g1 := b } | .g2 => { p with g2 := b } | .g3 => { p with g3 := b }
  | .g4 => { p with g4 := b } | .g5 => { p with g5 := b } | .g6 => { p with g6 := b }

/-- Every pending value of group `g` becomes effective; SETTINGS APPLIED if there was one (R168). -/
def applyPending (g : Group) (s : State) : State :=
  let mine := s.settings.pending.filter fun p => settingGroup p.1 == g.code
  let applied := s.setSettings { s.settings with
    effective := mine.foldl (fun l p => listSet p.1 p.2 l) s.settings.effective
    pending := s.settings.pending.filter fun p => settingGroup p.1 != g.code }
  if mine.isEmpty then applied else raise 6 g.code mine.length applied

/-- The lock state of `g` judged afresh, its condition being `held`; a group that unlocks applies its pending values
(R165, R168). -/
def judgeLock (g : Group) (held : Bool) (s : State) : State :=
  let locked := held || s.settings.frozen.get g
  let judged := s.setSettings { s.settings with locked := s.settings.locked.put g locked }
  if s.settings.locked.get g && !locked then applyPending g judged else judged

end Sys2Proof.Machine
end

