-- ==== Sys2Proof/Machine/SoundOps.lean ====
section
/-! DEFINITION. The operations of the sound unit (08): patterns, players, waiting queues, requests, silences, the driver's
controls. -/

namespace Sys2Proof.Machine

/-! ### Channels and patterns -/

def SoundUnit.line (u : SoundUnit) : SoundChannel → SoundLine
  | .bell => u.bell | .horn => u.horn | .chime => u.chime | .buzzer => u.buzzer

def SoundUnit.setLine (u : SoundUnit) (c : SoundChannel) (l : SoundLine) : SoundUnit :=
  match c with
  | .bell => { u with bell := l } | .horn => { u with horn := l }
  | .chime => { u with chime := l } | .buzzer => { u with buzzer := l }

/-- The built-in patterns 0..5 (08 section 2). -/
def fixedPattern : Nat → Option Pattern
  | 0 => some ⟨.buzzer, .urgent, 0, [⟨.on, 30⟩, ⟨.off, 20⟩]⟩
  | 1 => some ⟨.buzzer, .urgent, 3, [⟨.on, 10⟩, ⟨.off, 10⟩, ⟨.on, 10⟩, ⟨.off, 40⟩]⟩
  | 2 => some ⟨.chime, .normal, 1, [⟨.high, 40⟩, ⟨.low, 60⟩]⟩
  | 3 => some ⟨.buzzer, .normal, 1, [⟨.on, 15⟩, ⟨.off, 10⟩, ⟨.on, 15⟩]⟩
  | 4 => some ⟨.buzzer, .urgent, 0, [⟨.on, 80⟩, ⟨.off, 20⟩]⟩
  | 5 => some ⟨.chime, .normal, 1, [⟨.high, 30⟩, ⟨.low, 30⟩, ⟨.high, 30⟩, ⟨.low, 60⟩]⟩
  | _ => none

/-- The record loaded under `n`, if any. -/
def loadedPattern (n : Nat) : List (Nat × Pattern) → Option Pattern
  | [] => none
  | (m, p) :: l => if m = n then some p else loadedPattern n l

/-- The loaded patterns with `p` under `n`, or with none there, numbers rising (R153). -/
def storePattern (n : Nat) (p : Option Pattern) (l : List (Nat × Pattern)) : List (Nat × Pattern) :=
  let lower := l.filter fun x => decide (x.1 < n)
  let higher := l.filter fun x => decide (n < x.1)
  match p with
  | some p => lower ++ (n, p) :: higher
  | none => lower ++ higher

/-- The record of pattern `n`; none for an empty pattern (R153). -/
def SoundUnit.pattern (u : SoundUnit) (n : Nat) : Option Pattern :=
  if n < 6 then fixedPattern n else loadedPattern n u.loaded

/-- The levels of a channel, in the order of their codes (R152, 11 section 1). -/
def levelsOf : SoundChannel → List Level
  | .bell => [.strike, .rest] | .horn => [.on, .off] | .chime => [.high, .low, .off] | .buzzer => [.on, .off]

/-- The player is PLAYING or DRIVER. -/
def SoundLine.sounding (l : SoundLine) : Bool := decide (l.player ≠ .idle)

/-- The player is PLAYING pattern `p`. -/
def SoundLine.plays (l : SoundLine) (p : Nat) : Bool :=
  match l.player with
  | .playing q _ _ _ => q == p
  | _ => false

/-- Some channel is sounding: the lock condition of G5 (R165). -/
def SoundUnit.sounding (u : SoundUnit) : Bool :=
  u.bell.sounding || u.horn.sounding || u.chime.sounding || u.buzzer.sounding

/-- G5 judged at a player leaving or becoming IDLE (R165). -/
def judgeSound (s : State) : State := judgeLock .g5 s.sound.sounding s

/-! ### The strike pulse and the player -/

/-- A strike falls due: a pulse of 40 ms begins, unless one is running; one whose expiry has come is not (R152, R153, log
entry 43). -/
def strike (s : State) : State :=
  if s.sound.pulse.any fun t => decide (s.now < t) then s
  else s.setSound { s.sound with pulse := some (s.now + 40) }

/-- The player of `c` enters step `step` of pass `pass` of pattern `p` at the time `t` (R154): its level, its expiry. -/
def enterStep (c : SoundChannel) (p : Nat) (st : PatternStep) (step pass t : Nat) (s : State) : State :=
  let playing := s.setSound (s.sound.setLine c
    { s.sound.line c with player := .playing p step pass (t + st.duration * 10) })
  if c = .bell ∧ st.level = .strike then strike playing else playing

/-- The player of `c` takes pattern `p` (R154): first step of the first pass. -/
def takePattern (c : SoundChannel) (p : Nat) (s : State) : State :=
  match (s.sound.pattern p).bind fun r => r.steps.head? with
  | some st => enterStep c p st 0 0 s.now s
  | none => s

/-- The player of `c` leaves what it sounds: it takes the head of its queue, or becomes IDLE (R154, R157). -/
def leavePlayer (c : SoundChannel) (s : State) : State :=
  match (s.sound.line c).queue with
  | [] => judgeSound (s.setSound (s.sound.setLine c ⟨.idle, []⟩))
  | w :: rest => judgeSound (takePattern c w.pattern (s.setSound (s.sound.setLine c ⟨.idle, rest⟩)))

/-! ### Requests (R155, R156) -/

/-- How a request was taken (R162): the four replies of PLAY, or not at all at a full queue (R156). -/
inductive Taken | merged | started | preempted | queued | full
  deriving DecidableEq, Repr

def Taken.code : Taken → Nat
  | .merged => 0 | .started => 1 | .preempted => 2 | .queued => 3 | .full => 4

/-- A waiting queue with `w` in class order (R155 case 5). -/
def joinQueue (w : Waiting) (q : List Waiting) : List Waiting :=
  match w.cls with
  | .urgent => q.takeWhile (fun x => x.cls == .urgent) ++ w :: q.dropWhile fun x => x.cls == .urgent
  | .normal => q ++ [w]

/-- An entry an INTERNAL request may displace (R156). -/
def Waiting.displaceable (w : Waiting) : Bool := w.origin == .host && w.cls == .normal

/-- The newest displaceable entry of a queue, and the queue without it (R156). -/
def displaceNewest (q : List Waiting) : Option (Waiting × List Waiting) :=
  match q.reverse.find? Waiting.displaceable with
  | some w => some (w, (q.reverse.eraseP Waiting.displaceable).reverse)
  | none => none

/-- Case 5 of R155, and R156 at a full queue. -/
def queueRequest (c : SoundChannel) (w : Waiting) (s : State) : State × Taken :=
  let line := s.sound.line c
  let joined := fun (q : List Waiting) => s.setSound (s.sound.setLine c { line with queue := joinQueue w q })
  if line.queue.length < Config.maxWaiting then (joined line.queue, .queued)
  else
    match w.origin, displaceNewest line.queue with
    | .host, _ => (s, .full)
    | .internal, some (gone, rest) => (raise 7 gone.pattern 1 (joined rest), .queued)
    | .internal, none => (raise 7 w.pattern 0 s, .full)

/-- A request of pattern `p` and origin `o` reaches its channel: the first case of R155 that applies. -/
def requestPattern (p : Nat) (o : Origin) (s : State) : State × Taken :=
  match s.sound.pattern p with
  | none => (s, .full)
  | some rec =>
    let c := rec.channel
    let line := s.sound.line c
    if line.plays p then (s, .merged)
    else if line.queue.any fun w => w.pattern == p then
      let claim := fun (w : Waiting) => if w.pattern = p ∧ o = .internal then { w with origin := .internal } else w
      (s.setSound (s.sound.setLine c { line with queue := line.queue.map claim }), .merged)
    else
      match line.player with
      | .idle => (judgeSound (takePattern c p s), .started)
      | .playing q _ _ _ =>
        if rec.cls = .urgent ∧ (s.sound.pattern q).map (·.cls) = some .normal then
          (takePattern c p (raise 8 q p s), .preempted)
        else queueRequest c ⟨p, rec.cls, o⟩ s
      | .driver => queueRequest c ⟨p, rec.cls, o⟩ s

/-- A block of the part asks for a built-in pattern (08 section 5). -/
def askFor (p : Nat) (s : State) : State := (requestPattern p .internal s).1

/-- Pattern `p` is silenced (R157). -/
def silencePattern (p : Nat) (s : State) : State :=
  match s.sound.pattern p with
  | none => s
  | some rec =>
    let line := s.sound.line rec.channel
    if line.plays p then leavePlayer rec.channel s
    else s.setSound (s.sound.setLine rec.channel { line with queue := line.queue.filter fun w => w.pattern != p })

/-- A channel with nothing left to play: the queue is empty, and a player that was PLAYING is IDLE (R162, ALL). -/
def SoundLine.silenced (l : SoundLine) : SoundLine :=
  match l.player with
  | .driver => ⟨.driver, []⟩
  | _ => ⟨.idle, []⟩

/-- Every pattern on every channel is silenced (R162). -/
def silenceAll (s : State) : State :=
  judgeSound (s.setSound { s.sound with
    bell := s.sound.bell.silenced
    horn := s.sound.horn.silenced
    chime := s.sound.chime.silenced
    buzzer := s.sound.buzzer.silenced })

/-! ### The driver's controls (R159, R160, R161) -/

/-- The driver takes channel `c`: a pattern PLAYING there is discarded with SOUND PREEMPTED of value `v`, and the player is
DRIVER. -/
def driverTakes (c : SoundChannel) (v : Int) (s : State) : State :=
  let line := s.sound.line c
  let noted := match line.player with
    | .playing q _ _ _ => raise 8 q v s
    | _ => s
  judgeSound (noted.setSound (noted.sound.setLine c { line with player := .driver }))

/-- The bell pedal is released, or treated as released (R159, R161). -/
def releaseBell (s : State) : State :=
  if s.sound.bellHold.isSome then leavePlayer .bell (s.setSound { s.sound with bellHold := none, bellDue := none }) else s

/-- The horn falls silent and its player leaves DRIVER (R160, R161). -/
def endHorn (s : State) : State := leavePlayer .horn (s.setSound { s.sound with hornHold := none, hornTail := none })

/-- The unit leaves LEAD: held controls are treated as released, the horn with no tail (R161). -/
def releaseControls (s : State) : State :=
  let s := releaseBell s
  if s.sound.hornHold.isSome || s.sound.hornTail.isSome then endHorn s else s

end Sys2Proof.Machine
end

