-- ==== Sys2Proof/Machine/HaltOps.lean ====
section
/-! DEFINITION. The power gate and the effort lines (02), the halt latch and its causes, the HALT drive and the start pulse
(04): what every block that finds a reason to stop the tram shares. -/

namespace Sys2Proof.Machine

/-! ### The power gate and the effort lines -/

/-- The power gate is open (R19). -/
def gateOpen (s : State) : Bool := s.traction.state == .running && !s.traction.overspeed

/-- The duty of an effort line for a bogie effort (R44); DEMAND uses the same formula (R45). -/
def dutyOf (e : Int) : Int := 500 + (e * 9).tdiv 20

/-- The effort lines as stage 7 writes them: low in INHIBITED with E at 0, a duty otherwise (R44). -/
def writeLines (t : Traction) : Traction :=
  if t.state = .inhibited ∧ t.effort = 0 then { t with lineA := .low, lineB := .low }
  else { t with lineA := .duty (dutyOf t.effortA), lineB := .duty (dutyOf t.effortB) }

/-- What the closing of the power gate does to a positive E (R20); the traction state is already the new one. -/
def closeGate (t : Traction) : Traction :=
  if 0 < t.effort then writeLines { t with effort := 0, effortA := 0, effortB := 0 } else t

/-- An inhibit reason appears or the role changes (R21): RUNNING and START_HELD enter INHIBITED. -/
def enterInhibited (s : State) : State :=
  match s.traction.state with
  | .running => s.setTraction (closeGate { s.traction with state := .inhibited })
  | .startHeld => s.setTraction { s.traction with state := .inhibited }
  | _ => s

/-- The unit enters HALTED (R24). -/
def enterHalted (s : State) : State :=
  let halted := { s.traction with state := .halted }
  s.setTraction (if s.traction.state = .running then closeGate halted else halted)

/-- Stages 5 and 6 for one bogie (R42, R43): the factor, then the power or the brake limit. -/
def bogieEffort (e k powerLimit brakeLimit : Int) : Int :=
  let x := (e * k).tdiv 1000
  if 0 < x then (x * powerLimit).tdiv 1000 else (x * brakeLimit).tdiv 1000

/-- The bogie efforts from E and the factors as they stand, under the limits in use (R42, R43, R46). -/
def shareEffort (s : State) : State :=
  let share := fun k => bogieEffort s.traction.effort k s.traction.powerLimit s.traction.brakeLimit
  s.setTraction { s.traction with effortA := share s.adhesion.a.k, effortB := share s.adhesion.b.k }

/-- G2 judged on E (R165). -/
def judgeEffort (s : State) : State :=
  let held := decide (s.traction.effort ≠ 0)
  judgeLock .g2 held (s.setSettings { s.settings with effortHeld := held })

/-- The immediate full braking of BREACH (R41), under the limits of the last pass (R46). -/
def breachBraking (s : State) : State :=
  let braked := shareEffort (s.setTraction { s.traction with effort := -1000 })
  judgeEffort (braked.setTraction (writeLines braked.traction))

/-! ### Halt causes (R61) -/

def Cause.code : Cause → Nat
  | .host => 1 | .demandLost => 2 | .trainline => 3 | .vigilance => 4
  | .junction => 5 | .rollback => 6 | .referenceLost => 7 | .breach => 8

/-- The causes in descending code (R63). -/
def Cause.descending : List Cause :=
  [.breach, .referenceLost, .rollback, .junction, .vigilance, .trainline, .demandLost, .host]

def Causes.has (c : Causes) : Cause → Bool
  | .host => c.host | .demandLost => c.demandLost | .trainline => c.trainline | .vigilance => c.vigilance
  | .junction => c.junction | .rollback => c.rollback | .referenceLost => c.referenceLost | .breach => c.breach

def Causes.put (c : Causes) (x : Cause) (b : Bool) : Causes :=
  match x with
  | .host => { c with host := b } | .demandLost => { c with demandLost := b }
  | .trainline => { c with trainline := b } | .vigilance => { c with vigilance := b }
  | .junction => { c with junction := b } | .rollback => { c with rollback := b }
  | .referenceLost => { c with referenceLost := b } | .breach => { c with breach := b }

/-- Some cause is present. -/
def Causes.any (c : Causes) : Bool := Cause.descending.any c.has

/-- The leading cause: the present cause of highest code (R63). -/
def Causes.leading (c : Causes) : Option Cause := Cause.descending.find? c.has

/-- A cause that counts for the HALT line is present: any but TRAINLINE (R61, R74). -/
def Causes.counts (c : Causes) : Bool := Cause.descending.any fun x => x != .trainline && c.has x

/-- The latch sets, with `first` its first cause (R62, R63); a retained start pulse is cleared (R77). -/
def setLatch (first : Cause) (s : State) : State :=
  let record : LatchRecord := ⟨first, s.now, s.route.distance, s.axle.refSpeed, s.axle.standstill⟩
  let latched := enterHalted (s.setHalt { s.halt with latch := some record, ackRun := none })
  askFor 0 (raise 30 first.code s.axle.refSpeed (latched.setLines { latched.lines with retained := none }))

/-- The causes `cs` become present together, those of them that were not (R62); the HALT drive is not judged here. -/
def joinCauses (cs : List Cause) (s : State) : State :=
  match Cause.descending.filter fun c => cs.contains c && !s.halt.causes.has c with
  | [] => s
  | first :: more =>
    let latched := if s.halt.latch.isNone then setLatch first s else s
    let present := latched.setHalt { latched.halt with
      causes := (first :: more).foldl (fun x c => x.put c true) latched.halt.causes }
    if first = .breach then breachBraking present else present

/-- The causes `cs` stop being present; the HALT drive is not judged here (R61). -/
def dropCauses (cs : List Cause) (s : State) : State :=
  s.setHalt { s.halt with causes := cs.foldl (fun x c => x.put c false) s.halt.causes }

/-- TRAINLINE follows the sensed HALT line (R75). -/
def senseHalt (s : State) : State :=
  if s.pins.haltLine then joinCauses [.trainline] s else dropCauses [.trainline] s

/-- The HALT drive judged afresh (R74): at its beginning a retained pulse is cleared (R77), at its end the line is sensed
at once (R75). -/
def judgeDrive (s : State) : State :=
  let drive := decide (s.cfg Setting.haltOutput = 1) && s.halt.causes.counts
  if drive = s.lines.halting then s
  else if drive then s.setLines { s.lines with halting := true, retained := none }
  else senseHalt (s.setLines { s.lines with halting := false })

/-- Causes become present (R62, R63, R74). -/
def addCauses (cs : List Cause) (s : State) : State := judgeDrive (joinCauses cs s)

/-- Causes stop being present (R61, R74). -/
def removeCauses (cs : List Cause) (s : State) : State := judgeDrive (dropCauses cs s)

/-- The HALT line is released as the unit knows it (R75). -/
def haltLineReleased (s : State) : Bool := !s.lines.halting && !s.pins.haltLine

/-- The latch is released (R67). -/
def releaseLatch (s : State) : State :=
  match s.halt.latch with
  | none => s
  | some r =>
    let cleared := (s.setHalt { s.halt with latch := none, ackRun := none }).setTraction
      { s.traction with state := .inhibited }
    silencePattern 0 (raise 20 r.first.code ((s.now - r.time) / 1000 : Nat) cleared)

/-! ### The start pulse (R23, R77) -/

/-- A start pulse delivered to the traction unit (R23). -/
def deliverStart (s : State) : State :=
  if s.traction.state = .startHeld ∧ haltLineReleased s then s.setTraction { s.traction with state := .running } else s

/-- The pulse is delivered and retained for the start retention time (R77); with 0 nothing is retained. -/
def startPulse (s : State) : State :=
  let s := deliverStart s
  if s.cfgN Setting.startRetention = 0 then s
  else s.setLines { s.lines with retained := some (s.now + s.cfgN Setting.startRetention) }

end Sys2Proof.Machine
end

