-- ==== Sys2Proof/Machine/RouteOps.lean ====
section
/-! DEFINITION. The operations of the route engine (05): entries and their marks, retirement, the effective ceiling, the
sand inhibit, the set length, the route distance. -/

namespace Sys2Proof.Machine

/-! ### Entries and marks (R87) -/

/-- The marks of an entry in mark order, its derived mark last (R87): a stop's pass point from the stop zone after, a
restriction's clear point from the set length. -/
def EntryBody.marks (zoneAfter setLength : Nat) : EntryBody → List Nat
  | .junction j => [j.markA, j.markE, j.markC, j.markX]
  | .signal g => [g.callIn, g.callOff]
  | .stop p => [p.approach, p.stopMark, p.stopMark + zoneAfter + 1]
  | .restriction r => [r.start, r.finish + setLength]

/-- The key mark (R87). -/
def EntryBody.key : EntryBody → Nat
  | .junction j => j.markA
  | .signal g => g.callIn
  | .stop p => p.approach
  | .restriction r => r.start

/-- The last mark for retirement (R100). -/
def EntryBody.last (zoneAfter setLength : Nat) : EntryBody → Nat
  | .junction j => j.markX
  | .signal g => g.callOff
  | .stop p => p.stopMark + zoneAfter
  | .restriction r => r.finish + setLength

/-- The derived mark ROUTE READ reports, 0 for the kinds that have none (11 section 1). -/
def EntryBody.derived (zoneAfter setLength : Nat) : EntryBody → Nat
  | .stop p => p.stopMark + zoneAfter + 1
  | .restriction r => r.finish + setLength
  | _ => 0

/-- The entry is in the first state of its kind (R87). -/
def EntryBody.isFirst : EntryBody → Bool
  | .junction j => j.state == .pending
  | .signal g => g.state == .ahead
  | .stop p => p.state == .ahead
  | .restriction r => r.state == .ahead

/-- The entry is in a final state (R87). -/
def EntryBody.isFinal : EntryBody → Bool
  | .junction j => j.state == .passed || j.state == .cancelled
  | .signal g => g.state == .calledOff
  | .stop p => p.state == .served || p.state == .passed
  | .restriction r => r.state == .done

/-- The entry with a tag, if the table holds one. -/
def findEntry (tag : Nat) (table : List Entry) : Option Entry := table.find? fun e => e.tag == tag

/-- The table with the entry of a tag changed. -/
def mapEntry (tag : Nat) (f : Entry → Entry) (table : List Entry) : List Entry :=
  table.map fun e => if e.tag = tag then f e else e

/-- The entry of a tag changed in the state. -/
def changeEntry (tag : Nat) (f : Entry → Entry) (s : State) : State :=
  s.setRoute { s.route with table := mapEntry tag f s.route.table }

/-- The next uncrossed mark of an entry (R89). -/
def nextMark (s : State) (e : Entry) : Option Nat :=
  (e.body.marks (s.cfgN Setting.zoneAfter) s.route.setLength)[e.crossed]?

/-- The junction entry's fields, for an entry that is a junction. -/
def Entry.junction? (e : Entry) : Option JunctionEntry :=
  match e.body with
  | .junction j => some j
  | _ => none

/-- The junction fields of the entry of a tag. -/
def junctionOf (s : State) (tag : Nat) : Option JunctionEntry := (findEntry tag s.route.table).bind Entry.junction?

/-- An entry's junction fields changed; another kind is left as it is. -/
def Entry.onJunction (f : JunctionEntry → JunctionEntry) (e : Entry) : Entry :=
  match e.body with
  | .junction j => { e with body := .junction (f j) }
  | _ => e

/-- Some junction entry of the table satisfies `p`. -/
def anyJunction (table : List Entry) (p : JunctionEntry → Bool) : Bool :=
  table.any fun e => (e.junction?).any p

/-- The state is ASKING, OVERDUE or REFUSED: the approach ceiling may hold (R101). -/
def JunctionState.approaching (st : JunctionState) : Bool := st == .asking || st == .overdue || st == .refused

/-- The state is ASKING or OVERDUE: the slot asks (06 section 5). -/
def JunctionState.asks (st : JunctionState) : Bool := st == .asking || st == .overdue

/-! ### Ceiling, inhibit, retirement -/

/-- The ceiling of the lowest ACTIVE restriction (R101). -/
def activeCeilings (table : List Entry) : List Int :=
  table.filterMap fun e => match e.body with
    | .restriction r => if r.state = .active then some r.ceiling else none
    | _ => none

/-- The approach ceiling is in force (R101). -/
def approachHolds (s : State) : Bool :=
  anyJunction s.route.table fun j => j.state.approaching && decide (j.markA ≤ s.route.distance)

/-- The reference source is DEGRADED or LOST (R101). -/
def referenceDegraded (s : State) : Bool :=
  match s.axle.source with
  | .degraded _ => true
  | .lost => true
  | _ => false

/-- The terms of the effective ceiling in force, in the order of their codes (R101). -/
def ceilingTerms (s : State) : List (Int × CeilingTerm) :=
  (s.cfg Setting.lineCeiling, .line) :: (activeCeilings s.route.table).map (·, .restriction) ++
  (if approachHolds s then [(s.cfg Setting.approachCeiling, .approach)] else []) ++
  (if referenceDegraded s then [(s.cfg Setting.degradedCeiling, .degraded)] else [])

/-- The smaller of two terms, the first if they are equal. -/
def lowerTerm (a b : Int × CeilingTerm) : Int × CeilingTerm := if b.1 < a.1 then b else a

/-- The effective ceiling formed afresh, with the term that sets it (R101). -/
def formCeiling (s : State) : State :=
  let c := (ceilingTerms s).foldl lowerTerm (s.cfg Setting.lineCeiling, .line)
  s.setRoute { s.route with ceiling := c.1, term := c.2 }

/-- SAND is released at once: a run ends, a rest stands (R57). -/
def releaseSand (s : State) : State :=
  match s.adhesion.sand with
  | .on _ => s.setAdhesion { s.adhesion with sand := .off }
  | _ => s

/-- The route distance lies within [C, X] of a junction entry (R102). -/
def overPoints (s : State) : Bool :=
  anyJunction s.route.table fun j => decide (j.markC ≤ s.route.distance) && decide (s.route.distance ≤ j.markX)

/-- The sand inhibit judged; when it comes on, SAND is released (R102, R57). -/
def judgeInhibit (s : State) : State :=
  let released := if overPoints s then releaseSand s else s
  released.setRoute { released.route with sandInhibit := overPoints s }

/-- The entry leaves the table at retirement (R100). -/
def retires (s : State) (e : Entry) : Bool :=
  e.body.isFinal && decide (e.body.last (s.cfgN Setting.zoneAfter) s.route.setLength +
    s.cfgN Setting.retireDistance ≤ s.route.distance)

/-- Retirement judged (R100). -/
def retire (s : State) : State := s.setRoute { s.route with table := s.route.table.filter fun e => !retires s e }

/-- What follows every sweep: retirement, the effective ceiling, the sand inhibit (R84, R95, R98). -/
def settleRoute (s : State) : State := judgeInhibit (formCeiling (retire s))

/-- What follows an event that may cross a mark or end an entry without a rise of the route distance: it is judged only where
the event changed the table, `table` as it stood before (R95, R100). -/
def settleAfter (table : List Entry) (s : State) : State := if s.route.table = table then s else settleRoute s

/-! ### The set length and restriction clear points (R86, R99) -/

/-- A restriction whose clear point is its next mark and lies at or below the route distance is DONE (R95, R99). -/
def clearRestriction (setLength distance : Nat) (e : Entry) : Entry :=
  match e.body with
  | .restriction r =>
    if e.crossed = 1 ∧ r.finish + setLength ≤ distance then
      { e with crossed := 2, body := .restriction (if r.state = .active then { r with state := .done } else r) }
    else e
  | _ => e

/-- The set length formed afresh; if it changes, the clear points it has moved are crossed at this event (R86, R99). -/
def refreshSetLength (s : State) : State :=
  let n := s.cfgN Setting.tramLength * (if s.lines.coupled then 2 else 1)
  if n = s.route.setLength then s
  else settleAfter s.route.table (s.setRoute { s.route with
    setLength := n
    table := s.route.table.map (clearRestriction n s.route.distance) })

/-! ### The route distance (R84, R85) -/

/-- Distance and residue after adding `travel`, settled and held within the limits. -/
def settleDistance (distance residue : Nat) (travel : Int) : Nat × Nat :=
  let total := (distance : Int) * Config.unitsPerDm + residue + travel
  let d := total / Config.unitsPerDm
  if d < 0 then (0, 0)
  else if (Config.maxDistance : Int) < d then (Config.maxDistance, 0)
  else (d.toNat, (total % Config.unitsPerDm).toNat)

/-! ### Restriction crossings (R99) -/

/-- The crossing of mark `mark` of a restriction: start makes it ACTIVE, the clear point makes an ACTIVE one DONE. -/
def crossRestriction (mark : Nat) (r : RestrictionEntry) : RestrictionEntry :=
  match mark, r.state with
  | 0, .ahead => { r with state := .active }
  | 1, .active => { r with state := .done }
  | _, _ => r

/-! ### The uncrossed mark a sweep takes next (R96) -/

/-- Of two candidates, the one whose mark is lower, the earlier in the table if they are equal. -/
def earlier (best : Option (Nat × Entry)) (e : Entry) (m : Nat) : Option (Nat × Entry) :=
  match best with
  | some (b, x) => if m < b then some (m, e) else some (b, x)
  | none => some (m, e)

/-- The entry whose uncrossed mark at or below the route distance is crossed next, among those `p` admits. -/
def nextCrossing (s : State) (p : Entry → Bool) : Option Entry :=
  (s.route.table.foldl (fun best e =>
    match nextMark s e with
    | some m => if m ≤ s.route.distance ∧ p e then earlier best e m else best
    | none => best) none).map (·.2)

/-! ### The table (R88) -/

/-- The table with `e` after every entry with a key mark at or below its own (R88, R90). -/
def insertEntry (e : Entry) : List Entry → List Entry
  | [] => [e]
  | x :: l => if x.body.key ≤ e.body.key then x :: insertEntry e l else e :: x :: l

end Sys2Proof.Machine
end

