-- ==== Sys2Proof/Machine/JunctionOps.lean ====
section
/-! DEFINITION. The operations of the junction unit (06): slots and requests, the queues, the arbiter and its turns, the
state changes of junction and signal entries. -/

namespace Sys2Proof.Machine

/-! ### Slots -/

def JunctionUnit.slot (u : JunctionUnit) : SlotId → Slot
  | .j0 => u.j0 | .j1 => u.j1 | .j2 => u.j2 | .j3 => u.j3

def JunctionUnit.setSlot (u : JunctionUnit) (i : SlotId) (x : Slot) : JunctionUnit :=
  match i with
  | .j0 => { u with j0 := x } | .j1 => { u with j1 := x } | .j2 => { u with j2 := x } | .j3 => { u with j3 := x }

def allSlots : List SlotId := [.j0, .j1, .j2, .j3]

def requesterOf : SlotId → Requester
  | .j0 => .j0 | .j1 => .j1 | .j2 => .j2 | .j3 => .j3

def Requester.slot? : Requester → Option SlotId
  | .j0 => some .j0 | .j1 => some .j1 | .j2 => some .j2 | .j3 => some .j3 | .cancel => none | .signal => none

/-- The requesters in cycle order (R115). -/
def Requester.all : List Requester := [.j0, .j1, .j2, .j3, .cancel, .signal]

/-- A slot changed in the state. -/
def onSlot (i : SlotId) (f : Slot → Slot) (s : State) : State :=
  s.setJunction (s.junction.setSlot i (f (s.junction.slot i)))

/-- The slot that holds the entry of a tag. -/
def JunctionUnit.slotOf (u : JunctionUnit) (tag : Nat) : Option SlotId :=
  allSlots.find? fun i => (u.slot i).holder == .entry tag

/-- The tag of the entry a slot holds. -/
def Slot.tag? (x : Slot) : Option Nat :=
  match x.holder with
  | .entry t => some t
  | _ => none

/-- The tags of the slot-holding entries, in slot order. -/
def JunctionUnit.heldTags (u : JunctionUnit) : List Nat := allSlots.filterMap fun i => (u.slot i).tag?

/-- The junction fields of the entry a slot holds. -/
def slotJunction (s : State) (i : SlotId) : Option JunctionEntry :=
  (s.junction.slot i).tag?.bind (junctionOf s)

/-- A slot-holding entry, or a POINT CANCEL outstanding, carries the junction ID (R118). -/
def junctionTaken (s : State) (ident : Nat) : Bool :=
  (s.junction.heldTags.any fun t => (junctionOf s t).any fun j => j.junction == ident) ||
  s.junction.cancelQueue.any fun c => c.junction == ident

/-! ### Lock group G3 (R165) -/

/-- Some signal entry is CALLING. -/
def anyCalling (table : List Entry) : Bool :=
  table.any fun e => match e.body with
    | .signal g => g.state == .calling
    | _ => false

/-- The lock condition of G3: a junction entry holds a slot, or a signal entry is CALLING. -/
def routeHeld (s : State) : Bool := !s.junction.heldTags.isEmpty || anyCalling s.route.table

/-- The class of a requester is HIGH (R115). -/
def isHigh (st : SettingsStore) (r : Requester) : Bool := decide (st.value (Setting.classOf r) = 0)

/-- The positions of the cycle: the HIGH requesters in cycle order, then LOW if any requester is LOW (R115). -/
def positions (st : SettingsStore) : List RotationPosition :=
  ((Requester.all.filter (isHigh st)).map .at) ++ (if Requester.all.all (isHigh st) then [] else [.low])

/-- A list taken round from the first place of `x`. -/
def roundFrom {α : Type} [DecidableEq α] (x : α) (l : List α) : List α :=
  l.dropWhile (fun y => decide (y ≠ x)) ++ l.takeWhile fun y => decide (y ≠ x)

/-- All the places a rotation position may have, in cycle order. -/
def allPositions : List RotationPosition := Requester.all.map .at ++ [.low]

/-- The rotation position after a change of class: where it is if that is still a position, else the next position after it
(R131). -/
def keptRotation (st : SettingsStore) (p : RotationPosition) : RotationPosition :=
  ((roundFrom p allPositions).find? fun q => (positions st).contains q).getD p

/-- The route and trackside blocks take up new values of G3 (R104, R131). -/
def takeUpRoute (old : SettingsStore) (s : State) : State :=
  let kept := s.setJunction { s.junction with rotation := keptRotation s.settings s.junction.rotation }
  let turned := if Requester.all.all fun r => old.value (Setting.classOf r) == s.cfg (Setting.classOf r) then s else kept
  if old.value Setting.tramLength = s.cfg Setting.tramLength then turned else refreshSetLength turned

/-- G3 judged (R165). -/
def judgeRoute (s : State) : State := takeUpRoute s.settings (judgeLock .g3 (routeHeld s) s)

/-! ### The arbiter (R115, R116) -/

/-- The requester waits (06 section 3). -/
def waits (s : State) : Requester → Bool
  | .j0 => s.junction.j0.waiting | .j1 => s.junction.j1.waiting
  | .j2 => s.junction.j2.waiting | .j3 => s.junction.j3.waiting
  | .cancel => !s.junction.cancelQueue.isEmpty
  | .signal => !s.junction.signalQueue.isEmpty

def Masks.get (m : Masks) : Requester → Bool
  | .j0 => m.j0 | .j1 => m.j1 | .j2 => m.j2 | .j3 => m.j3 | .cancel => m.cancel | .signal => m.signal

def Masks.put (m : Masks) (r : Requester) (b : Bool) : Masks :=
  match r with
  | .j0 => { m with j0 := b } | .j1 => { m with j1 := b } | .j2 => { m with j2 := b } | .j3 => { m with j3 := b }
  | .cancel => { m with cancel := b } | .signal => { m with signal := b }

/-- The requester waits and is unmasked. -/
def eligible (s : State) (r : Requester) : Bool := waits s r && !s.junction.masks.get r

/-- The slot is urgent (R116). -/
def urgent (s : State) (i : SlotId) : Bool :=
  (slotJunction s i).any fun j =>
    j.state.asks && decide (j.markE ≤ s.route.distance + s.cfgN Setting.urgencyDistance)

/-- The requester from which urgency takes the order: that at the rotation position, or that at the LOW position (R116). -/
def urgencyStart (s : State) : Requester :=
  match s.junction.rotation with
  | .at r => r
  | .low => s.junction.low

/-- The slot granted by urgency, while the urgent run is below the budget (R116). -/
def urgentPick (s : State) : Option SlotId :=
  if s.junction.urgentRun < s.cfgN Setting.urgentBudget then
    ((roundFrom (urgencyStart s) Requester.all).filterMap Requester.slot?).find? fun i =>
      urgent s i && eligible s (requesterOf i)
  else none

/-- The LOW requester granted at the LOW position (R115). -/
def lowPick (s : State) : Option Requester :=
  (roundFrom s.junction.low Requester.all).find? fun r => !isHigh s.settings r && eligible s r

/-- What a rotation search finds at one position (R115). -/
def pickAt (s : State) : RotationPosition → Option Requester
  | .at r => if eligible s r then some r else none
  | .low => lowPick s

/-- The requester granted by rotation and the position it was taken at (R115). -/
def rotationPick (s : State) : Option (RotationPosition × Requester) :=
  ((roundFrom s.junction.rotation allPositions).filter fun p => (positions s.settings).contains p).findSome? fun p =>
    (pickAt s p).map (p, ·)

/-- The element after `x` in a cycle. -/
def nextAfter {α : Type} [DecidableEq α] (x : α) (l : List α) : α := (roundFrom x l).tail.headD x

/-- The rotation and LOW positions after a rotation grant to `r` at `p`; the urgent run is reset (R115, R116). -/
def advance (st : SettingsStore) (p : RotationPosition) (r : Requester) (u : JunctionUnit) : JunctionUnit :=
  { u with
    rotation := nextAfter p (positions st)
    low := if p = .low then nextAfter r (Requester.all.filter fun x => !isHigh st x) else u.low
    urgentRun := 0 }

/-- The telegram a requester sends when granted now, and the entry it is sent for (R109, R111). -/
def telegramOf (s : State) (r : Requester) : Option (Telegram × Option Nat) :=
  let tram := s.cfgN Setting.tramNumber
  match r with
  | .cancel => s.junction.cancelQueue.head?.map fun c => (.pointCancel c.junction tram, none)
  | .signal => s.junction.signalQueue.head?.map fun i =>
      (if i.clear then .priorityClear i.signal tram else .priorityCall i.signal i.level tram, none)
  | r => r.slot?.bind fun i => (slotJunction s i).map fun j =>
      (.pointRequest j.junction j.direction s.lines.coupled tram, (s.junction.slot i).tag?)

/-- The airtime of a telegram in ms (R109). -/
def Telegram.airtime : Telegram → Nat
  | .pointRequest _ _ _ _ => 7
  | _ => 5

/-- The telegram is followed by an answer window (R109). -/
def Telegram.listens : Telegram → Bool
  | .pointRequest _ _ _ _ => true
  | .priorityCall _ _ _ => true
  | _ => false

/-- The bytes on the loop (11 section 5, R183). -/
def Telegram.bytes : Telegram → List Byte
  | .pointRequest j d pair t => pointRequestBytes j d pair t
  | .pointCancel j t => pointCancelBytes j t
  | .priorityCall g l t => priorityCallBytes g l t
  | .priorityClear g t => priorityClearBytes g t

/-- One more telegram sent for a junction entry, up to 65,535 (R111). -/
def countSent (j : JunctionEntry) : JunctionEntry := { j with sent := min 65535 (j.sent + 1) }

/-- A turn begins for `r` (R111): a slot's request is withdrawn and its entry's count rises; the telegram is on the air. -/
def beginTurn (r : Requester) (s : State) : State :=
  match telegramOf s r with
  | none => s
  | some (t, entry) =>
    let withdrawn := match r.slot? with
      | some i => onSlot i (fun x => { x with waiting := false }) s
      | none => s
    let counted := match entry with
      | some tag => changeEntry tag (Entry.onJunction countSent) withdrawn
      | none => withdrawn
    counted.setJunction { counted.junction with
      transmitter := .sending ⟨r, entry, t, s.cfgN Setting.answerWindow, false⟩ (s.now + t.airtime) }

/-- The arbiter may grant: the transmitter is IDLE, the loop NORMAL, the role not TRAIL (R106, R108, R115). -/
def mayGrant (s : State) : Bool :=
  s.junction.transmitter == .idle && s.junction.loop == .normal && s.lines.role != .trail

/-- The arbiter grants one turn, if it may and a requester waits unmasked: by urgency, else by rotation (R115, R116). -/
def tryGrant (s : State) : State :=
  if mayGrant s then
    match urgentPick s with
    | some i => beginTurn (requesterOf i) (s.setJunction { s.junction with urgentRun := s.junction.urgentRun + 1 })
    | none =>
      match rotationPick s with
      | some (p, r) => beginTurn r (s.setJunction (advance s.settings p r s.junction))
      | none => s
  else s

/-- A turn ends: the transmitter is IDLE and the arbiter grants at once (R111). -/
def endTurn (s : State) : State := tryGrant (s.setJunction { s.junction with transmitter := .idle })

/-! ### Slot requests (R112) -/

/-- The slot raises a request (R112). -/
def raiseRequest (i : SlotId) (s : State) : State := tryGrant (onSlot i (fun x => { x with waiting := true }) s)

/-- The slot begins to ask: its repeat timer starts, and it raises a request (R112). -/
def startAsking (i : SlotId) (s : State) : State :=
  raiseRequest i (onSlot i (fun x => { x with timer := some (s.now + s.cfgN Setting.repeatInterval) }) s)

/-- The slot that holds the entry of a tag begins to ask. -/
def startAskingFor (tag : Nat) (s : State) : State :=
  match s.junction.slotOf tag with
  | some i => startAsking i s
  | none => s

/-- The slot stops asking: its request is withdrawn and its timer stopped (R112). -/
def stopAskingFor (tag : Nat) (s : State) : State :=
  match s.junction.slotOf tag with
  | some i => onSlot i (fun x => { x with waiting := false, timer := none }) s
  | none => s

/-- The entry of a tag takes the lowest free slot, if it waits for one and its junction is not taken (R118). -/
def takeSlot (tag : Nat) (s : State) : State :=
  match junctionOf s tag with
  | none => s
  | some j =>
    if (j.state.asks || j.state == .refused || j.state == .breached) && (s.junction.slotOf tag).isNone &&
        !junctionTaken s j.junction then
      match allSlots.find? fun i => (s.junction.slot i).holder == .free with
      | none => s
      | some i =>
        let held := onSlot i (fun _ => ⟨.entry tag, false, none⟩) s
        if j.state.asks then startAsking i held else held
    else s

/-- The entries waiting for a slot are served in table order (R118). -/
def serveWaiting (s : State) : State := (s.route.table.map (·.tag)).foldl (fun s tag => takeSlot tag s) s

/-- A turn under way for the entry of `tag` goes on for no entry: its slot has left the entry, which no later judgement of the
turn concerns (R119), nor one inserted again under its tag. -/
def Turn.forget (tag : Nat) (t : Turn) : Turn := if t.entry = some tag then { t with entry := none } else t

/-- The transmitter's turn, if any, forgets the entry of `tag`. -/
def Transmitter.forget (tag : Nat) : Transmitter → Transmitter
  | .idle => .idle
  | .sending t e => .sending (t.forget tag) e
  | .listening t e => .listening (t.forget tag) e

/-- A slot leaves its entry: it becomes what `holder` says, with no request and no timer, and its turn forgets the entry. -/
def vacate (tag : Nat) (holder : SlotHolder) (s : State) : State :=
  match s.junction.slotOf tag with
  | some i =>
    let left := onSlot i (fun _ => ⟨holder, false, none⟩) s
    left.setJunction { left.junction with transmitter := left.junction.transmitter.forget tag }
  | none => s

/-! ### Consequences of a change of junction state (06, "The halt causes from junction entries"; R158) -/

/-- JUNCTION and BREACH judged over every junction entry of the table (R61). -/
def judgeJunctionCauses (s : State) : State :=
  let breach := anyJunction s.route.table fun j => j.state == .breached
  let junction := anyJunction s.route.table fun j =>
    j.state == .overdue || j.state == .refused || j.state == .breached
  let joined := addCauses ((if breach then [.breach] else []) ++ (if junction then [.junction] else [])) s
  removeCauses ((if breach then [] else [.breach]) ++ (if junction then [] else [.junction])) joined

/-- Some junction entry is OVERDUE. -/
def anyOverdue (table : List Entry) : Bool := anyJunction table fun j => j.state == .overdue

/-- JUNCTION WARNING is silenced at the event after which no junction entry is OVERDUE (R158); `before` is the table before
it. -/
def judgeWarning (before : List Entry) (s : State) : State :=
  if anyOverdue before && !anyOverdue s.route.table then silencePattern 1 s else s

/-- A junction entry enters a state, with the judging of causes and of the warning that goes with every change. -/
def enterJunction (tag : Nat) (st : JunctionState) (s : State) : State :=
  judgeWarning s.route.table
    (judgeJunctionCauses (changeEntry tag (Entry.onJunction fun j => { j with state := st }) s))

/-! ### Junction crossings (R118, R120, R125, R126) -/

/-- The A crossing (R118). -/
def crossA (tag : Nat) (j : JunctionEntry) (s : State) : State :=
  if j.state = .pending then formCeiling (judgeRoute (takeSlot tag (enterJunction tag .asking s))) else s

/-- The E crossing (R120). -/
def crossE (tag : Nat) (j : JunctionEntry) (s : State) : State :=
  if j.state = .asking then raise 26 tag j.junction (askFor 1 (enterJunction tag .overdue s)) else s

/-- The C crossing (R125). -/
def crossC (tag : Nat) (j : JunctionEntry) (s : State) : State :=
  if j.state.approaching then
    formCeiling (raise 31 tag j.junction (enterJunction tag .breached (stopAskingFor tag s)))
  else s

/-- The X crossing (R126): the slot is free at once, and an entry waiting for one may take it. -/
def crossX (tag : Nat) (j : JunctionEntry) (s : State) : State :=
  if j.state = .set ∨ j.state = .breached then
    judgeRoute (serveWaiting (vacate tag .free (enterJunction tag .passed s)))
  else s

/-- The crossing of mark `mark` (0 A, 1 E, 2 C, 3 X) of a junction entry. -/
def crossJunction (tag mark : Nat) (j : JunctionEntry) (s : State) : State :=
  match mark with
  | 0 => crossA tag j s
  | 1 => crossE tag j s
  | 2 => crossC tag j s
  | 3 => crossX tag j s
  | _ => s

/-! ### The signal queue and signal entries (R114, R128, R130) -/

/-- The telegrams of the signal queue that wait: all of them but one being sent (R111, R114). -/
def signalSending (u : JunctionUnit) : Bool :=
  match u.transmitter with
  | .sending t _ => t.holder == .signal
  | _ => false

/-- The part of the queue being sent, and the part that waits. -/
def splitSignals (u : JunctionUnit) : List SignalItem × List SignalItem :=
  if signalSending u then (u.signalQueue.take 1, u.signalQueue.drop 1) else ([], u.signalQueue)

/-- The waiting telegrams with a PRIORITY CLEAR in the place of its entry's first PRIORITY CALL, and no call of the entry left
(R114). -/
def putClear (item : SignalItem) (waiting : List SignalItem) : List SignalItem :=
  let other := fun i : SignalItem => i.tag != item.tag || i.clear
  waiting.takeWhile other ++ item :: (waiting.dropWhile other).filter other

/-- A telegram offered to the signal queue (R114). The entry a waiting telegram belongs to is told by its tag alone (log entry
46). -/
def offerSignal (item : SignalItem) (s : State) : State :=
  let (sent, waiting) := splitSignals s.junction
  let join := fun (q : List SignalItem) => tryGrant (s.setJunction { s.junction with signalQueue := sent ++ q })
  if waiting.any fun i => i.tag == item.tag && i.clear == item.clear then s
  else if item.clear && waiting.any fun i => i.tag == item.tag && !i.clear then
    join (putClear item waiting)
  else if s.junction.signalQueue.length < Config.maxSignals then join (waiting ++ [item])
  else if item.clear then raise 12 item.tag 1 s
  else s

/-- A signal entry's fields changed; another kind is left as it is. -/
def Entry.onSignal (f : SignalEntry → SignalEntry) (e : Entry) : Entry :=
  match e.body with
  | .signal g => { e with body := .signal (f g) }
  | _ => e

/-- The call-in crossing (R128). -/
def crossCallIn (tag : Nat) (g : SignalEntry) (s : State) : State :=
  if g.state = .ahead then
    let calling := changeEntry tag (Entry.onSignal fun g =>
      { g with state := .calling, timer := some (s.now + s.cfgN Setting.repeatInterval) }) s
    judgeRoute (offerSignal ⟨tag, false, g.signal, g.level⟩ calling)
  else s

/-- The call-off crossing (R130). The event of a CALLING entry (value 0) comes before the CLEAR is offered, so before the event of
a dropped CLEAR (value 1), which leaves one record, repeated, of value 1 (log entry 45). The offer comes before G3 is judged
(log entry 51). -/
def crossCallOff (tag : Nat) (g : SignalEntry) (s : State) : State :=
  if g.state = .calling ∨ g.state = .acknowledged then
    let off := changeEntry tag (Entry.onSignal fun g => { g with state := .calledOff, timer := none }) s
    let noted := if g.state = .calling then raise 12 tag 0 off else off
    judgeRoute (offerSignal ⟨tag, true, g.signal, g.level⟩ noted)
  else s

/-- The crossing of mark `mark` (0 call-in, 1 call-off) of a signal entry. -/
def crossSignal (tag mark : Nat) (g : SignalEntry) (s : State) : State :=
  match mark with
  | 0 => crossCallIn tag g s
  | 1 => crossCallOff tag g s
  | _ => s

/-! ### The table emptied (R83, R105, R132) -/

/-- A slot whose entry is removed without a cancel: free at once; a cancel outstanding keeps its slot (R113). -/
def Slot.dropEntry (x : Slot) : Slot :=
  match x.holder with
  | .entry _ => .empty
  | _ => x

/-- A turn under way goes on for no entry. -/
def Transmitter.orphan : Transmitter → Transmitter
  | .idle => .idle
  | .sending t e => .sending { t with entry := none } e
  | .listening t e => .listening { t with entry := none } e

/-- Every entry leaves the table and every slot that held one is free (R83); what follows from it is judged apart. -/
def emptyTable (s : State) : State :=
  let u := s.junction
  (s.setRoute { s.route with table := [] }).setJunction { u with
    j0 := u.j0.dropEntry
    j1 := u.j1.dropEntry
    j2 := u.j2.dropEntry
    j3 := u.j3.dropEntry
    transmitter := u.transmitter.orphan }

/-- What follows the emptying of the table: the causes, the warning, G3, the ceiling and the inhibit (R61, R83, R158,
R165). -/
def afterEmptying (before : List Entry) (s : State) : State :=
  judgeInhibit (formCeiling (judgeRoute (judgeWarning before (judgeJunctionCauses s))))

end Sys2Proof.Machine
end

