-- ==== Sys2Proof/Machine/StopOps.lean ====
section
/-! DEFINITION. The operations of the stop-request unit (07): the scan of the buttons, the stop-request latch, stop entries. -/

namespace Sys2Proof.Machine

/-! ### Button channels (07 sections 1 to 3) -/

/-- The kind a setting value codes (09, index of settings). -/
def ButtonKind.ofCode (v : Int) : ButtonKind := if v = 0 then .sensed else if v = 1 then .contact else .unused

/-- The kind of a channel. -/
def kindOf (st : SettingsStore) (i : Nat) : ButtonKind := .ofCode (st.value (Setting.buttonKind i))

/-- A button with all its counters at 0, no press, in `state` (R133, R138, R140). -/
def Button.cleared (b : Button) (state : ButtonState) : Button :=
  { b with
    state := state, confirm := 0, acquisition := 0, drift := 0, rise := 0, recovery := 0, pressSince := none }

/-- The channel is PRESSED or RELEASING: its press time runs (R140). -/
def Button.isPressed (b : Button) : Bool := b.state == .pressed || b.state == .releasing

/-- The channel keeps the unit HOT (R134). -/
def Button.isActive (b : Button) : Bool := b.state == .pressing || b.isPressed

/-- What judging one channel in a scan reports: BUTTON FAULT, a confirmed press, BUTTON STUCK. -/
structure Judged where
  button : Button
  faulted : Bool
  confirmed : Bool
  stuck : Bool
  deriving DecidableEq, Repr

/-- A channel is acquired on `reading`; the acquisition count has already fallen by one (R135). The delta is the one on the new
baseline, 0 (log entry 54). -/
def Button.acquired (b : Button) (kind : ButtonKind) (reading : Nat) : Button :=
  let clear := b.cleared .released
  match kind with
  | .sensed => { clear with reading := reading, baseline := reading, delta := 0, acquisition := 3 }
  | _ => { clear with reading := reading, baseline := 0, delta := 0, acquisition := 3 }

/-- The press judgement of R136 on a scan that reads as a press (`down`) or, for the release, as still held (`held`);
R139 gives both the meaning "closed" for a CONTACT channel. Answers the new button and whether the press is confirmed. -/
def Button.judgePress (b : Button) (down held : Bool) (confirmScans releaseScans now : Nat) : Button × Bool :=
  let press := fun (count : Nat) =>
    if confirmScans ≤ count then ({ b with state := .pressed, confirm := count, pressSince := some now }, true)
    else ({ b with state := .pressing, confirm := count }, false)
  let lift := fun (count : Nat) =>
    if releaseScans ≤ count then ({ b with state := .released, confirm := count, pressSince := none }, false)
    else ({ b with state := .releasing, confirm := count }, false)
  match b.state with
  | .released => if down then press 1 else ({ b with confirm := 0 }, false)
  | .pressing => if down then press (b.confirm + 1) else ({ b with state := .released, confirm := 0 }, false)
  | .pressed => if held then ({ b with confirm := 0 }, false) else lift 1
  | .releasing => if held then ({ b with state := .pressed, confirm := 0 }, false) else lift (b.confirm + 1)
  | _ => (b, false)

/-- Drift and rise of a SENSED channel (R137), judged on the state the scan found (log entry 23). -/
def Button.follow (b : Button) (found : ButtonState) (threshold : Int) : Button :=
  let half := threshold.tdiv 2
  let drifts := decide (found = .released) && decide ((b.delta.natAbs : Int) < half)
  let rises := decide (found = .released) && decide (b.delta ≤ -half)
  let drifted :=
    if drifts then
      if b.drift + 1 = 8 then
        { b with
          drift := 0
          baseline := if b.reading < b.baseline then b.baseline - 1 else if b.baseline < b.reading then b.baseline + 1
            else b.baseline }
      else { b with drift := b.drift + 1 }
    else { b with drift := 0 }
  if rises then
    if b.rise + 1 = 8 then { drifted with rise := 0, baseline := b.reading }
    else { drifted with rise := b.rise + 1 }
  else { drifted with rise := 0 }

/-- The press time has reached the stuck time (R140). -/
def Button.overheld (b : Button) (stuckMs now : Nat) : Bool :=
  b.isPressed && (b.pressSince.any fun t => decide (t + stuckMs ≤ now))

/-- The press of a stuck channel is dropped (R140): a SENSED channel takes the reading as its baseline, a CONTACT channel
enters STUCK, with its confirm count and the other counters at 0 (log entry 47). -/
def Button.dropStuck (b : Button) (kind : ButtonKind) : Button :=
  match kind with
  | .sensed => { b.cleared .released with baseline := b.reading, delta := 0 }
  | _ => b.cleared .stuck

/-- A reading at a rail of the converter (R138). -/
def atRail (reading : Nat) : Bool := reading == 0 || reading == 4095

/-- A SENSED channel already acquired, not in FAULT and not at a rail, judged on its reading (R135 to R137, R140). -/
def judgeSensed (st : SettingsStore) (now : Nat) (b : Button) (reading : Nat) : Judged :=
  let threshold := st.value Setting.pressThreshold
  let delta := (b.baseline : Int) - reading
  let read := { b with reading := reading, delta := delta }
  if 0 < b.acquisition then ⟨({ read with acquisition := b.acquisition - 1 }).follow b.state threshold, false, false, false⟩
  else
    let (pressed, confirmed) := read.judgePress (threshold ≤ delta) ((threshold * 5).tdiv 8 ≤ delta)
      (st.nat Setting.confirmScans) (st.nat Setting.releaseScans) now
    let followed := pressed.follow b.state threshold
    if followed.overheld (st.nat Setting.stuckTime * 1000) now then ⟨followed.dropStuck .sensed, false, confirmed, true⟩
    else ⟨followed, false, confirmed, false⟩

/-- A CONTACT channel already acquired, judged on its reading (R139, R140). -/
def judgeContact (st : SettingsStore) (now : Nat) (b : Button) (reading : Nat) : Judged :=
  let closed := decide (reading < 2048)
  let read := { b with reading := reading, baseline := 0, delta := 0 }
  if 0 < b.acquisition then ⟨{ read with acquisition := b.acquisition - 1 }, false, false, false⟩
  else if b.state = .stuck then
    if closed then ⟨{ read with confirm := 0 }, false, false, false⟩
    else if st.nat Setting.releaseScans ≤ b.confirm + 1 then ⟨read.cleared .released, false, false, false⟩
    else ⟨{ read with confirm := b.confirm + 1 }, false, false, false⟩
  else
    let (pressed, confirmed) := read.judgePress closed closed (st.nat Setting.confirmScans)
      (st.nat Setting.releaseScans) now
    if pressed.overheld (st.nat Setting.stuckTime * 1000) now then ⟨pressed.dropStuck .contact, false, confirmed, true⟩
    else ⟨pressed, false, confirmed, false⟩

/-- A SENSED channel enters FAULT (R138). -/
def Button.faulted (b : Button) (reading : Nat) : Judged :=
  ⟨{ b.cleared .fault with reading := reading, delta := (b.baseline : Int) - reading }, true, false, false⟩

/-- One channel of kind `kind` (SENSED or CONTACT) converted and judged in a scan (R133, R135, R138). Its kind has changed if it
is not the kind of the previous scan (log entry 49). A rail comes before everything else, the stuck time too (log entry 56). -/
def judgeButton (st : SettingsStore) (now : Nat) (kind : ButtonKind) (b : Button) (reading : Nat) : Judged :=
  if b.scannedAs ≠ some kind then
    let fresh := b.acquired kind reading
    if kind = .sensed ∧ atRail reading then fresh.faulted reading else ⟨fresh, false, false, false⟩
  else
    match kind with
    | .contact => judgeContact st now b reading
    | _ =>
      if b.state = .fault then
        if atRail reading then
          ⟨{ b with reading := reading, delta := (b.baseline : Int) - reading, recovery := 0 }, false, false, false⟩
        else if b.recovery + 1 = 8 then ⟨b.acquired .sensed reading, false, false, false⟩
        else
          ⟨{ b with reading := reading, delta := (b.baseline : Int) - reading, recovery := b.recovery + 1 },
            false, false, false⟩
      else if atRail reading then b.faulted reading
      else judgeSensed st now b reading

/-- The channels a scan visits, in order (R133). -/
def scanOrder (first last : Nat) : List Nat :=
  if first ≤ last then (List.range 24).filter fun i => decide (first ≤ i) && decide (i ≤ last)
  else (List.range 24).filter (fun i => decide (first ≤ i)) ++ (List.range 24).filter fun i => decide (i ≤ last)

/-- A channel the scan does not visit (R133): at the first such scan it is RELEASED with its counters at 0. -/
def Button.passedOver (b : Button) : Button :=
  if b.scannedAs.isSome then { b.cleared .released with scannedAs := none } else b

/-! ### Stop entries (R148, R149) -/

/-- A stop entry's fields changed; another kind is left as it is. -/
def Entry.onStop (f : StopEntry → StopEntry) (e : Entry) : Entry :=
  match e.body with
  | .stop p => { e with body := .stop (f p) }
  | _ => e

/-- A stop entry enters a state. -/
def enterStop (tag : Nat) (st : StopState) (s : State) : State :=
  changeEntry tag (Entry.onStop fun p => { p with state := st }) s

/-- The approach crossing (R148). -/
def crossApproach (tag : Nat) (p : StopEntry) (s : State) : State :=
  if p.state = .ahead then
    if p.requestOnly && s.stop.latch.isNone then enterStop tag .approaching s
    else askFor 3 (enterStop tag .announced s)
  else s

/-- The pass point crossing (R149). -/
def crossPass (tag : Nat) (p : StopEntry) (s : State) : State :=
  if p.state = .approaching ∨ p.state = .announced then
    let passed := enterStop tag .passed s
    if s.stop.latch.isSome then raise 16 tag p.stop passed else passed
  else s

/-- The crossing of mark `mark` (0 approach, 1 stop mark, 2 pass point) of a stop entry. -/
def crossStop (tag mark : Nat) (p : StopEntry) (s : State) : State :=
  match mark with
  | 0 => crossApproach tag p s
  | 2 => crossPass tag p s
  | _ => s

/-- One more mark of an entry crossed (R89). -/
def bumpCrossed (tag : Nat) (s : State) : State := changeEntry tag (fun e => { e with crossed := e.crossed + 1 }) s

/-- An entry whose next mark is a stop's pass point. -/
def Entry.awaitsPass (e : Entry) : Bool :=
  match e.body with
  | .stop _ => e.crossed == 2
  | _ => false

/-- The pass points at or below the route distance crossed, up to `fuel` of them, in the order of R96 (R149). -/
def sweepPassPoints : Nat → State → State
  | 0, s => s
  | fuel + 1, s =>
    match nextCrossing s Entry.awaitsPass with
    | some ⟨tag, _, .stop p⟩ => sweepPassPoints fuel (crossPass tag p (bumpCrossed tag s))
    | _ => s

/-- The blocks take up new values of G4 (R150): a change of the stop zone after moves the pass points, and those at or below
the route distance are crossed at this event (R149). -/
def takeUpStops (old : SettingsStore) (s : State) : State :=
  if old.value Setting.zoneAfter = s.cfg Setting.zoneAfter then s
  else settleAfter s.route.table (sweepPassPoints s.route.table.length s)

/-- G4 judged: locked while the latch is set (R165). -/
def judgeStops (s : State) : State := takeUpStops s.settings (judgeLock .g4 s.stop.latch.isSome s)

/-- The route distance lies within a stop's service window (07 section 7). -/
def inWindow (s : State) (p : StopEntry) : Bool :=
  decide (p.stopMark ≤ s.route.distance + s.cfgN Setting.zoneBefore) &&
  decide (s.route.distance ≤ p.stopMark + s.cfgN Setting.zoneAfter)

/-- One entry judged for service, DOOR_RELEASE asserted and the standstill flag set (R149). -/
def serveEntry (s : State) (e : Entry) : State :=
  match e.body with
  | .stop p =>
    if (p.state = .approaching ∨ p.state = .announced) ∧ 1 ≤ e.crossed ∧ inWindow s p then
      raise 5 e.tag p.stop (enterStop e.tag .served s)
    else s
  | _ => s

/-- Stop service judged (R149): every entry that qualifies is SERVED, and where there is one the route engine judges
retirement. -/
def serveStops (s : State) : State :=
  if s.pins.doorRelease && s.axle.standstill then
    settleAfter s.route.table (s.route.table.foldl serveEntry s)
  else s

/-! ### The stop-request latch (R141 to R144) -/

def StopSource.code : StopSource → Nat
  | .button i => i | .host => 24 | .trainline => 25

/-- An APPROACHING entry whose stop mark has not been crossed enters ANNOUNCED (R142, R148). -/
def announceEntry (s : State) (e : Entry) : State :=
  match e.body with
  | .stop p => if p.state = .approaching ∧ e.crossed < 2 then askFor 3 (enterStop e.tag .announced s) else s
  | _ => s

/-- The latch is set by a trigger (R142). -/
def setStopLatch (source : StopSource) (accessible : Bool) (s : State) : State :=
  let latched := s.setStop { s.stop with latch := some ⟨source, accessible, 1, s.route.distance⟩ }
  let asked := askFor (if accessible then 5 else 2) latched
  let raised := raise 15 source.code (if accessible then 1 else 0) asked
  judgeStops (raised.route.table.foldl announceEntry raised)

/-- A trigger on a set latch: a press while latched (R143). -/
def pressWhileLatched (r : StopRecord) (accessible : Bool) (s : State) : State :=
  let counted := s.setStop { s.stop with
    latch := some { r with presses := min 255 (r.presses + 1), accessible := r.accessible || accessible } }
  if accessible && !r.accessible then askFor 5 counted else counted

/-- A trigger reaches the latch (R141): ignored while DOOR_RELEASE is asserted. -/
def trigger (source : StopSource) (accessible : Bool) (s : State) : State :=
  if s.pins.doorRelease then s
  else
    match s.stop.latch with
    | none => setStopLatch source accessible s
    | some r => pressWhileLatched r accessible s

/-- The latch is cleared (R144): the drive of STOPREQ ends, and the line is sensed at once without an edge (R145). -/
def clearStopLatch (s : State) : State :=
  if s.stop.latch.isSome then judgeStops (s.setStop { s.stop with latch := none, sensed := s.pins.stopreqLine }) else s

/-! ### The scan (R133, R134) -/

/-- One channel of the scan range visited at time `now` under the settings at the scan's start. -/
def visitChannel (st : SettingsStore) (readings : List Nat) (s : State) (i : Nat) : State :=
  match kindOf st i, s.stop.buttons[i]? with
  | .unused, _ => s
  | _, none => s
  | kind, some b =>
    let reading := readings.getD i 0
    let j := judgeButton st s.now kind b reading
    let put := s.setStop { s.stop with buttons := s.stop.buttons.set i { j.button with scannedAs := some kind } }
    let faulted := if j.faulted then raise 13 i reading put else put
    let pressed := if j.confirmed then trigger (.button i) (decide (s.cfg (Setting.accessible i) = 1)) faulted else faulted
    if j.stuck then raise 14 i reading pressed else pressed

/-- The channels the scan does not visit are passed over (R133). -/
def passOver (st : SettingsStore) (visited : List Nat) (s : State) : State :=
  s.setStop { s.stop with
    buttons := s.stop.buttons.mapIdx fun i b =>
      if visited.contains i && kindOf st i != .unused then b else b.passedOver }

/-- The scan mode and the next scan expiry judged at the end of a scan (R134). -/
def judgeScanMode (st : SettingsStore) (s : State) : State :=
  let u := s.stop
  if u.buttons.any Button.isActive then
    s.setStop { u with hot := true, lastActive := some s.now, scanDue := s.now + 10, lastScan := s.now }
  else if u.hot && !(u.lastActive.any fun t => decide (t + 2000 ≤ s.now)) then
    s.setStop { u with scanDue := s.now + 10, lastScan := s.now }
  else s.setStop { u with hot := false, scanDue := s.now + st.nat Setting.coldInterval, lastScan := s.now }

/-- One scan at the present time (R133, R134). -/
def scanButtons (readings : List Nat) (s : State) : State :=
  let st := s.settings
  let visited := scanOrder (st.nat Setting.scanFirst) (st.nat Setting.scanLast)
  judgeScanMode s.settings (visited.foldl (visitChannel st readings) (passOver st visited s))

end Sys2Proof.Machine
end

