-- ==== Sys2Proof/Machine/SweepOps.lean ====
section
/-! DEFINITION. The crossing of marks (05 section 5), the advance of the route distance at a speed sample (R84) and the
position fix (R97, R98). -/

namespace Sys2Proof.Machine

/-- A restriction entry's fields changed; another kind is left as it is. -/
def Entry.onRestriction (f : RestrictionEntry → RestrictionEntry) (e : Entry) : Entry :=
  match e.body with
  | .restriction r => { e with body := .restriction (f r) }
  | _ => e

/-- The next mark of `e` crossed and handed to the block that owns its kind (R94, R95). -/
def crossMark (e : Entry) (s : State) : State :=
  let counted := bumpCrossed e.tag s
  match e.body with
  | .junction j => crossJunction e.tag e.crossed j counted
  | .signal g => crossSignal e.tag e.crossed g counted
  | .stop p => crossStop e.tag e.crossed p counted
  | .restriction _ => changeEntry e.tag (Entry.onRestriction (crossRestriction e.crossed)) counted

/-- A sweep of at most `fuel` marks: the uncrossed marks at or below the route distance in the order of R96. -/
def sweepMarks : Nat → State → State
  | 0, s => s
  | fuel + 1, s =>
    match nextCrossing s (fun _ => true) with
    | some e => sweepMarks fuel (crossMark e s)
    | none => s

/-- A sweep to its end (R96): an entry has at most four marks. -/
def sweep (s : State) : State := sweepMarks (4 * s.route.table.length) s

/-- The clear points of restrictions judged (R84, R98, R99). -/
def judgeClearPoints (s : State) : State :=
  s.setRoute { s.route with table := s.route.table.map (clearRestriction s.route.setLength s.route.distance) }

/-- What ends a speed sample and a fix at the route engine: clear points, retirement, ceiling, inhibit (R84, R98). -/
def endRoute (s : State) : State := settleRoute (judgeClearPoints s)

/-- The route distance set, with the sweep that a rise brings (R95). -/
def moveTo (distance residue : Nat) (s : State) : State :=
  let moved := s.setRoute { s.route with distance := distance, residue := residue }
  if s.route.distance < distance then sweep moved else moved

/-- The route engine takes the reference travel of a speed sample (R84): nothing moves on an inactive route or on travel
marked lost. Values of G3 applied within the sweep are used by this sample's own retirement and ceiling (log entry 52). -/
def routeSample (s : State) : State :=
  let moved :=
    if s.route.active ∧ s.axle.source ≠ .lost then
      let d := settleDistance s.route.distance s.route.residue s.axle.refTravel
      moveTo d.1 d.2 s
    else s
  endRoute moved

/-- The position fix judged for the entry of a tag that has just become SET (R97, R98). -/
def positionFix (tag : Nat) (s : State) : State :=
  match (junctionOf s tag).bind fun j => j.fix with
  | none => s
  | some f =>
    let off : Int := (s.route.distance : Int) - f
    if off.natAbs ≤ s.cfgN Setting.fixTolerance then endRoute (moveTo f 0 s) else raise 17 tag off s

end Sys2Proof.Machine
end

