-- ==== Sys2Proof/Machine/RoleOps.lean ====
section
/-! DEFINITION. The vigilance monitor (04 section 2) and the unit's role (04 section 3) with what a change of role does to
every block. -/

namespace Sys2Proof.Machine

/-! ### The vigilance monitor -/

/-- The monitor is active (R68). -/
def vigilActive (s : State) : Bool := s.lines.role == .lead && !s.axle.standstill

/-- The monitor in a state with its timer. -/
def vigilTo (st : VigilState) (timer : Option Nat) (s : State) : State := s.setVigilance ⟨st, timer⟩

/-- The monitor enters HELD, the hold-limit timer started afresh (R69). -/
def enterHeld (s : State) : State := vigilTo .held (some (s.now + s.cfgN Setting.holdLimit * 1000)) s

/-- The monitor enters RELEASED, the grace timer started (R69). -/
def enterReleased (s : State) : State := vigilTo .released (some (s.now + s.cfgN Setting.vigilanceGrace * 1000)) s

/-- The monitor enters WARN_RELEASED (R70). -/
def enterWarnReleased (s : State) : State :=
  raise 22 0 s.axle.refSpeed (askFor 4 (vigilTo .warnReleased (some (s.now + s.cfgN Setting.warnToHalt * 1000)) s))

/-- The monitor enters WARN_HELD, the repress window of 5 s started (R70). -/
def enterWarnHeld (s : State) : State :=
  raise 22 1 s.axle.refSpeed (askFor 4 (vigilTo .warnHeld (some (s.now + 5000)) s))

/-- The monitor enters TRIPPED: VIGILANCE becomes present (R71). -/
def enterTripped (s : State) : State := addCauses [.vigilance] (vigilTo .tripped none s)

/-- The monitor judged active or inactive at a change of the role or of the standstill flag (R68). -/
def judgeVigilance (s : State) : State :=
  if vigilActive s then
    if s.vigilance.state = .off then (if s.pins.vigil then enterHeld s else enterReleased s) else s
  else
    match s.vigilance.state with
    | .off => s
    | .held => vigilTo .off none s
    | .released => vigilTo .off none s
    | .warnReleased => silencePattern 4 (vigilTo .off none s)
    | .warnHeld => silencePattern 4 (vigilTo .off none s)
    | .tripped =>
      if s.lines.role = .lead then s else silencePattern 4 (removeCauses [.vigilance] (vigilTo .off none s))

/-- A press of VIGIL as the monitor takes it (R69, R70, R71); the pin's level is already the new one. -/
def vigilPressed (s : State) : State :=
  match s.vigilance.state with
  | .off => s
  | .held => s
  | .released => enterHeld s
  | .warnReleased => enterHeld (silencePattern 4 s)
  | .warnHeld => enterHeld (silencePattern 4 s)
  | .tripped =>
    let cleared := silencePattern 4 (removeCauses [.vigilance] s)
    if vigilActive cleared then enterHeld cleared else vigilTo .off none cleared

/-- A release of VIGIL as the monitor takes it (R69): only HELD acts on it. -/
def vigilLifted (s : State) : State := if s.vigilance.state = .held then enterReleased s else s

/-! ### The role (R72, R73, R108, R161) -/

/-- The unit stops driving DEMAND, TL_FWD and TL_REV (R72, R73). -/
def withdrawLines (s : State) : State :=
  s.setLines { s.lines with demandDrive := none, tlFwdDrive := false, tlRevDrive := false }

/-- The unit leaves the LEAD role (R72, R161): its lines, its driver's controls, its handle's EMERGENCY. -/
def leaveLead (s : State) : State :=
  releaseControls ((withdrawLines s).setTraction { s.traction with inEmergency := false })

/-- The unit leaves the TRAIL role (R72, R108): the demand-loss run, DEMAND LOST, and a grant at once. -/
def leaveTrail (s : State) : State :=
  tryGrant (removeCauses [.demandLost] (s.setTraction { s.traction with demandLoss := none }))

/-- The unit becomes TRAIL (R108): a turn in SENDING will end without a window, a turn in LISTENING ends at once. -/
def enterTrail (s : State) : State :=
  match s.junction.transmitter with
  | .idle => s
  | .sending t e => s.setJunction { s.junction with transmitter := .sending { t with window := 0 } e }
  | .listening _ _ => s.setJunction { s.junction with transmitter := .idle }

/-- A change of the role or of the coupled flag, reported to every block at its event (R72, R73). The conflict run is kept by a
unit that leaves LEAD at a sampling (log entry 42). -/
def changeRole (role : Role) (coupled : Bool) (s : State) : State :=
  let old := s.lines.role
  let leftLead := if old = .lead ∧ role ≠ .lead then leaveLead s else s
  let taken := (leftLead.setLines { leftLead.lines with role := role, coupled := coupled }).setHalt
    { leftLead.halt with ackRun := none }
  let leftTrail := if old = .trail ∧ role ≠ .trail then leaveTrail taken else taken
  let entered := if role = .trail ∧ old ≠ .trail then enterTrail leftTrail else leftTrail
  judgeVigilance (refreshSetLength (enterInhibited entered))

/-- The role a sampling decides (R72). -/
def roleFrom (present : Role) (activeCab coupling : Bool) : Role :=
  match activeCab, coupling with
  | true, true => if present = .conflict then .conflict else .lead
  | true, false => .lead
  | false, true => .trail
  | false, false => .noCab

/-- The role and the coupled flag sampled from the inputs (R72). -/
def sampleRole (s : State) : State :=
  let role := roleFrom s.lines.role s.pins.activeCab s.pins.coupling
  if role = s.lines.role ∧ s.pins.coupling = s.lines.coupled then s else changeRole role s.pins.coupling s

end Sys2Proof.Machine
end

