-- ==== Sys2Proof/Machine/AxleOps.lean ====
section
/-! DEFINITION. The operations of the axle unit (01): the decoders, the speed sample, the reference, standstill. -/

namespace Sys2Proof.Machine

/-! ### Channels -/

def AxleUnit.channel (u : AxleUnit) : AxleId → AxleChannel
  | .ax0 => u.ax0 | .ax1 => u.ax1 | .ax2 => u.ax2 | .ax3 => u.ax3

def AxleUnit.setChannel (u : AxleUnit) (i : AxleId) (c : AxleChannel) : AxleUnit :=
  match i with
  | .ax0 => { u with ax0 := c } | .ax1 => { u with ax1 := c } | .ax2 => { u with ax2 := c } | .ax3 => { u with ax3 := c }

/-- A channel changed in the state. -/
def onChannel (i : AxleId) (f : AxleChannel → AxleChannel) (s : State) : State :=
  s.setAxle (s.axle.setChannel i (f (s.axle.channel i)))

/-- The number of a channel. -/
def axleNumber : AxleId → Nat
  | .ax0 => 0 | .ax1 => 1 | .ax2 => 2 | .ax3 => 3

/-- The channel the host names (R15, R16); none outside 0..3. -/
def axleOf : Nat → Option AxleId
  | 0 => some .ax0 | 1 => some .ax1 | 2 => some .ax2 | 3 => some .ax3 | _ => none

/-- The channel of a reference axle. -/
def refChannel : RefAxle → AxleId
  | .ax2 => .ax2 | .ax3 => .ax3

/-- The other reference axle. -/
def otherRef : RefAxle → RefAxle
  | .ax2 => .ax3 | .ax3 => .ax2

/-- The ten zeros of an empty ring (R5). -/
def emptyRing : List Int := [0, 0, 0, 0, 0, 0, 0, 0, 0, 0]

/-! ### Decoding (R1, R2, R3) -/

/-- The decode mode a setting value codes. -/
def DecodeMode.ofCode (v : Int) : DecodeMode :=
  if v = 0 then .phase1x else if v = 1 then .phase2x else if v = 2 then .phase4x else .pulseDir

/-- The effective decode mode of a channel; the channel takes it up at its next speed sample (R17). -/
def modeOf (st : SettingsStore) (i : AxleId) : DecodeMode := .ofCode (st.value (Setting.decodeMode i))

/-- What an edge from levels `a`, `b` to `a'`, `b'` adds to the count (R1, R2); a phase error adds nothing (R3). -/
def countStep (mode : DecodeMode) (a b a' b' : Bool) : BitVec 32 :=
  let sign := fun (up : Bool) => if up then (1 : BitVec 32) else -1
  match mode with
  | .pulseDir => if !a && a' then sign b' else 0
  | .phase4x => if a != a' && b != b' then 0 else if a != a' then sign (a' != b) else if b != b' then sign (b' == a) else 0
  | .phase2x => if a != a' && b == b' then sign (a' != b) else 0
  | .phase1x => if !a && a' && b == b' then sign (!b) else 0

/-- The edge is a phase error (R3): both phases change together in a PHASE mode. -/
def phaseError (mode : DecodeMode) (a b a' b' : Bool) : Bool := mode != .pulseDir && a != a' && b != b'

/-- The window after one more phase error at time `now` (R3). -/
def openWindow (now : Nat) : Option PhaseWindow → PhaseWindow
  | none => ⟨1, now + 1000⟩
  | some w => { w with count := w.count + 1 }

/-- A phase error on a channel: the tally, the window, and AXLE FAILED beyond the limit (R3). -/
def takePhaseError (i : AxleId) (s : State) : State :=
  let c := s.axle.channel i
  let w := openWindow s.now c.window
  let tally := min 255 (c.tally + 1)
  let noted := onChannel i (fun c => { c with tally := tally, window := some w }) s
  if s.cfgN Setting.phaseErrorLimit < w.count ∧ c.state ≠ .failed then
    raise 24 (axleNumber i) tally (onChannel i (fun c => { c with state := .failed }) noted)
  else noted

/-- An encoder edge (R1, R2, R3) under the mode in use: the count, the decoder's levels, the phase error. -/
def takeEdge (i : AxleId) (phaseA phaseB : Bool) (s : State) : State :=
  let c := s.axle.channel i
  let stepped := onChannel i (fun c => { c with
    count := c.count + countStep c.mode c.phaseA c.phaseB phaseA phaseB
    phaseA := phaseA
    phaseB := phaseB }) s
  if phaseError c.mode c.phaseA c.phaseB phaseA phaseB then takePhaseError i stepped else stepped

/-! ### The speed sample (R4, R5) -/

/-- A wheel-sense figure under the travel sense (R4). -/
def Sense.apply : Sense → Int → Int
  | .forward, x => x
  | .reverse, x => -x

/-- The sum of a ring. -/
def ringSum (ring : List Int) : Int := ring.foldl (· + ·) 0

/-- The speed of a ring in mm/s under a travel per count and a sense (R5). -/
def ringSpeed (sense : Sense) (travel : Int) (ring : List Int) : Int :=
  sense.apply (clampInt (-30000) 30000 ((ringSum ring * travel * 10).tdiv 256))

/-- A channel takes up its effective decode mode at the start of a speed sample, before its delta is pushed: a change empties
the ring and closes the window (R17, log entry 39). Its levels are the phases' present ones already. -/
def AxleChannel.takeMode (mode : DecodeMode) (c : AxleChannel) : AxleChannel :=
  if mode = c.mode then c else { c with mode := mode, ring := emptyRing, window := none }

/-- A channel's part of a speed sample (R5): delta, ring, speed; the state is noted for the adhesion section (R48), and the
sample's figures for AXLE READ (R15). -/
def sampleChannel (sense : Sense) (travel : Int) (c : AxleChannel) : AxleChannel :=
  let ring := c.ring.tail ++ [(c.count - c.prevCount).toInt]
  { c with
    prevCount := c.count
    ring := ring
    speed := ringSpeed sense travel ring
    sampled := c.state
    shown := ⟨c.state, travel, ring, c.tally, (c.window.map (·.count)).getD 0⟩ }

/-- A sample puts a channel into a state (R8, R9), and AXLE READ shows it there (R15). -/
def AxleChannel.judged (st : ChannelState) (c : AxleChannel) : AxleChannel :=
  { c with state := st, shown := { c.shown with state := st } }

/-- Every channel's part of a speed sample, its decode mode taken up first (R17). -/
def sampleChannels (s : State) : State :=
  let sample := fun i (c : AxleChannel) =>
    sampleChannel s.axle.sense (s.cfg (Setting.travel i)) (c.takeMode (modeOf s.settings i))
  s.setAxle { s.axle with
    ax0 := sample .ax0 s.axle.ax0
    ax1 := sample .ax1 s.axle.ax1
    ax2 := sample .ax2 s.axle.ax2
    ax3 := sample .ax3 s.axle.ax3 }

/-! ### Disagreement and agreement (R8, R9) -/

/-- |v2 − v3|. -/
def refDifference (s : State) : Int := ((s.axle.ax2.speed - s.axle.ax3.speed).natAbs : Nat)

/-- |v2 − v3| is within the agree tolerance. -/
def refsAgree (s : State) : Bool := decide (refDifference s ≤ s.cfg Setting.agreeTolerance)

/-- Both reference axles are OK. -/
def bothRefsOk (s : State) : Bool := s.axle.ax2.state == .ok && s.axle.ax3.state == .ok

/-- The slower reference axle; AX3 if the magnitudes are equal (R8). -/
def slowerRef (s : State) : AxleId := if s.axle.ax2.speed.natAbs < s.axle.ax3.speed.natAbs then .ax2 else .ax3

/-- The slower reference axle becomes SUSPECT, and the run ends (R8). -/
def suspectSlower (s : State) : State :=
  let i := slowerRef s
  let marked := onChannel i (AxleChannel.judged .suspect) s
  raise 10 (axleNumber i) (refDifference s) (marked.setAxle { marked.axle with disagreement := none, shownRun := 0 })

/-- The disagreement run judged at a speed sample (R8). -/
def judgeDisagreement (s : State) : State :=
  if bothRefsOk s && !refsAgree s then
    let start := s.axle.disagreement.getD s.now
    if start + s.cfgN Setting.disagreementTime < s.now then suspectSlower s
    else s.setAxle { s.axle with disagreement := some start, shownRun := s.now - start }
  else s.setAxle { s.axle with disagreement := none, shownRun := 0 }

/-- The agreement run of a reference axle is complete: it returns to OK (R9). -/
def returnToOk (r : RefAxle) (s : State) : State :=
  onChannel (refChannel r) (fun c => { c.judged .ok with agreement := none }) s

/-- The agreement run of a reference axle judged at a speed sample (R9). -/
def judgeAgreement (r : RefAxle) (s : State) : State :=
  let c := s.axle.channel (refChannel r)
  if c.state = .suspect ∧ (s.axle.channel (refChannel (otherRef r))).state = .ok ∧ refsAgree s then
    let start := c.agreement.getD s.now
    if start + 10000 ≤ s.now then returnToOk r s
    else onChannel (refChannel r) (fun c => { c with agreement := some start }) s
  else onChannel (refChannel r) (fun c => { c with agreement := none }) s

/-! ### The reference (R7, R10, R11, R12) -/

/-- A motor axle qualifies for the fallback (R10). -/
def qualifies (c : AxleChannel) (b : BogieState) : Bool := c.state == .ok && b.state == .adhering

/-- The source and speed of the fallback to the motor axles, LOST with the held speed if none qualifies (R10, R11). The held
speed is the one published at the previous sample (R11), with the sign it had there: it stays as it is where the travel sense has
changed since at a frozen standstill, though R4 gives every figure the new sign (DEDUCED, log entry 60). -/
def chooseFallback (s : State) : RefSource × Int :=
  let v0 := s.axle.ax0.speed
  let v1 := s.axle.ax1.speed
  match qualifies s.axle.ax0 s.adhesion.a, qualifies s.axle.ax1 s.adhesion.b with
  | true, true => if v1.natAbs < v0.natAbs then (.degraded .ax1, v1) else (.degraded .ax0, v0)
  | true, false => (.degraded .ax0, v0)
  | false, true => (.degraded .ax1, v1)
  | false, false => (.lost, s.axle.refSpeed)

/-- The reference source and speed of this sample (R7). -/
def chooseReference (s : State) : RefSource × Int :=
  let v2 := s.axle.ax2.speed
  let v3 := s.axle.ax3.speed
  match decide (s.axle.ax2.state = .ok), decide (s.axle.ax3.state = .ok) with
  | true, true =>
    if refsAgree s then (.mean, (v2 + v3).tdiv 2)
    else if v2.natAbs < v3.natAbs then (.larger .ax3, v3) else (.larger .ax2, v2)
  | true, false => (.single .ax2, v2)
  | false, true => (.single .ax3, v3)
  | false, false => chooseFallback s

/-- A channel's newest delta times its travel per count. -/
def channelTravel (s : State) (i : AxleId) : Int :=
  (s.axle.channel i).ring.getLastD 0 * s.cfg (Setting.travel i)

/-- The reference travel of this sample under its source (R12). -/
def travelOf (s : State) : RefSource → Int
  | .mean => (channelTravel s .ax2 + channelTravel s .ax3).tdiv 2
  | .larger i => channelTravel s i
  | .single i => channelTravel s i
  | .degraded i => channelTravel s i
  | .lost => 0

/-- The source is DEGRADED: the degraded indication (R10, R13). -/
def RefSource.isDegraded : RefSource → Bool
  | .degraded _ => true
  | _ => false

/-- The motor channel of a DEGRADED source, as REFERENCE DEGRADED reports it. -/
def RefSource.motor : RefSource → Nat
  | .degraded i => axleNumber i
  | _ => 0

/-- What an entry into DEGRADED or LOST, or the end of LOST, brings (R10, R11). -/
def reportSource (before after : RefSource) (v : Int) (s : State) : State :=
  let degraded := if after.isDegraded && !before.isDegraded then raise 11 after.motor v s else s
  if after = .lost ∧ before ≠ .lost then addCauses [.referenceLost] (raise 29 0 v degraded)
  else if after ≠ .lost then removeCauses [.referenceLost] degraded
  else degraded

/-- The reference selected, published and reported (R7, R10, R11, R12). -/
def selectReference (s : State) : State :=
  let r := chooseReference s
  let published := s.setAxle { s.axle with
    source := r.1
    refSpeed := r.2
    refTravel := s.axle.sense.apply (travelOf s r.1) }
  reportSource s.axle.source r.1 r.2 published

/-! ### Standstill (R14) -/

/-- G0, G1 and G6 judged at a change of the standstill flag (R165); of their values G6's HALT output alone is taken up at once
(R80). -/
def judgeStandstillGroups (s : State) : State :=
  let held := !s.axle.standstill
  let g0 := judgeLock .g0 held s
  let g1 := judgeLock .g1 held g0
  let g6 := judgeLock .g6 held g1
  if g6.cfg Setting.haltOutput = g1.cfg Setting.haltOutput then g6 else judgeDrive g6

/-- The latch state as the standstill flag has it (R64). -/
def latchStopped (stopped : Bool) (s : State) : State :=
  s.setHalt { s.halt with latch := s.halt.latch.map fun r => { r with stopped := stopped } }

/-- The event that sets the standstill flag (R14) with its effects: SAND (R57), the latch (R64), ROLLBACK (R65), vigilance
(R68), stop service (R149), the groups (R165), the role (R72). -/
def setStandstill (s : State) : State :=
  let released := releaseSand s
  let flagged := latchStopped true (released.setAxle { released.axle with standstill := true })
  sampleRole (judgeStandstillGroups (serveStops (judgeVigilance (removeCauses [.rollback] flagged))))

/-- The event that clears the standstill flag with its effects: the latch and its acknowledgement run (R64), vigilance
(R68), the groups (R165). -/
def clearStandstill (s : State) : State :=
  let flagged := latchStopped false (s.setAxle { s.axle with standstill := false })
  judgeStandstillGroups (judgeVigilance (flagged.setHalt { flagged.halt with ackRun := none }))

/-- The standstill run after a sample below the threshold: it began at 0, or has lasted since the last sample. -/
def continuedRun (s : State) : Nat :=
  match s.axle.standstillRun with
  | none => 0
  | some t => t + (s.now - s.axle.lastSample)

/-- The standstill flag judged at a speed sample (R14); nothing is judged while the source is LOST. -/
def judgeStandstill (s : State) : State :=
  if s.axle.source = .lost then s
  else if (s.axle.refSpeed.natAbs : Int) < s.cfg Setting.standstillThreshold then
    let run := continuedRun s
    let counted := s.setAxle { s.axle with standstillRun := some run }
    if 500 ≤ run ∧ s.axle.standstill = false then setStandstill counted else counted
  else
    let ended := s.setAxle { s.axle with standstillRun := none }
    if s.axle.standstill then clearStandstill ended else ended

/-- One speed sample at the present time (R5 to R14, R72, R84), in the order of log entry 10. -/
def speedSample (s : State) : State :=
  let selected := selectReference (judgeDisagreement (sampleChannels s))
  let agreed := judgeAgreement .ax3 (judgeAgreement .ax2 selected)
  let judged := judgeStandstill agreed
  let sampled := if judged.axle.standstill then sampleRole judged else judged
  let moved := routeSample sampled
  moved.setAxle { moved.axle with lastSample := s.now, sampleDue := s.now + Config.period }

/-! ### AXLE RESET (R16) -/

/-- A channel returned to service (R16). -/
def AxleChannel.serviced (c : AxleChannel) : AxleChannel :=
  { c with state := .ok, ring := emptyRing, tally := 0, window := none, agreement := none }

/-- AXLE RESET taken for one channel (R16). -/
def resetChannel (i : AxleId) (s : State) : State :=
  let serviced := onChannel i AxleChannel.serviced s
  match i with
  | .ax0 => serviced
  | .ax1 => serviced
  | .ax2 => serviced.setAxle { serviced.axle with disagreement := none }
  | .ax3 => serviced.setAxle { serviced.axle with disagreement := none }

end Sys2Proof.Machine
end

