-- ==== Sys2Proof/Machine/AdhesionOps.lean ====
section
/-! DEFINITION. The adhesion step (03): slip, the adhesion states, the fault, the sand output. -/

namespace Sys2Proof.Machine

def Adhesion.bogie (x : Adhesion) : Bogie → BogieState
  | .a => x.a | .b => x.b

def Adhesion.setBogie (x : Adhesion) (i : Bogie) (b : BogieState) : Adhesion :=
  match i with
  | .a => { x with a := b } | .b => { x with b := b }

/-- The number of a bogie in an event (R54). -/
def bogieNumber : Bogie → Nat
  | .a => 0 | .b => 1

/-- The motor axle that measures a bogie (03, opening). -/
def bogieAxle (s : State) : Bogie → AxleChannel
  | .a => s.axle.ax0 | .b => s.axle.ax1

/-- The slip speed of a bogie under an effort of sign `sign`, none while it is not measured (R50). -/
def slipSpeed (sign : Int) (s : State) (i : Bogie) : Option Int :=
  let c := bogieAxle s i
  let ahead : Int := (c.speed.natAbs : Int) - s.axle.refSpeed.natAbs
  if c.sampled = .failed then some 0
  else if s.axle.source = .lost then none
  else some (if 0 ≤ sign then ahead else -ahead)

/-- The on-threshold (R51). -/
def onThreshold (st : SettingsStore) (refSpeed : Int) : Int :=
  max (st.value Setting.absoluteThreshold)
    (((refSpeed.natAbs : Int) * st.value Setting.relativeThreshold).tdiv 1000)

/-- The off-threshold (R51). -/
def offThreshold (st : SettingsStore) (refSpeed : Int) : Int := (onThreshold st refSpeed).tdiv 2

/-- A factor cut by one step, not below k_min (R52). -/
def cutFactor (st : SettingsStore) (k : Int) : Int := max (st.value Setting.kMin) (k - st.value Setting.cutStep)

/-- A bogie judged on its slip (R52, R53). -/
def judgeSlip (st : SettingsStore) (now : Nat) (refSpeed slip : Int) (b : BogieState) : BogieState :=
  let above := decide (onThreshold st refSpeed < slip)
  match b.state with
  | .adhering =>
    if above then { b with state := .slipping, k := cutFactor st b.k, slipTimer := some now } else b
  | .slipping =>
    if above then { b with k := cutFactor st b.k }
    else if slip ≤ offThreshold st refSpeed then { b with state := .recovering, slipTimer := none }
    else b
  | .recovering =>
    if above then { b with state := .slipping, k := cutFactor st b.k, slipTimer := some now }
    else
      let k := min 1000 (b.k + st.value Setting.recoveryStep)
      { b with state := if k = 1000 then .adhering else .recovering, k := k }

/-- The bogie has an adhesion fault: k at k_min, the mark set, the timer stopped (R54). -/
def BogieState.faulted (st : SettingsStore) (b : BogieState) : BogieState :=
  { b with k := st.value Setting.kMin, slipTimer := none, fault := true }

/-- The slip timer has run longer than the slip time limit (R54). -/
def slipOverdue (st : SettingsStore) (now : Nat) (b : BogieState) : Bool :=
  b.state == .slipping && b.slipTimer.any fun t => decide (t + st.nat Setting.slipTimeLimit * 1000 < now)

/-- The adhesion fault of a bogie with its event (R54). The slip speed is the step's; where none is measured it is a free
value: DESIGN CHOICE (log entry 14), the spec reports a slip speed there and gives it no value. -/
def raiseAdhesionFault (st : SettingsStore) (i : Bogie) (slip : Option Int) (s : State) : State :=
  let marked := s.setAdhesion (s.adhesion.setBogie i ((s.adhesion.bogie i).faulted st))
  match slip with
  | some x => raise 23 (bogieNumber i) x marked
  | none => raise 23 (bogieNumber i) (Config.unmeasuredSlip s.freeCount) (marked.setFreeCount (s.freeCount + 1))

/-- The bogie as the step finds it after the zero-effort and the sign-change cases (R49). -/
def signJudged (sign lastSign : Int) (b : BogieState) : BogieState :=
  if sign = 0 ∨ (lastSign ≠ 0 ∧ lastSign ≠ sign) then .adhering else b

/-- The adhesion step of one bogie under effort sign `sign` (R49 to R54). -/
def stepBogie (st : SettingsStore) (sign : Int) (i : Bogie) (s : State) : State :=
  let found := signJudged sign s.adhesion.lastSign (s.adhesion.bogie i)
  if sign = 0 ∨ found.fault then s.setAdhesion (s.adhesion.setBogie i found)
  else
    let slip := slipSpeed sign s i
    let judged := match slip with
      | some x => judgeSlip st s.now s.axle.refSpeed x found
      | none => found
    let stepped := s.setAdhesion (s.adhesion.setBogie i judged)
    if slipOverdue st s.now judged then raiseAdhesionFault st i slip stepped else stepped

/-- The four conditions of R56. -/
def sandWanted (st : SettingsStore) (s : State) : Bool :=
  (decide (s.adhesion.a.k ≤ st.value Setting.sandThreshold) || decide (s.adhesion.b.k ≤ st.value Setting.sandThreshold)) &&
  decide (st.value Setting.sandMinSpeed ≤ s.axle.refSpeed) && !s.axle.standstill && !s.route.sandInhibit

/-- The sand output judged at the end of a step (R56). -/
def judgeSand (st : SettingsStore) (s : State) : State :=
  match s.adhesion.sand with
  | .off =>
    if sandWanted st s then s.setAdhesion { s.adhesion with sand := .on (s.now + st.nat Setting.sandMax * 1000) } else s
  | .on _ => if sandWanted st s then s else s.setAdhesion { s.adhesion with sand := .off }
  | .resting _ => s

/-- The sand state this step leaves is the one STATUS carries until the next (R55). -/
def noteSand (s : State) : State := s.setAdhesion { s.adhesion with stepSand := s.adhesion.sand }

/-- The adhesion step under the settings `st` (R48): bogie A, bogie B, the sign recorded, the sand output. -/
def adhesionStep (st : SettingsStore) (s : State) : State :=
  let sign := s.traction.effort.sign
  let stepped := stepBogie st sign .b (stepBogie st sign .a s)
  noteSand (judgeSand st (stepped.setAdhesion { stepped.adhesion with lastSign := sign }))

end Sys2Proof.Machine
end

