-- ==== Sys2Proof/Machine/ChainOps.lean ====
section
/-! DEFINITION. The effort chain (02): the opening steps and the seven stages of a pass, with the halt latch's
acknowledgement (R66, R67) and the start emission (R76) at stage 1. -/

namespace Sys2Proof.Machine

/-! ### Opening: direction and INHIBITED (R21, R22, R26, R27, R28) -/

def Position.code : Position → Nat
  | .neutral => 0 | .forward => 1 | .reverse => 2

/-- The position two direction lines give (R26). -/
def positionOf (first second : Bool) : Position :=
  match first, second with
  | true, false => .forward
  | false, true => .reverse
  | _, _ => .neutral

/-- The direction selector as the role reads it (R26, R79). -/
def selectorPosition (s : State) : Position :=
  if s.lines.role = .trail then positionOf s.pins.tlFwd s.pins.tlRev else positionOf s.pins.dirF s.pins.dirR

/-- The travel sense under a held direction (R4). -/
def senseUnder (p : Position) (old : Sense) : Sense :=
  match p with
  | .forward => .forward
  | .reverse => .reverse
  | .neutral => old

/-- A direction change taken (R26, R28): the held direction, the travel sense, the settle timer, the inhibit reasons. -/
def takeDirection (st : SettingsStore) (p : Position) (s : State) : State :=
  let settle := st.nat Setting.settleTime
  let turned := (s.setTraction { s.traction with
    direction := p
    ignored := none
    settle := if settle = 0 then s.traction.settle else some (s.now + settle) }).setAxle
    { s.axle with sense := senseUnder p s.axle.sense }
  if p = .neutral ∨ settle ≠ 0 then enterInhibited turned else turned

/-- A direction change refused on the move (R27). -/
def ignoreDirection (p : Position) (s : State) : State :=
  raise 9 p.code s.axle.refSpeed (s.setTraction { s.traction with ignored := some p })

/-- The one position on which R79 and R27 differ once it is ignored: the NEUTRAL a trail's lines read at standstill. -/
def trailNeutralAtRest (p : Position) (s : State) : Bool :=
  s.lines.role == .trail && p == .neutral && s.axle.standstill

/-- The direction selector judged (R26, R27, R79): held, left ignored, taken at standstill, or refused on the move. An ignored
position is left so, but that `retake` has a trail take the NEUTRAL its lines read at standstill, as R79 says. -/
def judgeDirectionBy (retake : Bool) (st : SettingsStore) (s : State) : State :=
  let p := selectorPosition s
  if p = s.traction.direction then s.setTraction { s.traction with ignored := none }
  else if s.traction.ignored = some p ∧ (trailNeutralAtRest p s && retake) = false then s
  else if s.axle.standstill then takeDirection st p s
  else ignoreDirection p s

/-- The direction selector judged, with the case in which R79 contradicts R26 and R27 left free (DESIGN CHOICE, log entry 41). -/
def judgeDirection (st : SettingsStore) (s : State) : State := judgeDirectionBy Config.takesIgnoredNeutral st s

/-- An inhibit reason holds (R21). -/
def inhibitReason (s : State) : Bool :=
  s.traction.direction == .neutral || s.pins.doorRelease || s.lines.role == .conflict || s.lines.role == .noCab ||
  s.traction.settle.isSome

/-- The entry into START_HELD with the delivery of a retained pulse (R22, R77). -/
def enterStartHeld (s : State) : State :=
  let held := s.setTraction { s.traction with state := .startHeld }
  match s.lines.retained with
  | none => held
  | some _ => deliverStart (held.setLines { held.lines with retained := none })

/-- The exit from INHIBITED judged (R22). -/
def judgeExit (s : State) : State :=
  if s.traction.state = .inhibited ∧ inhibitReason s = false then
    if s.lines.coupled then enterStartHeld s else s.setTraction { s.traction with state := .running }
  else s

/-! ### Stage 1: the demand (R30, R31, R32) -/

/-- H of a valid handle code, with whether it lies in EMERGENCY (R30). -/
def handleDemand (code : Nat) : Option (Int × Bool) :=
  if code ≤ 7 then some (-1000, true)
  else if code ≤ 103 then some (-(((104 - code) * 1000 / 96 : Nat) : Int), false)
  else if code ≤ 151 then some (0, false)
  else if code ≤ 247 then some (((code - 151) * 1000 / 96 : Nat), false)
  else none

/-- HANDLE FAULT for the run under way (R31). -/
def raiseHandleFault (s : State) : State :=
  raise 21 0 s.pins.handle (s.setTraction { s.traction with handleFaultMark := true })

/-- A pass that reads an invalid code (R31). -/
def readInvalid (s : State) : State × Int :=
  let start := s.traction.invalidRun.getD s.now
  let held := decide (s.now < start + 200)
  let read := s.setTraction { s.traction with
    invalidRun := some start
    inEmergency := held && s.traction.lastHEmergency }
  (if start + 1000 ≤ s.now ∧ s.traction.handleFaultMark = false then raiseHandleFault read else read,
    if held then s.traction.lastH else 0)

/-- Stage 1 in the LEAD role: the HANDLE input (R30, R31). -/
def readHandle (s : State) : State × Int :=
  match handleDemand s.pins.handle with
  | some (h, emergency) =>
    (s.setTraction { s.traction with
      lastH := h
      lastHEmergency := emergency
      invalidRun := none
      handleFaultMark := false
      inEmergency := emergency }, h)
  | none => readInvalid s

/-- H of a duty of DEMAND in the valid band (R32). -/
def demandOf (u : Nat) : Int := clampInt (-1000) 1000 ((((u : Int) - 500) * 20).tdiv 9)

/-- DEMAND is valid (R32). -/
def demandValid (u : Nat) : Bool := decide (30 ≤ u) && decide (u ≤ 970)

/-- DEMAND LOST becomes present, with its event (R32). -/
def loseDemand (s : State) : State := raise 3 0 s.lines.demandU (addCauses [.demandLost] s)

/-- Stage 1 in the TRAIL role: DEMAND (R32). -/
def readDemand (s : State) : State × Int :=
  if demandValid s.lines.demandU then
    (removeCauses [.demandLost] (s.setTraction { s.traction with demandLoss := none }), demandOf s.lines.demandU)
  else
    let start := s.traction.demandLoss.getD s.now
    let run := s.setTraction { s.traction with demandLoss := some start }
    (if start + 100 ≤ s.now ∧ s.halt.causes.demandLost = false then loseDemand run else run, 0)

/-- The handle does not count as in EMERGENCY outside the LEAD role (R33). -/
def noEmergency (s : State) : State := s.setTraction { s.traction with inEmergency := false }

/-- Stage 1: H as the role takes it (R30, R32). -/
def readDemandOf (s : State) : State × Int :=
  match s.lines.role with
  | .lead => readHandle s
  | .trail => readDemand (noEmergency s)
  | _ => (noEmergency s, 0)

/-- The acknowledgement run judged on H, and the latch released when it has lasted 1 s (R66, R67). -/
def acknowledge (h : Int) (s : State) : State :=
  if (s.halt.latch.any fun r => r.stopped) && !s.halt.causes.any && decide (h ≤ -900) then
    let start := s.halt.ackRun.getD s.now
    if start + 1000 ≤ s.now then releaseLatch s else s.setHalt { s.halt with ackRun := some start }
  else s.setHalt { s.halt with ackRun := none }

/-- The start emission begins here (R76). -/
def emits (h : Int) (s : State) : Bool :=
  s.lines.role == .lead && decide (s.lines.previousDemand ≤ 0) && decide (0 < h) &&
  (s.traction.state == .startHeld || s.traction.state == .running) && haltLineReleased s && s.lines.emission.isNone

/-- The start emission judged (R76); the previous demand then takes H, in every role. -/
def judgeEmission (h : Int) (s : State) : State :=
  let emitted := if emits h s then startPulse (s.setLines { s.lines with emission := some (s.now + 50) }) else s
  emitted.setLines { emitted.lines with previousDemand := h }

/-! ### Stages 2 and 3 (R34 to R38, R45) -/

/-- The gated demand H2 (R34). -/
def gateDemand (h : Int) (s : State) : Int := if 0 < h ∧ gateOpen s = false then 0 else h

/-- Overspeed judged against the ceiling in use (R35, R38). -/
def judgeOverspeed (st : SettingsStore) (s : State) : State :=
  let v := s.axle.refSpeed
  let t := { s.traction with ceilingInUse := s.route.ceiling }
  if t.overspeed then s.setTraction { t with overspeed := decide (t.ceilingInUse < v) }
  else if t.ceilingInUse + st.value Setting.overspeedMargin ≤ v then
    let flagged := { t with overspeed := true }
    s.setTraction (if t.state = .running then closeGate flagged else flagged)
  else s.setTraction t

/-- Rollback judged (R37). -/
def judgeRollback (st : SettingsStore) (s : State) : State :=
  if s.traction.direction ≠ .neutral ∧ s.axle.refSpeed < -st.value Setting.rollbackLimit then addCauses [.rollback] s else s

/-- The taper limit L (R36). -/
def taperLimit (ceiling speed band : Int) : Int := clampInt 0 1000 (((ceiling - speed) * 1000).tdiv band)

/-- H_out (R45): H2, taken as 0 when it is positive and the gate is closed at the end of stage 3. -/
def demandOut (h2 : Int) (s : State) : Int := gateDemand h2 s

/-! ### Stage 4 (R39, R40, R41) -/

/-- E is to be −1000 at once (R41). -/
def fullBraking (s : State) : Bool := (s.lines.role == .lead && s.traction.inEmergency) || s.halt.causes.breach

/-- The target toward which E moves (R39), but for the immediate case. -/
def effortTarget (st : SettingsStore) (h2 : Int) (s : State) : Int :=
  if s.traction.state = .halted then -st.value Setting.haltBrake
  else if s.traction.overspeed then min h2 (st.value Setting.overspeedBrake)
  else if 0 < h2 then min h2 (taperLimit s.traction.ceilingInUse s.axle.refSpeed (st.value Setting.taperBand))
  else h2

/-- One step of the ramp of R40 from `e` toward `t`, under the build rates `rp`, `rb` and the release rate `rr`. -/
def rampEffort (rp rb rr e t : Int) : Int :=
  if 0 < e then
    if e < t then min t (e + rp) else if 0 ≤ t then max t (e - rr) else max 0 (e - rr)
  else if e < 0 then
    if t < e then max t (e - rb) else if t ≤ 0 then min t (e + rr) else min 0 (e + rr)
  else if 0 < t then min t rp else max t (-rb)

/-- E as stage 4 leaves it, with G2 judged on it (R40, R41, R165). -/
def moveEffort (st : SettingsStore) (h2 : Int) (s : State) : State :=
  let e := if fullBraking s then -1000 else
    rampEffort (st.value Setting.powerBuild) (st.value Setting.brakeBuild) (st.value Setting.release)
      s.traction.effort (effortTarget st h2 s)
  judgeEffort (s.setTraction { s.traction with effort := e })

/-! ### Stages 5 to 7 (R29, R42 to R45) -/

/-- INV_DIR under a held direction (R29). -/
def invDirUnder (p : Position) (old : Bool) : Bool :=
  match p with
  | .forward => false
  | .reverse => true
  | .neutral => old

/-- The demand and direction train lines of a lead (R45); the other roles drive none. -/
def driveTrainLines (hOut : Int) (s : State) : State :=
  if s.lines.role = .lead then
    let duty := dutyOf hOut
    s.setLines { s.lines with
      demandDrive := some duty
      demandChanged := s.lines.demandChanged || decide (s.lines.demandDrive ≠ some duty)
      tlFwdDrive := s.traction.direction == .forward
      tlRevDrive := s.traction.direction == .reverse }
  else s

/-- Stages 5 to 7. -/
def writeOutputs (hOut : Int) (s : State) : State :=
  let shared := shareEffort s
  let written := writeLines shared.traction
  driveTrainLines hOut (shared.setTraction { written with invDir := invDirUnder written.direction written.invDir })

/-! ### The pass (R25) -/

/-- Stage 1 whole: H, the acknowledgement, the start emission. -/
def stageOne (s : State) : State × Int :=
  let read := readDemandOf s
  (judgeEmission read.2 (acknowledge read.2 read.1), read.2)

/-- Stages 2 to 7 under the settings `st` with the stage-1 demand `h`. -/
def laterStages (st : SettingsStore) (h : Int) (s : State) : State :=
  let h2 := gateDemand h s
  let third := judgeRollback st (judgeOverspeed st s)
  writeOutputs (demandOut h2 third) (adhesionStep st (moveEffort st h2 third))

/-- The pass takes up Pmax and Bmax (R46). -/
def takeLimits (s : State) : State :=
  s.setTraction { s.traction with
    powerLimit := s.cfg Setting.powerLimit
    brakeLimit := s.cfg Setting.brakeLimit }

/-- One pass of the effort chain at the present time, under the settings effective at its start (R25, R46). -/
def effortPass (s : State) : State :=
  let opened := judgeExit (judgeDirection s.settings (takeLimits s))
  let first := stageOne opened
  let done := laterStages s.settings first.2 first.1
  done.setTraction { done.traction with passDue := s.now + Config.period }

end Sys2Proof.Machine
end

