-- ==== Sys2Proof/Machine/Flags.lean ====
section
/-! DEFINITION. The output pins as views of the state: each output the spec says follows from what the blocks hold. -/

namespace Sys2Proof.Machine

/-- EB, the emergency brake output (R33). -/
def ebAsserted (s : State) : Bool := fullBraking s

/-- SAND, the sand output (R56). -/
def sandAsserted (s : State) : Bool :=
  match s.adhesion.sand with
  | .on _ => true
  | _ => false

/-- ATTN (R177): the pending-event set is not empty. -/
def attnAsserted (s : State) : Bool := !s.host.events.isEmpty

/-- REQ_LAMPS, CAB_REQ_IND and this unit's drive of STOPREQ (R142, R145): the latch is set. -/
def requestShown (s : State) : Bool := s.stop.latch.isSome

/-- This unit's drive of START (R76). -/
def startDriven (s : State) : Bool := s.lines.emission.isSome

/-- BELL_STRIKE (R152). -/
def bellStrike (s : State) : Bool := s.sound.pulse.isSome

/-- The rest level of a channel (R152). -/
def restLevel : SoundChannel → Level
  | .bell => .rest
  | _ => .off

/-- The level a channel's player applies (R152, R154, R159, R160). -/
def channelLevel (s : State) (c : SoundChannel) : Level :=
  match (s.sound.line c).player with
  | .idle => restLevel c
  | .driver => if c = .horn then .on else restLevel c
  | .playing p step _ _ => (((s.sound.pattern p).bind fun r => r.steps[step]?).map (·.level)).getD (restLevel c)

end Sys2Proof.Machine
end

