-- ==== Sys2Proof/Machine/SettingOps.lean ====
section
/-! DEFINITION. The settings store's requests (09): what a new value does at its block, and the judging of a group whose
freeze flag or condition has changed. -/

namespace Sys2Proof.Machine

/-- The lock condition of a group (R165). -/
def lockHeld (s : State) : Group → Bool
  | .g0 => !s.axle.standstill
  | .g1 => !s.axle.standstill
  | .g2 => s.settings.effortHeld
  | .g3 => routeHeld s
  | .g4 => s.stop.latch.isSome
  | .g5 => s.sound.sounding
  | .g6 => !s.axle.standstill

/-- What new values of a group do at once at their block, `old` being the store before them (R80, R104, R131, R149,
R167). The other blocks take a value up when they next use it, the axle unit at its next speed sample (R17). -/
def takeUp (g : Group) (old : SettingsStore) (s : State) : State :=
  match g with
  | .g0 => s
  | .g1 => s
  | .g2 => s
  | .g3 => takeUpRoute old s
  | .g4 => takeUpStops old s
  | .g5 => s
  | .g6 => if s.cfg Setting.haltOutput = old.value Setting.haltOutput then s else judgeDrive s

/-- A group judged after a change of its freeze flag (R165, R170). -/
def judgeGroup (g : Group) (s : State) : State := takeUp g s.settings (judgeLock g (lockHeld s g) s)

/-- The freeze flag of a group set or cleared (R170). -/
def setFreeze (g : Group) (frozen : Bool) (s : State) : State :=
  judgeGroup g (s.setSettings { s.settings with frozen := s.settings.frozen.put g frozen })

/-- A value in its range taken for a setting of group `g` (R166): pending while the group is LOCKED, effective at once
otherwise. -/
def takeValue (g : Group) (n : Nat) (v : Int) (s : State) : State :=
  if s.settings.locked.get g then s.setSettings { s.settings with pending := listSet n v s.settings.pending }
  else takeUp g s.settings (s.setSettings { s.settings with effective := listSet n v s.settings.effective })

/-- The group of a setting of the index. -/
def groupOf (n : Nat) : Option Group := if (settingRow n).isSome then Group.ofCode (settingGroup n) else none

end Sys2Proof.Machine
end

