-- ==== Sys2Proof/Machine/Operands.lean ====
section
/-! DEFINITION. The layouts of the replies (11): the STATUS snapshot, the AXLE READ and BUTTON READ replies, the route entry
and event records, the settings' values; and the codes they carry. -/

namespace Sys2Proof.Machine

/-! ### Codes: the place in the owning chapter's list, unless a table of 11 gives them -/

def TractionState.code : TractionState → Nat
  | .inhibited => 0 | .startHeld => 1 | .running => 2 | .halted => 3

def Role.code : Role → Nat
  | .lead => 0 | .trail => 1 | .noCab => 2 | .conflict => 3

def ChannelState.code : ChannelState → Nat
  | .ok => 0 | .suspect => 1 | .failed => 2

def DecodeMode.code : DecodeMode → Nat
  | .phase1x => 0 | .phase2x => 1 | .phase4x => 2 | .pulseDir => 3

def RefSource.code : RefSource → Nat
  | .mean => 0 | .larger _ => 1 | .single _ => 2 | .degraded _ => 3 | .lost => 4

/-- The channels behind a source, bit n for AXn; none while LOST (log entry 31). -/
def RefSource.channelBits : RefSource → Nat
  | .mean => 12
  | .larger i => 2 ^ axleNumber i
  | .single i => 2 ^ axleNumber i
  | .degraded i => 2 ^ axleNumber i
  | .lost => 0

def SandState.code : SandState → Nat
  | .off => 0 | .on _ => 1 | .resting _ => 2

def CeilingTerm.code : CeilingTerm → Nat
  | .line => 0 | .restriction => 1 | .approach => 2 | .degraded => 3

def LoopState.code : LoopState → Nat
  | .normal => 0 | .fault => 1

def JunctionState.code : JunctionState → Nat
  | .pending => 0 | .asking => 1 | .overdue => 2 | .set => 3
  | .refused => 4 | .breached => 5 | .passed => 6 | .cancelled => 7

def SignalState.code : SignalState → Nat
  | .ahead => 0 | .calling => 1 | .acknowledged => 2 | .calledOff => 3

def StopState.code : StopState → Nat
  | .ahead => 0 | .approaching => 1 | .announced => 2 | .served => 3 | .passed => 4

def RestrictionState.code : RestrictionState → Nat
  | .ahead => 0 | .active => 1 | .done => 2

def ButtonKind.code : ButtonKind → Nat
  | .sensed => 0 | .contact => 1 | .unused => 2

def ButtonState.code : ButtonState → Nat
  | .released => 0 | .pressing => 1 | .pressed => 2 | .releasing => 3 | .stuck => 4 | .fault => 5

def ResetKind.code : ResetKind → Nat
  | .powerUp => 0 | .full => 1 | .journey => 2

def slotNumber : SlotId → Nat
  | .j0 => 0 | .j1 => 1 | .j2 => 2 | .j3 => 3

/-- One bit of a byte of flags. -/
def flagBit (b : Bool) (n : Nat) : Nat := if b then 2 ^ n else 0

/-- A flag sent as a byte. -/
def flagNat (b : Bool) : Nat := if b then 1 else 0

/-! ### STATUS (R176, 11 section 3) -/

/-- The adhesion state of a bogie under its reported name (R52), with the fault mark in bit 7. -/
def adhesionCode (lastSign : Int) (b : BogieState) : Nat :=
  (match b.state with
    | .adhering => 0
    | .slipping => if lastSign < 0 then 2 else 1
    | .recovering => 3) + flagBit b.fault 7

/-- The flags of byte 12 of the snapshot. -/
def statusFlags (s : State) : Nat :=
  flagBit s.axle.standstill 0 + flagBit s.axle.source.isDegraded 1 + flagBit s.lines.coupled 2 +
  flagBit s.halt.latch.isSome 3 + flagBit (s.halt.latch.any (·.stopped)) 4 + flagBit s.stop.latch.isSome 5 +
  flagBit (s.stop.latch.any (·.accessible)) 6 + flagBit s.route.active 7

/-- The present causes, bit c − 1 for cause code c. -/
def causeBits (c : Causes) : Nat :=
  flagBit c.host 0 + flagBit c.demandLost 1 + flagBit c.trainline 2 + flagBit c.vigilance 3 +
  flagBit c.junction 4 + flagBit c.rollback 5 + flagBit c.referenceLost 6 + flagBit c.breach 7

/-- The fields of the halt latch in the snapshot: first cause, leading cause, present causes, distance, speed (R63). -/
def haltBytes (h : HaltLatch) : List Byte :=
  bytesBE 1 ((h.latch.map (·.first.code)).getD 0) ++ bytesBE 1 ((h.causes.leading.map (·.code)).getD 0) ++
  bytesBE 1 (causeBits h.causes) ++ bytesBE 4 ((h.latch.map (·.distance)).getD 0) ++
  bytesBE 2 ((h.latch.map (·.speed)).getD 0)

/-- The fields of the stop-request latch in the snapshot: source, press count, distance (R142). -/
def stopBytes (u : StopUnit) : List Byte :=
  bytesBE 1 ((u.latch.map (·.source.code)).getD 0) ++ bytesBE 1 ((u.latch.map (·.presses)).getD 0) ++
  bytesBE 4 ((u.latch.map (·.distance)).getD 0)

/-- A bogie's fields in the snapshot: state, k (R55). -/
def bogieBytes (lastSign : Int) (b : BogieState) : List Byte := bytesBE 1 (adhesionCode lastSign b) ++ bytesBE 2 b.k

/-- The 49 bytes of the STATUS snapshot (11 section 3). The sand state is the one the last completed step left (R55). -/
def statusBytes (s : State) : List Byte :=
  bytesBE 1 s.traction.state.code ++ bytesBE 2 s.traction.effort ++ bytesBE 2 s.traction.effortA ++
  bytesBE 2 s.traction.effortB ++ bytesBE 1 s.traction.direction.code ++
  bytesBE 2 s.axle.refSpeed ++ bytesBE 1 s.axle.source.code ++ bytesBE 1 s.axle.source.channelBits ++
  bytesBE 1 (statusFlags s) ++ bogieBytes s.adhesion.lastSign s.adhesion.a ++
  bogieBytes s.adhesion.lastSign s.adhesion.b ++ bytesBE 1 s.adhesion.stepSand.code ++ bytesBE 1 s.lines.role.code ++
  haltBytes s.halt ++
  bytesBE 4 s.route.distance ++ bytesBE 2 s.route.residue ++ bytesBE 1 s.route.table.length ++
  bytesBE 2 s.route.ceiling ++ bytesBE 1 s.route.term.code ++ stopBytes s.stop ++ bytesBE 1 s.junction.loop.code ++
  bytesBE 1 s.host.events.length ++ bytesBE 1 (flagNat s.host.incomplete)

/-- The payload of IDENT after the status (R176, R182). -/
def identBytes (s : State) : List Byte :=
  bytesBE 2 460 ++ bytesBE 1 1 ++ bytesBE 4 (s.now / 1000 : Nat) ++ bytesBE 1 s.host.lastReset.code

/-! ### Event records (11 section 4) -/

/-- The 12 bytes of an event record. -/
def EventRecord.bytes (r : EventRecord) : List Byte :=
  bytesBE 1 r.kind ++ bytesBE 2 r.subject ++ bytesBE 1 (flagNat r.repeated) ++ bytesBE 4 r.value ++ bytesBE 4 r.distance

/-! ### AXLE READ (R15, 11 section 6) -/

/-- The 61 bytes of the AXLE READ reply: the figures of the last speed sample (R15, log entry 12). The decode mode is the one in
use (R17, log entry 39). -/
def axleBytes (s : State) (i : AxleId) : List Byte :=
  let c := s.axle.channel i
  bytesBE 1 c.shown.state.code ++ bytesBE 1 c.mode.code ++ bytesBE 2 c.shown.travel ++
  bytesBE 4 c.prevCount.toInt ++ c.shown.ring.flatMap (bytesBE 4) ++ bytesBE 2 c.speed ++ bytesBE 1 c.shown.tally ++
  bytesBE 2 (min 65535 c.shown.window : Nat) ++ bytesBE 2 s.axle.refSpeed ++
  bytesBE 1 s.axle.source.code ++ bytesBE 1 s.axle.source.channelBits ++ bytesBE 1 (flagNat s.axle.source.isDegraded) ++
  bytesBE 1 (flagNat s.axle.standstill) ++ bytesBE 2 s.axle.shownRun

/-! ### BUTTON READ (R147, 11 section 7) -/

/-- The press time of a button at the last scan (R147). -/
def pressTime (s : State) (b : Button) : Nat :=
  if b.isPressed then (b.pressSince.map fun t => s.stop.lastScan - t).getD 0 else 0

/-- The 23 bytes of the BUTTON READ reply. The kind, and with it whether baseline and delta are sent, and the accessible flag are
the effective ones, which may have changed since the last scan (log entry 48). -/
def buttonBytes (s : State) (i : Nat) (b : Button) : List Byte :=
  let kind := kindOf s.settings i
  bytesBE 1 kind.code ++ bytesBE 1 (s.cfg (Setting.accessible i)) ++ bytesBE 1 b.state.code ++ bytesBE 2 b.reading ++
  bytesBE 2 (if kind = .sensed then b.baseline else 0) ++ bytesBE 2 (if kind = .sensed then b.delta else 0) ++
  bytesBE 1 b.confirm ++ bytesBE 1 b.acquisition ++ bytesBE 1 b.drift ++ bytesBE 1 b.rise ++ bytesBE 1 b.recovery ++
  bytesBE 4 (pressTime s b) ++ bytesBE 1 (flagNat s.stop.hot) ++ bytesBE 1 (s.cfg Setting.scanFirst) ++
  bytesBE 1 (s.cfg Setting.scanLast) ++ bytesBE 2 (s.now - s.stop.lastScan : Nat)

/-! ### ROUTE READ (R93, 11 sections 1 and 2) -/

/-- The slot an entry holds, 0xFF while it holds none (11 section 1). -/
def slotByte (s : State) (tag : Nat) : Nat := ((s.junction.slotOf tag).map slotNumber).getD 255

/-- The record of an entry, the fields its kind does not use 0 (R182), and so the F of a junction entry without one (log entry
40). -/
def Entry.record (e : Entry) : EntryRecord :=
  match e.body with
  | .junction j =>
    ⟨e.tag, 0, j.fix.isSome, false, j.markA, j.markE, j.markC, j.markX, j.fix.getD 0, j.junction, j.direction.code, 0⟩
  | .signal g => ⟨e.tag, 1, false, false, g.callIn, g.callOff, 0, 0, 0, g.signal, g.level, 0⟩
  | .stop p => ⟨e.tag, 2, false, p.requestOnly, p.approach, p.stopMark, 0, 0, 0, p.stop, 0, 0⟩
  | .restriction r => ⟨e.tag, 3, false, false, r.start, r.finish, 0, 0, 0, 0, 0, r.ceiling.toNat⟩

/-- The code of an entry's state. -/
def EntryBody.stateCode : EntryBody → Nat
  | .junction j => j.state.code
  | .signal g => g.state.code
  | .stop p => p.state.code
  | .restriction r => r.state.code

/-- The last answer of an entry: position, lock and verdict, 0xFF in all three while none is recorded. -/
def answerBytes : Option PointAnswer → List Byte
  | some a => bytesBE 1 a.position.code ++ bytesBE 1 (flagNat a.locked) ++ bytesBE 1 a.verdict.code
  | none => [0xFF, 0xFF, 0xFF]

/-- The reply of ROUTE READ for the entry at `index` (R93). Telegrams sent and unanswered run are a junction entry's, and 0 for
the other kinds (log entry 40). -/
def entryBytes (s : State) (index : Nat) (e : Entry) : List Byte :=
  let j := e.junction?
  bytesBE 1 index ++ bytesBE 1 s.route.table.length ++ e.record.bytes ++ bytesBE 1 e.body.stateCode ++
  bytesBE 1 e.crossed ++ bytesBE 4 (e.body.derived (s.cfgN Setting.zoneAfter) s.route.setLength) ++
  bytesBE 1 (slotByte s e.tag) ++ answerBytes (j.bind (·.answer)) ++ bytesBE 2 ((j.map (·.sent)).getD 0) ++
  bytesBE 1 ((j.map (·.unanswered)).getD 0)

/-! ### SET and GET (R166, R171) -/

/-- Effective value, whether a pending value is present, and the pending value (R166, R171), sent as 0 while none is present
(log entry 50). -/
def settingBytes (s : State) (n : Nat) : List Byte :=
  let p := listed n s.settings.pending
  bytesBE 4 (s.cfg n) ++ bytesBE 1 (flagNat p.isSome) ++ bytesBE 4 (p.getD 0)

/-- The code of a lock state: LOCKED 0, UNLOCKED 1, the order of 09's list (11, conventions; log entry 33). -/
def lockCode (locked : Bool) : Nat := if locked then 0 else 1

/-- What GET adds: the group, its lock state and its freeze flag (R171). -/
def groupBytes (s : State) (g : Group) : List Byte :=
  bytesBE 1 g.code ++ bytesBE 1 (lockCode (s.settings.locked.get g)) ++ bytesBE 1 (flagNat (s.settings.frozen.get g))

end Sys2Proof.Machine
end

