-- ==== Sys2Proof/Machine/ResetOps.lean ====
section
/-! DEFINITION. The three kinds of reset (R18, R47, R60, R81, R105, R132, R151, R164, R172, R179, R180). -/

namespace Sys2Proof.Machine

/-- The loop enters FAULT (R106): a turn under way ends, and the event tells the transmitter's phase. -/
def enterLoopFault (s : State) : State :=
  let phase : Int := match s.junction.transmitter with
    | .idle => 0
    | .sending _ _ => 1
    | .listening _ _ => 2
  raise 25 0 phase (s.setJunction { s.junction with loop := .fault, transmitter := .idle })

/-- A channel at its reset values, its decoder on the phases' present levels (R18). -/
def AxleChannel.afresh (c : AxleChannel) : AxleChannel := .atReset c.phaseA c.phaseB

/-- Every block but the host link at the values POWER-UP and RESTART FULL give it, at the present time. -/
def resetBlocks (s : State) : State :=
  { s with
    axle := .atReset s.now s.axle.ax0.afresh s.axle.ax1.afresh s.axle.ax2.afresh s.axle.ax3.afresh
    traction := .atReset s.now
    adhesion := .atReset
    halt := .atReset
    vigilance := .atReset
    lines := .atReset s.now
    route := .atReset
    junction := .atReset
    stop := .atReset s.now s.pins.stopreqLine
    sound := .atReset
    settings := .atReset }

/-- What ends POWER-UP and RESTART FULL: the role sampled (R72, R81), the HALT line sensed (R75, R81), the loop judged
(R132). A HALT line asserted there sets the latch, with all that follows, within the reset (log entry 55). -/
def endReset (s : State) : State :=
  let sensed := senseHalt (sampleRole s)
  if sensed.pins.loopOk then sensed else enterLoopFault sensed

/-- The host link after RESTART FULL (R179, R180): the restart alone in the queue, RESTARTED alone in the set. -/
def HostLink.afterFull (h : HostLink) : HostLink :=
  { h with
    queue := h.queue.take 1
    events := [⟨2, 0, false, 0, 0⟩]
    incomplete := false
    lastReset := .full }

/-- POWER-UP (R180): the clock begins at 0; the levels at the pins are the world's (log entry 34). -/
def powerUp (s : State) : State :=
  let fresh := resetBlocks (s.setNow 0)
  endReset (fresh.setHost .atReset)

/-- RESTART FULL taken (R179). -/
def restartFull (s : State) : State := endReset ((resetBlocks s).setHost s.host.afterFull)

/-- The route engine after RESTART JOURNEY, before its ceiling and inhibit are judged (R105). -/
def RouteEngine.journey (r : RouteEngine) : RouteEngine :=
  { r with active := false, distance := 0, residue := 0, table := [] }

/-- The junction unit after RESTART JOURNEY (R132). -/
def JunctionUnit.journey (u : JunctionUnit) : JunctionUnit :=
  { u with
    transmitter := .idle
    j0 := .empty
    j1 := .empty
    j2 := .empty
    j3 := .empty
    cancelQueue := []
    signalQueue := []
    urgentRun := 0 }

/-- RESTART JOURNEY taken (R179): RESTARTED is entered, then what the emptied route table and the cleared stop-request latch
bring. -/
def restartJourney (s : State) : State :=
  let emptied := (s.setRoute s.route.journey).setJunction s.junction.journey
  let told := raise 2 1 0 (emptied.setHost { emptied.host with lastReset := .journey })
  let cleared := clearStopLatch (afterEmptying s.route.table told)
  cleared.setStop { cleared.stop with sensed := cleared.pins.stopreqLine }

end Sys2Proof.Machine
end

