-- ==== Sys2Proof/Machine/RequestOps.lean ====
section
/-! DEFINITION. What each request of the host does at its execution, and its reply (10 sections 2 and 3; the owning rules). -/

namespace Sys2Proof.Machine

/-! ### Replies (R175) -/

/-- The statuses of a reply (R175), in the order of their codes. -/
inductive Status
  | ok | held | unknownKind | badLength | range | notStandstill | tableFull | duplicateTag | badMarks | overlap | tooLate
  | notFound | lockedEntry | inUse | fixed | queueFull | busy | doorsOpen | loopBad | wrongRole | noRoute
  deriving DecidableEq, Repr

def Status.code : Status → Nat
  | .ok => 0 | .held => 1 | .unknownKind => 2 | .badLength => 3 | .range => 4 | .notStandstill => 5 | .tableFull => 6
  | .duplicateTag => 7 | .badMarks => 8 | .overlap => 9 | .tooLate => 10 | .notFound => 11 | .lockedEntry => 12
  | .inUse => 13 | .fixed => 14 | .queueFull => 15 | .busy => 16 | .doorsOpen => 17 | .loopBad => 18 | .wrongRole => 19
  | .noRoute => 20

/-- A reply: its status and the payload after it. -/
structure Reply where
  status : Status
  body : List Byte
  deriving DecidableEq, Repr

/-- A refusal: nothing changes, no payload (R175). -/
def refuse (status : Status) (s : State) : State × Reply := (s, ⟨status, []⟩)

/-- A request taken with no payload in its reply. -/
def taken (s : State) : State × Reply := (s, ⟨.ok, []⟩)

/-- A request that changes nothing, answered OK with a payload. -/
def report (body : List Byte) (s : State) : State × Reply := (s, ⟨.ok, body⟩)

/-! ### Host link (R176, R178) -/

def doIdent (s : State) : State × Reply := report (identBytes s) s

def doStatus (s : State) : State × Reply := report (statusBytes s) s

/-- EVENTS taken (R178). -/
def doEvents (n : Nat) (s : State) : State × Reply :=
  if n = 0 ∨ 8 < n then refuse .range s
  else
    let given := s.host.events.take n
    let left := s.host.events.drop n
    (s.setHost { s.host with events := left, incomplete := s.host.incomplete && !left.isEmpty },
      ⟨.ok, bytesBE 1 left.length ++ bytesBE 1 (flagNat s.host.incomplete) ++ bytesBE 1 given.length ++
        given.flatMap EventRecord.bytes⟩)

/-! ### Settings (R166, R170, R171) -/

/-- SET (R166). -/
def doSet (n : Nat) (v : Int) (s : State) : State × Reply :=
  match groupOf n with
  | none => refuse .notFound s
  | some g =>
    if settingAllows n v then
      let after := takeValue g n v s
      (after, ⟨if s.settings.locked.get g then .held else .ok, settingBytes after n⟩)
    else refuse .range s

/-- GET (R171). -/
def doGet (n : Nat) (s : State) : State × Reply :=
  match groupOf n with
  | none => refuse .notFound s
  | some g => report (settingBytes s n ++ groupBytes s g) s

/-- FREEZE (R170). -/
def doFreeze (g : Nat) (s : State) : State × Reply :=
  match Group.ofCode g with
  | none => refuse .range s
  | some g => taken (setFreeze g true s)

/-- THAW (R170). -/
def doThaw (g : Nat) (s : State) : State × Reply :=
  match Group.ofCode g with
  | none => refuse .range s
  | some g => taken (setFreeze g false s)

/-! ### The route table (R82, R83, R90 to R93) -/

/-- ROUTE START (R82). -/
def doRouteStart (origin : Nat) (s : State) : State × Reply :=
  if Config.maxOrigin < origin then refuse .range s
  else if s.axle.standstill = false then refuse .notStandstill s
  else if s.route.active = true ∧ s.route.table ≠ [] then refuse .inUse s
  else
    taken (judgeInhibit (formCeiling (s.setRoute { s.route with active := true, distance := origin, residue := 0 })))

/-- The route ended: the flag clears, the residue is 0, the table and its slots are empty, and what follows from it (R83). -/
def endJourney (s : State) : State :=
  let emptied := emptyTable s
  afterEmptying s.route.table (emptied.setRoute { emptied.route with active := false, residue := 0 })

/-- ROUTE END (R83). -/
def doRouteEnd (s : State) : State × Reply :=
  if s.axle.standstill = false then refuse .notStandstill s
  else taken (if s.route.active then endJourney s else s)

/-- A mark lies within the route's limits (R87). -/
def markFits (m : Nat) : Bool := decide (m ≤ Config.maxDistance)

/-- The direction a code names; none outside 0..2. -/
def directionOf : Nat → Option PointDirection
  | 0 => some .left | 1 => some .straight | 2 => some .right | _ => none

/-- The kind's fields of an offered record, none if a field or a mark it carries lies outside its range (R90). A derived mark is
not judged for its range (log entry 44). -/
def bodyOf (r : EntryRecord) : Option EntryBody :=
  if r.tag = 0 ∨ (markFits r.mark1 && markFits r.mark2) = false then none
  else
    match r.kind with
    | 0 =>
      match directionOf r.option with
      | none => none
      | some d =>
        if r.ident = 0 ∨ (markFits r.mark3 && markFits r.mark4) = false then none
        else some (.junction ⟨r.mark1, r.mark2, r.mark3, r.mark4, if r.fixPresent then some r.fix else none, r.ident, d,
          .pending, none, 0, 0⟩)
    | 1 =>
      if r.ident = 0 ∨ r.option = 0 ∨ 3 < r.option then none
      else some (.signal ⟨r.mark1, r.mark2, r.ident, r.option, .ahead, none⟩)
    | 2 => if r.ident = 0 then none else some (.stop ⟨r.mark1, r.mark2, r.ident, r.requestOnly, .ahead⟩)
    | 3 =>
      if r.ceiling < 1000 ∨ 25000 < r.ceiling then none else some (.restriction ⟨r.mark1, r.mark2, r.ceiling, .ahead⟩)
    | _ => none

/-- The marks stand in the order their kind requires, and F within A..C (R87, R90). -/
def EntryBody.ordered : EntryBody → Bool
  | .junction j =>
    decide (j.markA < j.markE) && decide (j.markE ≤ j.markC) && decide (j.markC < j.markX) &&
      j.fix.all fun f => decide (j.markA ≤ f) && decide (f ≤ j.markC)
  | .signal g => decide (g.callIn < g.callOff)
  | .stop p => decide (p.approach < p.stopMark)
  | .restriction r => decide (r.start < r.finish)

/-- The junction entries the overlap check counts (R91). -/
def counted (table : List Entry) : List JunctionEntry :=
  (table.filterMap Entry.junction?).filter fun j => j.state != .passed && j.state != .cancelled

/-- The route distance `p` lies in an entry's interval for the check (R91). -/
def covers (p : Nat) (j : JunctionEntry) : Bool := decide (j.markA ≤ p) && decide (p < j.markX)

/-- The intervals of two entries share a route distance. -/
def shares (a b : JunctionEntry) : Bool := decide (a.markA < b.markX) && decide (b.markA < a.markX)

/-- The junction entry fails the overlap check (R91). Cover is greatest where an interval begins, so only those places are
asked. -/
def overlaps (table : List Entry) (j : JunctionEntry) : Bool :=
  let others := counted table
  ((j.markA :: others.map (·.markA)).any fun p => covers p j && decide (4 ≤ (others.filter (covers p)).length)) ||
  others.any fun o => shares j o && o.junction == j.junction

/-- The table index of a tag (R88). -/
def indexOf (tag : Nat) (table : List Entry) : Nat := table.findIdx fun e => e.tag == tag

/-- An entry that has passed the checks joins the table, and the ceiling and the sand inhibit are formed afresh (R88, R89,
R90). -/
def joinTable (e : Entry) (s : State) : State :=
  judgeInhibit (formCeiling (s.setRoute { s.route with table := insertEntry e s.route.table }))

/-- The check of R90 that needs the kind's fields: overlap for a junction entry. -/
def clashes (table : List Entry) : EntryBody → Bool
  | .junction j => overlaps table j
  | _ => false

/-- ROUTE INSERT (R90). -/
def doRouteInsert (r : EntryRecord) (s : State) : State × Reply :=
  if s.route.active = false then refuse .noRoute s
  else
    match bodyOf r with
    | none => refuse .range s
    | some body =>
      if Config.maxEntries ≤ s.route.table.length then refuse .tableFull s
      else if (findEntry r.tag s.route.table).isSome then refuse .duplicateTag s
      else if body.ordered = false then refuse .badMarks s
      else if body.key < s.route.distance + s.cfgN Setting.insertMargin then refuse .tooLate s
      else if clashes s.route.table body then refuse .overlap s
      else
        let after := joinTable ⟨r.tag, 0, body⟩ s
        (after, ⟨.ok, bytesBE 1 (indexOf r.tag after.route.table) ++ bytesBE 1 after.route.table.length⟩)

/-- The entry of a tag leaves the table at the host's word (R92, R127). -/
def dropEntry (tag : Nat) (s : State) : State :=
  judgeInhibit (formCeiling (s.setRoute { s.route with table := s.route.table.filter fun e => e.tag != tag }))

/-- ROUTE REMOVE (R92). -/
def doRouteRemove (tag : Nat) (s : State) : State × Reply :=
  if tag = 0 then refuse .range s
  else
    match findEntry tag s.route.table with
    | none => refuse .notFound s
    | some e => if e.body.isFirst || e.body.isFinal then taken (dropEntry tag s) else refuse .lockedEntry s

/-- The reply of ROUTE READ for the entry at an index. -/
def readAt (index : Nat) (s : State) : State × Reply :=
  match s.route.table[index]? with
  | none => refuse .notFound s
  | some e => report (entryBytes s index e) s

/-- ROUTE READ (R93, R182): selector 0 names an index, 1 a tag. -/
def doRouteRead (selector which : Nat) (s : State) : State × Reply :=
  match selector with
  | 0 => readAt which s
  | 1 => if which = 0 then refuse .range s else readAt (indexOf which s.route.table) s
  | _ => refuse .range s

/-! ### Junctions and the loop (R107, R117, R123, R127) -/

/-- A cancelled entry leaves its slot: a POINT CANCEL is queued if the entry has sent a telegram, else the slot is free at
once (R113, R127). -/
def releaseSlot (tag : Nat) (j : JunctionEntry) (s : State) : State :=
  match s.junction.slotOf tag with
  | none => s
  | some i =>
    if 0 < j.sent then
      let vacated := vacate tag .cancelled s
      tryGrant (vacated.setJunction { vacated.junction with cancelQueue := vacated.junction.cancelQueue ++ [⟨i, j.junction⟩] })
    else serveWaiting (vacate tag .free s)

/-- A junction entry made CANCELLED (R127): HOST joins before the entry's JUNCTION leaves (R62). A POINT CANCEL granted at this
event is formed before G3 is judged, so it carries the tram number of before the unlock (log entry 51). -/
def cancelJunction (tag crossed : Nat) (j : JunctionEntry) (s : State) : State :=
  let hosted := if 2 ≤ crossed then addCauses [.host] s else s
  let cancelled := enterJunction tag .cancelled (stopAskingFor tag hosted)
  settleRoute (judgeRoute (releaseSlot tag j cancelled))

/-- JUNCTION CANCEL for a junction entry found in the table, past the checks of its name (R127). Its limit is told by the C mark
crossed (three marks or more), as R127 words it, and not by where the route distance stands, which R103 says is read for it: the
two differ while the tram is back behind a C it has crossed (DEDUCED, log entry 57). -/
def cancelEntry (e : Entry) (j : JunctionEntry) (s : State) : State × Reply :=
  if 3 ≤ e.crossed ∧ j.state ≠ .cancelled then refuse .tooLate s
  else
    match j.state with
    | .pending => taken (dropEntry e.tag s)
    | .cancelled => taken s
    | .asking => taken (cancelJunction e.tag e.crossed j s)
    | .overdue => taken (cancelJunction e.tag e.crossed j s)
    | .set => taken (cancelJunction e.tag e.crossed j s)
    | .refused => taken (cancelJunction e.tag e.crossed j s)
    | .breached => refuse .tooLate s
    | .passed => refuse .tooLate s

/-- The junction entry a request names, with its fields. -/
def namedJunction (tag : Nat) (s : State) : Option (Entry × JunctionEntry) :=
  (findEntry tag s.route.table).bind fun e => e.junction?.map fun j => (e, j)

/-- JUNCTION CANCEL (R127). -/
def doJunctionCancel (tag : Nat) (s : State) : State × Reply :=
  if tag = 0 then refuse .range s
  else
    match namedJunction tag s with
    | none => refuse .notFound s
    | some (e, j) => cancelEntry e j s

/-- A REFUSED entry returned to ASKING (R123). -/
def retryJunction (tag : Nat) (s : State) : State :=
  let cleared := changeEntry tag (Entry.onJunction fun j => { j with unanswered := 0 }) s
  formCeiling (startAskingFor tag (enterJunction tag .asking cleared))

/-- JUNCTION RETRY (R123). Its limit is told by the C mark crossed, as R123 words it, and not by the route distance of R103
(DEDUCED, log entry 57). -/
def doJunctionRetry (tag : Nat) (s : State) : State × Reply :=
  if tag = 0 then refuse .range s
  else
    match namedJunction tag s with
    | none => refuse .notFound s
    | some (e, j) =>
      if 3 ≤ e.crossed then refuse .tooLate s
      else if j.state = .refused then taken (retryJunction tag s)
      else refuse .lockedEntry s

/-- The requester a number names (R117); none outside 0..5. -/
def requesterNamed : Nat → Option Requester
  | 0 => some .j0 | 1 => some .j1 | 2 => some .j2 | 3 => some .j3 | 4 => some .cancel | 5 => some .signal | _ => none

/-- A mask set or cleared (R117). -/
def setMask (r : Requester) (b : Bool) (s : State) : State :=
  s.setJunction { s.junction with masks := s.junction.masks.put r b }

/-- MASK (R117). -/
def doMask (n : Nat) (s : State) : State × Reply :=
  match requesterNamed n with
  | none => refuse .range s
  | some r => taken (setMask r true s)

/-- UNMASK (R117): the arbiter grants at this event (R115). -/
def doUnmask (n : Nat) (s : State) : State × Reply :=
  match requesterNamed n with
  | none => refuse .range s
  | some r => taken (tryGrant (setMask r false s))

/-- LOOP RESET (R107). -/
def doLoopReset (s : State) : State × Reply :=
  match s.junction.loop with
  | .normal => taken s
  | .fault =>
    if s.pins.loopOk then taken (tryGrant (s.setJunction { s.junction with loop := .normal })) else refuse .loopBad s

/-! ### Halts and stop requests (R65, R146, R147) -/

/-- HALT (R65). -/
def doHalt (s : State) : State × Reply := taken (addCauses [.host] s)

/-- RESUME (R65). -/
def doResume (s : State) : State × Reply := taken (removeCauses [.host] s)

/-- STOP REQUEST (R146); the argument is judged before the doors (log entry 13). -/
def doStopRequest (accessible : Nat) (s : State) : State × Reply :=
  if 1 < accessible then refuse .range s
  else if s.pins.doorRelease then refuse .doorsOpen s
  else taken (trigger .host (decide (accessible = 1)) s)

/-- STOP CLEAR (R146). -/
def doStopClear (s : State) : State × Reply := taken (clearStopLatch s)

/-- BUTTON READ (R147). -/
def doButtonRead (i : Nat) (s : State) : State × Reply :=
  match s.stop.buttons[i]? with
  | none => refuse .range s
  | some b => report (buttonBytes s i b) s

/-! ### Sounds (R153, R162) -/

/-- PLAY (R162). -/
def doPlay (p : Nat) (s : State) : State × Reply :=
  if 15 < p then refuse .range s
  else
    match s.sound.pattern p with
    | none => refuse .notFound s
    | some _ =>
      let asked := requestPattern p .host s
      if asked.2 = .full then refuse .queueFull s else (asked.1, ⟨.ok, bytesBE 1 asked.2.code⟩)

/-- SILENCE (R162); 0xFF names ALL (R182). -/
def doSilence (p : Nat) (s : State) : State × Reply :=
  if p = 255 then taken (silenceAll s) else if 15 < p then refuse .range s else taken (silencePattern p s)

/-- The channel a code names (11 section 1). -/
def channelOf : Nat → Option SoundChannel
  | 0 => some .bell | 1 => some .horn | 2 => some .chime | 3 => some .buzzer | _ => none

/-- The class a code names (11 section 1). -/
def classOfCode : Nat → Option SoundClass
  | 0 => some .urgent | 1 => some .normal | _ => none

/-- One step of an offered pattern on channel `c`, none if it is refused (R153). -/
def stepOf (c : SoundChannel) (step : Nat × Nat) : Option PatternStep :=
  match (levelsOf c)[step.1]? with
  | none => none
  | some level =>
    if step.2 = 0 ∨ 255 < step.2 ∨ (c = .bell ∧ level = .strike ∧ step.2 < 4) then none else some ⟨level, step.2⟩

/-- The record of an offered pattern with at least one step, none if a field is not one of its values (R153). -/
def patternOf (r : PatternRecord) : Option Pattern :=
  match channelOf r.channel, classOfCode r.cls with
  | some c, some k =>
    if 15 < r.passes ∨ 8 < r.steps.length then none
    else (r.steps.mapM (stepOf c)).map fun steps => ⟨c, k, r.passes, steps⟩
  | _, _ => none

/-- The pattern sounds on its channel's player or waits in its queue (R153). -/
def patternInUse (n : Nat) (u : SoundUnit) : Bool :=
  match u.pattern n with
  | none => false
  | some p => (u.line p.channel).plays n || (u.line p.channel).queue.any fun w => w.pattern == n

/-- A load past the checks of its record: IN_USE, else the record is replaced (R153). -/
def replacePattern (n : Nat) (p : Option Pattern) (s : State) : State × Reply :=
  if patternInUse n s.sound then refuse .inUse s
  else taken (s.setSound { s.sound with loaded := storePattern n p s.sound.loaded })

/-- PATTERN LOAD (R153). -/
def doPatternLoad (r : PatternRecord) (s : State) : State × Reply :=
  if 15 < r.number then refuse .range s
  else if r.number < 6 then refuse .fixed s
  else if r.steps = [] then replacePattern r.number none s
  else
    match patternOf r with
    | none => refuse .range s
    | some p => replacePattern r.number (some p) s

/-! ### Axles (R15, R16) -/

/-- AXLE READ (R15). -/
def doAxleRead (channel : Nat) (s : State) : State × Reply :=
  match axleOf channel with
  | none => refuse .range s
  | some i => report (axleBytes s i) s

/-- AXLE RESET (R16); 0xFF names ALL (R182). Standstill is judged before the channel (log entry 13). -/
def doAxleReset (channel : Nat) (s : State) : State × Reply :=
  if s.axle.standstill = false then refuse .notStandstill s
  else if channel = 255 then taken (resetChannel .ax3 (resetChannel .ax2 (resetChannel .ax1 (resetChannel .ax0 s))))
  else
    match axleOf channel with
    | none => refuse .range s
    | some i => taken (resetChannel i s)

/-! ### Restarts (R179) -/

/-- RESTART (R179), its refusals in the order the rule names them (log entry 13). -/
def doRestart (argument : Nat) (s : State) : State × Reply :=
  if 1 < argument then refuse .range s
  else if s.axle.standstill = false then refuse .notStandstill s
  else if argument = 1 then taken (restartJourney s)
  else if s.lines.role = .lead ∧ s.lines.coupled = true then refuse .wrongRole s
  else taken (restartFull s)

/-! ### Any request (R175) -/

/-- The execution of a request: its effect and its reply. -/
def perform (r : HostRequest) (s : State) : State × Reply :=
  match r with
  | .ident => doIdent s
  | .status => doStatus s
  | .events n => doEvents n s
  | .set n v => doSet n v s
  | .get n => doGet n s
  | .freeze g => doFreeze g s
  | .thaw g => doThaw g s
  | .routeStart origin => doRouteStart origin s
  | .routeInsert e => doRouteInsert e s
  | .routeRemove tag => doRouteRemove tag s
  | .routeRead selector which => doRouteRead selector which s
  | .routeEnd => doRouteEnd s
  | .junctionCancel tag => doJunctionCancel tag s
  | .junctionRetry tag => doJunctionRetry tag s
  | .mask n => doMask n s
  | .unmask n => doUnmask n s
  | .loopReset => doLoopReset s
  | .halt => doHalt s
  | .resume => doResume s
  | .stopRequest a => doStopRequest a s
  | .stopClear => doStopClear s
  | .play p => doPlay p s
  | .silence p => doSilence p s
  | .patternLoad p => doPatternLoad p s
  | .axleRead c => doAxleRead c s
  | .axleReset c => doAxleReset c s
  | .buttonRead i => doButtonRead i s
  | .restart a => doRestart a s
  | .unknownKind _ => refuse .unknownKind s
  | .badLength _ => refuse .badLength s

end Sys2Proof.Machine
end

