-- ==== Sys2Proof/Machine/HostOps.lean ====
section
/-! DEFINITION. The host link's working (10 section 1): the receiver, the input queue, the line out. -/

namespace Sys2Proof.Machine

/-- What a command answers. -/
abbrev Result := Host.Outcome State Fault Refusal

/-! ### The line out and the input queue (R174, R175) -/

/-- A reply frame (11 section 1): the request's kind and tag, the status, the payload. -/
def replyBytes (kind tag : Nat) (r : Reply) : List Byte := frameBytes kind tag (BitVec.ofNat 8 r.status.code :: r.body)

/-- A BUSY reply (R174). -/
def busyBytes (kind tag : Nat) : List Byte := replyBytes kind tag ⟨.busy, []⟩

/-- The head of the queue executes and its reply begins to be sent (R174). -/
def executeHead (s : State) : State :=
  match s.host.queue with
  | [] => s
  | q :: _ =>
    let done := perform q.request s
    done.1.setHost { done.1.host with
      headRunning := true
      line := .sending (replyBytes q.request.kind q.tag done.2) false }

/-- The head of the queue may execute (R174). -/
def mayExecute (s : State) : Bool := s.host.line == .free && s.host.busy.isNone && !s.host.headRunning

/-- The head executes if it may. -/
def pump (s : State) : State := if mayExecute s then executeHead s else s

/-- A complete and good frame is handed to the input queue (R174). -/
def submit (tag : Nat) (r : HostRequest) (s : State) : State :=
  if s.host.queue.length < Config.maxRequests then
    pump (s.setHost { s.host with queue := s.host.queue ++ [⟨tag, r⟩] })
  else
    match s.host.line, s.host.busy with
    | .free, _ => s.setHost { s.host with line := .sending (busyBytes r.kind tag) true }
    | .sending _ _, none => s.setHost { s.host with busy := some (r.kind, tag) }
    | .sending _ _, some _ => s

/-- The line out has fallen FREE: a waiting BUSY reply is sent, or the next head executes (R174). -/
def lineFreed (s : State) : State :=
  match s.host.busy with
  | some (kind, tag) => s.setHost { s.host with line := .sending (busyBytes kind tag) true, busy := none }
  | none => pump s

/-- The last byte of the reply being sent has gone (R174). -/
def endReply (s : State) : State :=
  match s.host.line with
  | .free => s
  | .sending _ true => lineFreed (s.setHost { s.host with line := .free })
  | .sending _ false =>
    lineFreed (s.setHost { s.host with line := .free, queue := s.host.queue.tail, headRunning := false })

/-! ### The receiver (R173) -/

/-- The bytes after the lead byte that a frame has, by its length byte: length, kind, tag and payload, CRC. -/
def frameSize (bytes : List Byte) : Nat := 3 + fieldAt bytes 0 1

/-- The CRC of a whole frame, without its lead byte, is right (R181). -/
def frameGood (bytes : List Byte) : Bool := bytes.drop (bytes.length - 2) == crcBytes (bytes.take (bytes.length - 2))

/-- A whole frame, without its lead byte, judged and handed on (R173). -/
def frameEnds (bytes : List Byte) (s : State) : State :=
  let hunting := s.setHost { s.host with receiver := .hunting }
  if frameGood bytes then
    submit (fieldAt bytes 2 1) (parseRequest (fieldAt bytes 1 1) ((bytes.drop 3).take (bytes.length - 5))) hunting
  else hunting

/-- A byte taken IN_FRAME (R173): the length judged, the frame collected. -/
def collect (bytes : List Byte) (s : State) : State :=
  if bytes.length = 1 ∧ (fieldAt bytes 0 1 < 2 ∨ 250 < fieldAt bytes 0 1) then
    s.setHost { s.host with receiver := .hunting }
  else if bytes.length = frameSize bytes then frameEnds bytes s
  else s.setHost { s.host with receiver := .inFrame bytes s.now }

/-- A byte judged in HUNTING (R173). -/
def hunt (b : Byte) (s : State) : State :=
  if b = 0x7B then s.setHost { s.host with receiver := .inFrame [] s.now } else s

/-- A byte at its arrival (R173). One that ends a gap of more than 5 ms finds the frame abandoned. -/
def receive (b : Byte) (framingError : Bool) (s : State) : State :=
  if framingError then s.setHost { s.host with receiver := .hunting }
  else
    match s.host.receiver with
    | .hunting => hunt b s
    | .inFrame bytes last =>
      if last + 5 < s.now then hunt b (s.setHost { s.host with receiver := .hunting }) else collect (bytes ++ [b]) s

/-- The gap after the last byte has passed 5 ms (R173). -/
def abandonFrame (s : State) : State :=
  match s.host.receiver with
  | .hunting => s
  | .inFrame _ last => (s.reach (last + 5)).setHost { s.host with receiver := .hunting }

end Sys2Proof.Machine
end

