-- ==== Sys2Proof/Machine/AdhesionUnit.lean ====
section
/-! DEFINITION. The meanings of the adhesion section's commands (03). -/

namespace Sys2Proof.Machine

/-- The first step at which the slip timer of a bogie has run longer than the slip time limit (R54): steps stand 10 ms
apart. -/
def slipFaultAt (bogie : Bogie) (s : State) : Option Nat :=
  let b := s.adhesion.bogie bogie
  if b.state = .slipping ∧ b.fault = false then
    b.slipTimer.map fun t => t + s.cfgN Setting.slipTimeLimit * 1000 + Config.period
  else none

/-- ADHESION_FAULT (R54), the slip measured under the effort sign of the last step. -/
def execAdhesionFault (bogie : Bogie) (s : State) : Result :=
  .next (atExpiry (slipFaultAt bogie s)
    (fun s => raiseAdhesionFault s.settings bogie (slipSpeed s.adhesion.lastSign s bogie) s) s)

/-- The expiry of a sand run (R58). -/
def sandRunExpiry : SandState → Option Nat
  | .on t => some t
  | _ => none

/-- The expiry of a sand rest (R58). -/
def sandRestExpiry : SandState → Option Nat
  | .resting t => some t
  | _ => none

/-- SAND_RUN_EXPIRY (R58): SAND is released, and the rest begins at the run's expiry. -/
def execSandRunExpiry (s : State) : Result :=
  .next (atExpiry (sandRunExpiry s.adhesion.sand)
    (fun s => s.setAdhesion { s.adhesion with sand := .resting (s.now + s.cfgN Setting.sandRest * 1000) }) s)

/-- SAND_REST_EXPIRY (R58). -/
def execSandRestExpiry (s : State) : Result :=
  .next (atExpiry (sandRestExpiry s.adhesion.sand) (fun s => s.setAdhesion { s.adhesion with sand := .off }) s)

end Sys2Proof.Machine
end

