-- ==== Sys2Proof/Machine/Axle.lean ====
section
/-! DEFINITION. The meanings of the axle unit's commands (01). -/

namespace Sys2Proof.Machine

/-- ENCODER_EDGE (R1, R2, R3): the phases' new levels; levels that have not changed are no edge. -/
def execEncoderEdge (channel : AxleId) (phaseA phaseB : Bool) (s : State) : Result :=
  let c := s.axle.channel channel
  .next (if c.phaseA = phaseA ∧ c.phaseB = phaseB then s else takeEdge channel phaseA phaseB s)

/-- PHASE_ERROR_WINDOW_EXPIRY (R3): the window closes and its count clears. -/
def execPhaseErrorWindowExpiry (channel : AxleId) (s : State) : Result :=
  .next (atExpiry ((s.axle.channel channel).window.map (·.expiry))
    (onChannel channel fun c => { c with window := none }) s)

/-- SPEED_SAMPLE (R5), at its due time. -/
def execSpeedSample (s : State) : Result := .next (speedSample (s.reach s.axle.sampleDue))

/-- The reference taken afresh on the axle that is still OK (R8, "From the same sample the source is SINGLE"). -/
def singleOnOther (suspect : AxleId) (s : State) : State :=
  let other := if suspect = .ax2 then AxleId.ax3 else .ax2
  s.setAxle { s.axle with source := .single other, refSpeed := (s.axle.channel other).speed }

/-- The first sample of the run at which it has lasted longer than the disagreement time (R8): samples stand 10 ms apart. -/
def suspectAt (s : State) : Option Nat :=
  if bothRefsOk s then
    s.axle.disagreement.map fun t => t + (s.cfgN Setting.disagreementTime / Config.period + 1) * Config.period
  else none

/-- AXLE_SUSPECT (R8): the disagreement run outlasts the disagreement time. -/
def execAxleSuspect (s : State) : Result :=
  .next (atExpiry (suspectAt s) (fun s => singleOnOther (slowerRef s) (suspectSlower s)) s)

/-- The end of a reference axle's agreement run, its partner being OK (R9). -/
def agreedAt (r : RefAxle) (s : State) : Option Nat :=
  let c := s.axle.channel (refChannel r)
  if c.state = .suspect ∧ (s.axle.channel (refChannel (otherRef r))).state = .ok then c.agreement.map (· + 10000) else none

/-- AGREEMENT_RUN_COMPLETE (R9). -/
def execAgreementRunComplete (channel : RefAxle) (s : State) : Result :=
  .next (atExpiry (agreedAt channel s) (returnToOk channel) s)

/-- The moment the standstill run under way reaches 500 ms, the flag being clear and the source not LOST (R14). -/
def standstillAt (s : State) : Option Nat :=
  if s.axle.standstill = true ∨ s.axle.source = .lost then none
  else s.axle.standstillRun.map fun run => s.axle.lastSample + (500 - run)

/-- STANDSTILL_SET (R14), with the effects of the flag. -/
def execStandstillSet (s : State) : Result :=
  .next (atExpiry (standstillAt s) (fun s => setStandstill (s.setAxle { s.axle with standstillRun := some 500 })) s)

/-- AXLE_READ (R15). -/
def execAxleRead (tag channel : Nat) (s : State) : Result := .next (submit tag (.axleRead channel) s)

/-- AXLE_RESET (R16). -/
def execAxleReset (tag channel : Nat) (s : State) : Result := .next (submit tag (.axleReset channel) s)

end Sys2Proof.Machine
end

