-- ==== Sys2Proof/Machine/Halts.lean ====
section
/-! DEFINITION. The meanings of the commands of halts, vigilance and the train lines (04). -/

namespace Sys2Proof.Machine

/-! ### The halt latch -/

/-- The moment the acknowledgement run reaches 1 s, its conditions standing (R66, R67). -/
def releaseAt (s : State) : Option Nat :=
  if (s.halt.latch.any fun r => r.stopped) && !s.halt.causes.any then s.halt.ackRun.map (· + 1000) else none

/-- HALT_RELEASED (R67): the acknowledgement run reaches 1 s. -/
def execHaltReleased (s : State) : Result := .next (atExpiry (releaseAt s) releaseLatch s)

/-- HALT (R65). -/
def execHalt (tag : Nat) (s : State) : Result := .next (submit tag .halt s)

/-- RESUME (R65). -/
def execResume (tag : Nat) (s : State) : Result := .next (submit tag .resume s)

/-! ### Vigilance -/

/-- VIGIL_PRESS (R69, R70, R71): VIGIL passes from released to asserted. -/
def execVigilPress (s : State) : Result :=
  .next (if s.pins.vigil then s else vigilPressed (s.setPins { s.pins with vigil := true }))

/-- VIGIL_RELEASE (R69): VIGIL passes from asserted to released. -/
def execVigilRelease (s : State) : Result :=
  .next (if s.pins.vigil then vigilLifted (s.setPins { s.pins with vigil := false }) else s)

/-- The expiry of the monitor's timer while it is in state `st` (R68). -/
def vigilExpiry (st : VigilState) (s : State) : Option Nat := if s.vigilance.state = st then s.vigilance.timer else none

/-- HOLD_LIMIT_EXPIRY (R69). -/
def execHoldLimitExpiry (s : State) : Result := .next (atExpiry (vigilExpiry .held s) enterWarnHeld s)

/-- GRACE_EXPIRY (R69). -/
def execGraceExpiry (s : State) : Result := .next (atExpiry (vigilExpiry .released s) enterWarnReleased s)

/-- WARN_TO_HALT_EXPIRY (R70). -/
def execWarnToHaltExpiry (s : State) : Result := .next (atExpiry (vigilExpiry .warnReleased s) enterTripped s)

/-- REPRESS_WINDOW_EXPIRY (R70). -/
def execRepressWindowExpiry (s : State) : Result := .next (atExpiry (vigilExpiry .warnHeld s) enterTripped s)

/-! ### Role and train lines -/

/-- ROLE_INPUT_CHANGE (R72): the levels are held until they are sampled. -/
def execRoleInputChange (activeCab coupling : Bool) (s : State) : Result :=
  .next (s.setPins { s.pins with activeCab := activeCab, coupling := coupling })

/-- The share of a window of 10 ms that the line was high, in per mille rounded toward zero (R78). -/
def dutyMeasured (highMicros : Nat) : Nat := min 1000 (highMicros / 10)

/-- The unit's role becomes CONFLICT (R73). -/
def enterConflict (s : State) : State :=
  let withdrawn := changeRole .conflict s.lines.coupled s
  raise 4 0 s.lines.demandU (withdrawn.setLines { withdrawn.lines with conflictRun := 0 })

/-- A lead compares the measured duty with the one it wrote (R73); a window in which none was written leaves the run as it
stands (log entry 25). -/
def judgeWindow (s : State) : State :=
  match s.lines.role, s.lines.demandDrive with
  | .lead, some written =>
    if s.lines.demandChanged then s
    else if 40 < ((s.lines.demandU : Int) - written).natAbs then
      if 10 ≤ s.lines.conflictRun + 1 then enterConflict s
      else s.setLines { s.lines with conflictRun := s.lines.conflictRun + 1 }
    else s.setLines { s.lines with conflictRun := 0 }
  | _, _ => s

/-- A DEMAND window ends (R78, R73). -/
def endWindow (highMicros : Nat) (s : State) : State :=
  let judged := judgeWindow (s.setLines { s.lines with demandU := dutyMeasured highMicros })
  judged.setLines { judged.lines with demandChanged := false, demandDue := s.now + Config.period }

/-- DEMAND_WINDOW_EXPIRY (R78), at its due time; `highMicros` is how long the line was high in the window. -/
def execDemandWindowExpiry (highMicros : Nat) (s : State) : Result :=
  .next (endWindow highMicros (s.reach s.lines.demandDue))

/-- The sensed HALT line has changed (R75): TRAINLINE follows it unless this unit drives the line; asserted, it clears a
retained pulse (R77). -/
def senseLine (s : State) : State :=
  if s.lines.halting then s
  else if s.pins.haltLine then senseHalt (s.setLines { s.lines with retained := none })
  else senseHalt s

/-- HALT_LINE_CHANGE (R75): the level the others give the line. -/
def execHaltLineChange (asserted : Bool) (s : State) : Result :=
  .next (if s.pins.haltLine = asserted then s else senseLine (s.setPins { s.pins with haltLine := asserted }))

/-- START_EMISSION_EXPIRY (R76). -/
def execStartEmissionExpiry (s : State) : Result :=
  .next (atExpiry s.lines.emission (fun s => s.setLines { s.lines with emission := none }) s)

/-- START_EDGE (R77): not sensed by a unit that is emitting, ignored while HALT is not released as the unit knows it. -/
def execStartEdge (s : State) : Result :=
  .next (if s.lines.emission.isNone && haltLineReleased s then startPulse s else s)

/-- START_RETENTION_EXPIRY (R77). -/
def execStartRetentionExpiry (s : State) : Result :=
  .next (atExpiry s.lines.retained (fun s => s.setLines { s.lines with retained := none }) s)

end Sys2Proof.Machine
end

