-- ==== Sys2Proof/Machine/HostLink.lean ====
section
/-! DEFINITION. The meanings of the host link's own commands (10). -/

namespace Sys2Proof.Machine

/-- BYTE_RECEIVED (R173). -/
def execByteReceived (byte : Byte) (framingError : Bool) (s : State) : Result := .next (receive byte framingError s)

/-- FRAME_GAP_EXPIRY (R173). -/
def execFrameGapExpiry (s : State) : Result := .next (abandonFrame s)

/-- REPLY_END (R174). -/
def execReplyEnd (s : State) : Result := .next (endReply s)

/-- UNKNOWN_KIND_REQUEST (R175). -/
def execUnknownKindRequest (tag kind : Nat) (s : State) : Result := .next (submit tag (.unknownKind kind) s)

/-- IDENT (R176). -/
def execIdent (tag : Nat) (s : State) : Result := .next (submit tag .ident s)

/-- STATUS (R176). -/
def execStatus (tag : Nat) (s : State) : Result := .next (submit tag .status s)

/-- EVENTS (R178). -/
def execEvents (tag n : Nat) (s : State) : Result := .next (submit tag (.events n) s)

end Sys2Proof.Machine
end

