-- ==== Sys2Proof/Machine/Junction.lean ====
section
/-! DEFINITION. The meanings of the junction unit's commands (06). -/

namespace Sys2Proof.Machine

/-! ### The loop (R106, R107) -/

/-- LOOP_OK at a new level (R106): a release in NORMAL enters FAULT; an assertion ends nothing. It does so in the TRAIL role too,
where R108 keeps the loop state as it stands: that is read of the role and not of LOOP_OK (DEDUCED, log entry 58). -/
def takeLoopLevel (ok : Bool) (s : State) : State :=
  let seen := s.setPins { s.pins with loopOk := ok }
  if ok = false ∧ s.junction.loop = .normal then enterLoopFault seen else seen

/-- LOOP_OK_RELEASED (R106); with `assertedAgain` the level has come back (log entry 9). -/
def execLoopOkReleased (assertedAgain : Bool) (s : State) : Result :=
  .next (if s.pins.loopOk = assertedAgain then s else takeLoopLevel assertedAgain s)

/-- LOOP_RESET (R107). -/
def execLoopReset (tag : Nat) (s : State) : Result := .next (submit tag .loopReset s)

/-! ### Turns (R111, R116, R119) -/

/-- The cancel queue's telegram has been sent: it leaves the queue, its slot is free, and an entry waiting for one may take
it (R111, R113, R118). -/
def cancelSent (s : State) : State :=
  match s.junction.cancelQueue with
  | [] => s
  | c :: rest =>
    judgeRoute (serveWaiting (onSlot c.slot (fun _ => .empty) (s.setJunction { s.junction with cancelQueue := rest })))

/-- The signal queue's telegram has been sent (R111). -/
def signalSent (s : State) : State := s.setJunction { s.junction with signalQueue := s.junction.signalQueue.tail }

/-- What the holder of a turn does at the end of the airtime (R111). -/
def airtimeEnded (holder : Requester) (s : State) : State :=
  match holder with
  | .cancel => cancelSent s
  | .signal => signalSent s
  | _ => s

/-- The airtime of a turn has ended: the answer window begins, or the turn ends (R108, R111). -/
def endAirtime (turn : Turn) (s : State) : State :=
  let sent := airtimeEnded turn.holder s
  if turn.telegram.listens ∧ turn.window ≠ 0 then
    sent.setJunction { sent.junction with transmitter := .listening turn (s.now + turn.window) }
  else endTurn sent

/-- TELEGRAM_AIRTIME_END (R111). -/
def execTelegramAirtimeEnd (s : State) : Result :=
  .next (match s.junction.transmitter with
    | .sending turn expiry => endAirtime turn (s.reach expiry)
    | _ => s)

/-- One more unanswered turn of the entry of a tag, with JUNCTION SILENT at the limit (R119). -/
def countUnanswered (tag : Nat) (j : JunctionEntry) (s : State) : State :=
  let run := min 255 (j.unanswered + 1)
  let told := changeEntry tag (Entry.onJunction fun j => { j with unanswered := run }) s
  if run = s.cfgN Setting.silenceLimit ∧ j.unanswered ≠ run then raise 18 tag run told else told

/-- The turn judged at the expiry of its window (R119). -/
def judgeTurn (turn : Turn) (s : State) : State :=
  match turn.entry with
  | none => s
  | some tag =>
    match junctionOf s tag with
    | none => s
    | some j => if j.state.asks && !turn.answered then countUnanswered tag j s else s

/-- An urgent slot raises a request at the end of its own turn (R116). -/
def askAgain (holder : Requester) (s : State) : State :=
  match holder.slot? with
  | some i => if urgent s i then onSlot i (fun x => { x with waiting := true }) s else s
  | none => s

/-- ANSWER_WINDOW_EXPIRY (R119, R111). -/
def execAnswerWindowExpiry (s : State) : Result :=
  .next (match s.junction.transmitter with
    | .listening turn expiry => endTurn (askAgain turn.holder (judgeTurn turn (s.reach expiry)))
    | _ => s)

/-! ### Repeats (R112, R128) -/

/-- SLOT_REPEAT_EXPIRY (R112): while its entry asks, the slot raises a request and the timer starts again. -/
def execSlotRepeatExpiry (slot : SlotId) (s : State) : Result :=
  .next (atExpiry (s.junction.slot slot).timer
    (fun s =>
      if (slotJunction s slot).any fun j => j.state.asks then startAsking slot s
      else onSlot slot (fun x => { x with timer := none }) s) s)

/-- The signal fields of the entry of a tag. -/
def signalOf (s : State) (tag : Nat) : Option SignalEntry :=
  (findEntry tag s.route.table).bind fun e => match e.body with
    | .signal g => some g
    | _ => none

/-- A CALLING signal entry offers its call again, and its timer restarts (R128). -/
def callAgain (tag : Nat) (g : SignalEntry) (s : State) : State :=
  let restarted := changeEntry tag (Entry.onSignal fun g =>
    { g with timer := some (s.now + s.cfgN Setting.repeatInterval) }) s
  offerSignal ⟨tag, false, g.signal, g.level⟩ restarted

/-- SIGNAL_REPEAT_EXPIRY (R128). -/
def execSignalRepeatExpiry (entryTag : Nat) (s : State) : Result :=
  .next (match signalOf s entryTag with
    | none => s
    | some g => if g.state = .calling then atExpiry g.timer (callAgain entryTag g) s else s)

/-! ### Answers (R110, R121 to R124, R129) -/

/-- The receiver hears: the transmitter is not SENDING, and the role is not TRAIL (R108, R110). A telegram is judged at one moment,
its command, which stands for its end; that a part of it fell into airtime before is told by the sender, in the bytes it
delivers or by no command at all (DESIGN CHOICE, log entry 59). -/
def hears (s : State) : Bool :=
  match s.junction.transmitter with
  | .sending _ _ => false
  | _ => s.lines.role != .trail

/-- The turn under way has had its answer (R119). -/
def Transmitter.heard (tag : Nat) : Transmitter → Transmitter
  | .listening t e => .listening { t with answered := t.answered || t.entry == some tag } e
  | x => x

/-- An answer recorded as the entry's last, its unanswered run reset (R119, R121). -/
def recordAnswer (tag : Nat) (a : PointAnswer) (s : State) : State :=
  (changeEntry tag (Entry.onJunction fun j => { j with answer := some a, unanswered := 0 }) s).setJunction
    { s.junction with transmitter := s.junction.transmitter.heard tag }

/-- The position an answer gives is the demanded direction. -/
def pointsTo (a : PointAnswer) (d : PointDirection) : Bool := decide (a.position.code = d.code)

/-- The entry becomes SET (R122), and its position fix is judged (R97). -/
def becomeSet (tag : Nat) (j : JunctionEntry) (s : State) : State :=
  let set := formCeiling (enterJunction tag .set (stopAskingFor tag s))
  positionFix tag (raise 19 tag j.sent set)

/-- The entry becomes REFUSED (R123). -/
def becomeRefused (tag : Nat) (j : JunctionEntry) (s : State) : State :=
  raise 28 tag j.junction (formCeiling (enterJunction tag .refused (stopAskingFor tag s)))

/-- A lock loss before E: the entry asks again (R124). -/
def loseBeforeE (tag : Nat) (s : State) : State :=
  raise 27 tag 1 (formCeiling (startAskingFor tag (enterJunction tag .asking s)))

/-- A lock loss between E and C: the entry is OVERDUE (R124). -/
def loseBeforeC (tag : Nat) (s : State) : State :=
  raise 27 tag 2 (formCeiling (startAskingFor tag (askFor 1 (enterJunction tag .overdue s))))

/-- A lock loss past C: the entry is BREACHED (R124). -/
def loseBeforeX (tag : Nat) (s : State) : State := raise 27 tag 3 (formCeiling (enterJunction tag .breached s))

/-- A lock loss by the marks crossed (R124). -/
def loseLock (tag crossed : Nat) (s : State) : State :=
  if crossed ≤ 1 then loseBeforeE tag s else if crossed = 2 then loseBeforeC tag s else loseBeforeX tag s

/-- An answer judged for an asking entry (R121). -/
def answerAsking (tag : Nat) (j : JunctionEntry) (a : PointAnswer) (s : State) : State :=
  match a.verdict with
  | .accepted => if pointsTo a j.direction && a.locked then becomeSet tag j s else s
  | .queued => s
  | .refused => becomeRefused tag j s

/-- An answer judged for a SET entry (R124). -/
def answerSet (tag crossed : Nat) (j : JunctionEntry) (a : PointAnswer) (s : State) : State :=
  if pointsTo a j.direction && a.locked then s else loseLock tag crossed s

/-- An answer matched to a slot-holding entry (R110, R121, R124): REFUSED and BREACHED entries ignore it. -/
def takeAnswer (e : Entry) (j : JunctionEntry) (a : PointAnswer) (s : State) : State :=
  match j.state with
  | .asking => answerAsking e.tag j a (recordAnswer e.tag a s)
  | .overdue => answerAsking e.tag j a (recordAnswer e.tag a s)
  | .set => answerSet e.tag e.crossed j a (recordAnswer e.tag a s)
  | _ => s

/-- The slot-holding entry with a junction ID (R110). -/
def holderOf (ident : Nat) (s : State) : Option (Entry × JunctionEntry) :=
  (s.junction.heldTags.filterMap fun tag => namedJunction tag s).find? fun p => p.2.junction == ident

/-- POINT_ANSWER (R110, R121): the bytes as received; what R183 discards changes nothing. -/
def execPointAnswer (telegram : List Byte) (s : State) : Result :=
  .next (
    if hears s then
      match parsePointAnswer (s.cfgN Setting.tramNumber) telegram with
      | none => s
      | some (ident, a) =>
        match holderOf ident s with
        | none => s
        | some (e, j) => takeAnswer e j a s
    else s)

/-- A signal entry acknowledged (R129). -/
def acknowledgeSignal (ident : Nat) (e : Entry) : Entry :=
  e.onSignal fun g => if g.state = .calling ∧ g.signal = ident then { g with state := .acknowledged, timer := none } else g

/-- The tags of the CALLING entries with a signal ID (R129). -/
def callingTags (ident : Nat) (table : List Entry) : List Nat :=
  table.filterMap fun e => match e.body with
    | .signal g => if g.state = .calling ∧ g.signal = ident then some e.tag else none
    | _ => none

/-- A PRIORITY ACK taken (R129): the entries, their waiting calls, G3. -/
def takeAck (ident : Nat) (s : State) : State :=
  let tags := callingTags ident s.route.table
  let split := splitSignals s.junction
  let kept := split.2.filter fun i => i.clear || !tags.contains i.tag
  judgeRoute ((s.setRoute { s.route with table := s.route.table.map (acknowledgeSignal ident) }).setJunction
    { s.junction with signalQueue := split.1 ++ kept })

/-- PRIORITY_ACK (R110, R129). -/
def execPriorityAck (telegram : List Byte) (s : State) : Result :=
  .next (
    if hears s then
      match parsePriorityAck (s.cfgN Setting.tramNumber) telegram with
      | none => s
      | some ident => takeAck ident s
    else s)

/-! ### Requests -/

/-- JUNCTION_CANCEL (R127). -/
def execJunctionCancel (tag entryTag : Nat) (s : State) : Result := .next (submit tag (.junctionCancel entryTag) s)

/-- JUNCTION_RETRY (R123). -/
def execJunctionRetry (tag entryTag : Nat) (s : State) : Result := .next (submit tag (.junctionRetry entryTag) s)

/-- MASK (R117). -/
def execMask (tag requester : Nat) (s : State) : Result := .next (submit tag (.mask requester) s)

/-- UNMASK (R117). -/
def execUnmask (tag requester : Nat) (s : State) : Result := .next (submit tag (.unmask requester) s)

end Sys2Proof.Machine
end

