-- ==== Sys2Proof/Machine/Resets.lean ====
section
/-! DEFINITION. The meanings of the resets: POWER_UP, RESTART_FULL, RESTART_JOURNEY. -/

namespace Sys2Proof.Machine

/-- POWER_UP (R180). -/
def execPowerUp (s : State) : Result := .next (powerUp s)

/-- RESTART_FULL: the frame of a RESTART that carries FULL (R179). -/
def execRestartFull (tag : Nat) (s : State) : Result := .next (submit tag (.restart 0) s)

/-- RESTART_JOURNEY: the frame of a RESTART that carries JOURNEY (R179). -/
def execRestartJourney (tag : Nat) (s : State) : Result := .next (submit tag (.restart 1) s)

end Sys2Proof.Machine
end

