-- ==== Sys2Proof/Machine/Route.lean ====
section
/-! DEFINITION. The meanings of the route commands (05): each the frame of its request. -/

namespace Sys2Proof.Machine

/-- ROUTE_START (R82). -/
def execRouteStart (tag origin : Nat) (s : State) : Result := .next (submit tag (.routeStart origin) s)

/-- ROUTE_END (R83). -/
def execRouteEnd (tag : Nat) (s : State) : Result := .next (submit tag .routeEnd s)

/-- ROUTE_INSERT (R90). -/
def execRouteInsert (tag : Nat) (entry : EntryRecord) (s : State) : Result := .next (submit tag (.routeInsert entry) s)

/-- ROUTE_REMOVE (R92). -/
def execRouteRemove (tag entryTag : Nat) (s : State) : Result := .next (submit tag (.routeRemove entryTag) s)

/-- ROUTE_READ (R93). -/
def execRouteRead (tag selector which : Nat) (s : State) : Result := .next (submit tag (.routeRead selector which) s)

end Sys2Proof.Machine
end

