-- ==== Sys2Proof/Machine/Settings.lean ====
section
/-! DEFINITION. The meanings of the settings store's commands (09). -/

namespace Sys2Proof.Machine

/-- SET (R166). -/
def execSet (tag number : Nat) (value : Int) (s : State) : Result := .next (submit tag (.set number value) s)

/-- GET (R171). -/
def execGet (tag number : Nat) (s : State) : Result := .next (submit tag (.get number) s)

/-- FREEZE (R170). -/
def execFreeze (tag group : Nat) (s : State) : Result := .next (submit tag (.freeze group) s)

/-- THAW (R170). -/
def execThaw (tag group : Nat) (s : State) : Result := .next (submit tag (.thaw group) s)

end Sys2Proof.Machine
end

