-- ==== Sys2Proof/Machine/Sound.lean ====
section
/-! DEFINITION. The meanings of the sound unit's commands (08). -/

namespace Sys2Proof.Machine

/-! ### Steps and strikes (R152, R154) -/

/-- The expiry of the step a player is sounding. -/
def Player.expiry? : Player → Option Nat
  | .playing _ _ _ t => some t
  | _ => none

/-- The next step of pattern `p`, of record `r`, after step `step` of pass `pass`; none when the pattern has ended
(R154). -/
def nextStep (r : Pattern) (step pass : Nat) : Option (PatternStep × Nat × Nat) :=
  match r.steps[step + 1]? with
  | some st => some (st, step + 1, pass)
  | none => if r.passes = 0 ∨ pass + 1 < r.passes then r.steps.head?.map fun st => (st, 0, pass + 1) else none

/-- The player of a channel at its step's expiry (R154). -/
def stepPlayer (c : SoundChannel) (s : State) : State :=
  match (s.sound.line c).player with
  | .playing p step pass _ =>
    match (s.sound.pattern p).bind fun r => nextStep r step pass with
    | some (st, step', pass') => enterStep c p st step' pass' s.now s
    | none => leavePlayer c s
  | _ => s

/-- STEP_EXPIRY (R154). -/
def execStepExpiry (channel : SoundChannel) (s : State) : Result :=
  .next (atExpiry (s.sound.line channel).player.expiry? (stepPlayer channel) s)

/-- STRIKE_PULSE_EXPIRY (R152). -/
def execStrikePulseExpiry (s : State) : Result :=
  .next (atExpiry s.sound.pulse (fun s => s.setSound { s.sound with pulse := none }) s)

/-! ### The bell (R159) -/

/-- A press of the pedal takes the BELL channel (R159). -/
def pressBell (s : State) : State :=
  let driven := driverTakes .bell 16 s
  strike (driven.setSound { driven.sound with
    bellHold := some s.now
    bellDue := some (s.now + s.cfgN Setting.bellInterval) })

/-- BELL_PEDAL_PRESS (R159, R161): acts in the LEAD role alone. -/
def execBellPedalPress (s : State) : Result :=
  .next (
    if s.pins.bellPedal then s
    else
      let held := s.setPins { s.pins with bellPedal := true }
      if s.lines.role = .lead then pressBell held else held)

/-- BELL_PEDAL_RELEASE (R159). -/
def execBellPedalRelease (s : State) : Result := .next (releaseBell (s.setPins { s.pins with bellPedal := false }))

/-- A further strike falls due (R159). -/
def strikeAgain (s : State) : State :=
  strike (s.setSound { s.sound with bellDue := some (s.now + s.cfgN Setting.bellInterval) })

/-- BELL_INTERVAL_EXPIRY (R159). -/
def execBellIntervalExpiry (s : State) : Result := .next (atExpiry s.sound.bellDue strikeAgain s)

/-! ### The horn (R160) -/

/-- A press of the button takes the HORN channel (R160): a tail ends, and the hold is judged from this press. -/
def pressHorn (s : State) : State :=
  let driven := driverTakes .horn 17 s
  driven.setSound { driven.sound with hornHold := some s.now, hornTail := none }

/-- HORN_PRESS (R160, R161): acts in the LEAD role alone. -/
def execHornPress (s : State) : Result :=
  .next (
    if s.pins.hornButton then s
    else
      let held := s.setPins { s.pins with hornButton := true }
      if s.lines.role = .lead then pressHorn held else held)

/-- The button is released after a press at `pressed` (R160): the horn ends, or a tail runs to the horn minimum. -/
def releaseHorn (pressed : Nat) (s : State) : State :=
  let full := pressed + s.cfgN Setting.hornMinimum
  if full ≤ s.now then endHorn s else s.setSound { s.sound with hornHold := none, hornTail := some full }

/-- HORN_RELEASE (R160). -/
def execHornRelease (s : State) : Result :=
  let lifted := s.setPins { s.pins with hornButton := false }
  .next (match s.sound.hornHold with
    | some t => releaseHorn t lifted
    | none => lifted)

/-- HORN_TAIL_EXPIRY (R160). -/
def execHornTailExpiry (s : State) : Result := .next (atExpiry s.sound.hornTail endHorn s)

/-! ### Requests -/

/-- PLAY (R162). -/
def execPlay (tag pattern : Nat) (s : State) : Result := .next (submit tag (.play pattern) s)

/-- SILENCE (R162). -/
def execSilence (tag pattern : Nat) (s : State) : Result := .next (submit tag (.silence pattern) s)

/-- PATTERN_LOAD (R153). -/
def execPatternLoad (tag : Nat) (pattern : PatternRecord) (s : State) : Result := .next (submit tag (.patternLoad pattern) s)

end Sys2Proof.Machine
end

