-- ==== Sys2Proof/Machine/StopRequests.lean ====
section
/-! DEFINITION. The meanings of the stop-request unit's commands (07). -/

namespace Sys2Proof.Machine

/-- SCAN (R133), at its due time, on the converter's 24 readings, one for each channel; those of channels the scan does not
visit are not looked at. A scan without its readings is no scan: it faults (log entry 30). -/
def execScan (readings : List Nat) (s : State) : Result :=
  if readings.length = 24 then .next (scanButtons readings (s.reach s.stop.scanDue)) else .fault .scanReadingMissing

/-- The moment the press time of a channel reaches the stuck time (R140). -/
def stuckAt (channel : Nat) (s : State) : Option Nat :=
  match s.stop.buttons[channel]? with
  | some b => if b.isPressed then b.pressSince.map (· + s.cfgN Setting.stuckTime * 1000) else none
  | none => none

/-- The press of a channel dropped as stuck, with its event (R140). DEDUCED (log entries 5, 23): the row carries no reading, where
R140 reports and rebaselines on the one of the scan at the stuck time; the last scan's reading stands for it. The command counts
as the scan whose effect it brings, so BUTTON READ, which gives the last completed scan's figures (R147), shows the drop at once
(DEDUCED, log entry 61). -/
def dropPress (channel : Nat) (s : State) : State :=
  match s.stop.buttons[channel]? with
  | none => s
  | some b =>
    let dropped := b.dropStuck (b.scannedAs.getD .sensed)
    raise 14 channel b.reading (s.setStop { s.stop with buttons := s.stop.buttons.set channel dropped })

/-- BUTTON_STUCK (R140). -/
def execButtonStuck (channel : Nat) (s : State) : Result := .next (atExpiry (stuckAt channel s) (dropPress channel) s)

/-- STOP_CANCEL (R144): STOP_CANCEL becomes asserted; judged in the LEAD role alone. -/
def execStopCancel (s : State) : Result := .next (if s.lines.role = .lead then clearStopLatch s else s)

/-- The STOPREQ line sensed at a new level (R145): a unit that drives the line senses nothing; a passage from released to
asserted is an edge. -/
def senseStopreq (s : State) : State :=
  if s.stop.latch.isSome then s
  else
    let sensed := s.setStop { s.stop with sensed := s.pins.stopreqLine }
    if s.pins.stopreqLine && !s.stop.sensed then trigger .trainline false sensed else sensed

/-- STOPREQ_EDGE (R145): the level the others give the line. -/
def execStopreqEdge (asserted : Bool) (s : State) : Result :=
  .next (if s.pins.stopreqLine = asserted then s else senseStopreq (s.setPins { s.pins with stopreqLine := asserted }))

/-- STOP_REQUEST (R146). -/
def execStopRequest (tag accessible : Nat) (s : State) : Result := .next (submit tag (.stopRequest accessible) s)

/-- STOP_CLEAR (R146). -/
def execStopClear (tag : Nat) (s : State) : Result := .next (submit tag .stopClear s)

/-- BUTTON_READ (R147). -/
def execButtonRead (tag channel : Nat) (s : State) : Result := .next (submit tag (.buttonRead channel) s)

end Sys2Proof.Machine
end

