-- ==== Sys2Proof/Machine/TractionUnit.lean ====
section
/-! DEFINITION. The meanings of the traction unit's commands (02) and of DOOR_RELEASE. -/

namespace Sys2Proof.Machine

/-- The pins a pass reads, written from the command (R25). -/
def takeInputs (i : PassInputs) (s : State) : State :=
  s.setPins { s.pins with handle := i.handle, dirF := i.dirF, dirR := i.dirR, tlFwd := i.tlFwd, tlRev := i.tlRev }

/-- CONTROL_PERIOD (R25), at its due time. -/
def execControlPeriod (inputs : PassInputs) (s : State) : Result :=
  .next (effortPass (takeInputs inputs (s.reach s.traction.passDue)))

/-- DIRECTION_SETTLE_EXPIRY (R28). -/
def execDirectionSettleExpiry (s : State) : Result :=
  .next (atExpiry s.traction.settle (fun s => s.setTraction { s.traction with settle := none }) s)

/-- The start of an invalid-code run, in the LEAD role, where alone the handle is decoded (R30, R31). -/
def invalidSince (s : State) : Option Nat := if s.lines.role = .lead then s.traction.invalidRun else none

/-- The handle hold ends (R31): the handle no longer counts as in EMERGENCY. H is formed at the passes alone, 0 from the next
one on, so the H of the previous pass stays for R76. -/
def endHandleHold (s : State) : State := noEmergency s

/-- HANDLE_HOLD_EXPIRY (R31): the invalid-code run reaches 200 ms. -/
def execHandleHoldExpiry (s : State) : Result := .next (atExpiry ((invalidSince s).map (· + 200)) endHandleHold s)

/-- HANDLE_FAULT (R31): the invalid-code run reaches 1 s, once for the run. -/
def execHandleFault (s : State) : Result :=
  .next (if s.traction.handleFaultMark then s else atExpiry ((invalidSince s).map (· + 1000)) raiseHandleFault s)

/-- The start of a demand-loss run that has not yet lost DEMAND, in the TRAIL role (R32). -/
def demandLossSince (s : State) : Option Nat :=
  if s.lines.role = .trail ∧ s.halt.causes.demandLost = false then s.traction.demandLoss else none

/-- DEMAND_LOST (R32): the demand-loss run has lasted 100 ms. DEDUCED (log entry 5): R32 ends a run at the pass that finds u
valid, so a run that no such pass has ended yet still loses DEMAND here, even where the last window already measured a valid u;
that u is the event's value. -/
def execDemandLost (s : State) : Result := .next (atExpiry ((demandLossSince s).map (· + 100)) loseDemand s)

/-- DOOR_RELEASE becomes asserted (R21, R144, R149), in the order of log entry 22. -/
def openDoors (s : State) : State :=
  clearStopLatch (serveStops (enterInhibited (s.setPins { s.pins with doorRelease := true })))

/-- DOOR_RELEASE_ASSERTED (R21). -/
def execDoorReleaseAsserted (s : State) : Result := .next (if s.pins.doorRelease then s else openDoors s)

/-- DOOR_RELEASE_RELEASED (R22): the reason ends; the next control period judges the exit. -/
def execDoorReleaseReleased (s : State) : Result := .next (s.setPins { s.pins with doorRelease := false })

end Sys2Proof.Machine
end

