-- ==== Sys2Proof/Machine/Dispatch.lean ====
section
/-! DEFINITION. Every command and its meaning, one arm for each row of spec/opcode_table.json. -/

namespace Sys2Proof.Machine

def exec (i : Instr) (s : State) : Host.Outcome State Fault Refusal :=
  match i with
  | .powerUp => Sys2Proof.Machine.execPowerUp s
  | .restartFull tag => Sys2Proof.Machine.execRestartFull tag s
  | .restartJourney tag => Sys2Proof.Machine.execRestartJourney tag s
  | .encoderEdge channel phaseA phaseB => Sys2Proof.Machine.execEncoderEdge channel phaseA phaseB s
  | .phaseErrorWindowExpiry channel => Sys2Proof.Machine.execPhaseErrorWindowExpiry channel s
  | .speedSample => Sys2Proof.Machine.execSpeedSample s
  | .axleSuspect => Sys2Proof.Machine.execAxleSuspect s
  | .agreementRunComplete channel => Sys2Proof.Machine.execAgreementRunComplete channel s
  | .standstillSet => Sys2Proof.Machine.execStandstillSet s
  | .axleRead tag channel => Sys2Proof.Machine.execAxleRead tag channel s
  | .axleReset tag channel => Sys2Proof.Machine.execAxleReset tag channel s
  | .controlPeriod inputs => Sys2Proof.Machine.execControlPeriod inputs s
  | .directionSettleExpiry => Sys2Proof.Machine.execDirectionSettleExpiry s
  | .handleHoldExpiry => Sys2Proof.Machine.execHandleHoldExpiry s
  | .handleFault => Sys2Proof.Machine.execHandleFault s
  | .demandLost => Sys2Proof.Machine.execDemandLost s
  | .adhesionFault bogie => Sys2Proof.Machine.execAdhesionFault bogie s
  | .sandRunExpiry => Sys2Proof.Machine.execSandRunExpiry s
  | .sandRestExpiry => Sys2Proof.Machine.execSandRestExpiry s
  | .doorReleaseAsserted => Sys2Proof.Machine.execDoorReleaseAsserted s
  | .doorReleaseReleased => Sys2Proof.Machine.execDoorReleaseReleased s
  | .haltReleased => Sys2Proof.Machine.execHaltReleased s
  | .halt tag => Sys2Proof.Machine.execHalt tag s
  | .resume tag => Sys2Proof.Machine.execResume tag s
  | .vigilPress => Sys2Proof.Machine.execVigilPress s
  | .vigilRelease => Sys2Proof.Machine.execVigilRelease s
  | .holdLimitExpiry => Sys2Proof.Machine.execHoldLimitExpiry s
  | .graceExpiry => Sys2Proof.Machine.execGraceExpiry s
  | .warnToHaltExpiry => Sys2Proof.Machine.execWarnToHaltExpiry s
  | .repressWindowExpiry => Sys2Proof.Machine.execRepressWindowExpiry s
  | .roleInputChange activeCab coupling => Sys2Proof.Machine.execRoleInputChange activeCab coupling s
  | .demandWindowExpiry highMicros => Sys2Proof.Machine.execDemandWindowExpiry highMicros s
  | .haltLineChange asserted => Sys2Proof.Machine.execHaltLineChange asserted s
  | .startEmissionExpiry => Sys2Proof.Machine.execStartEmissionExpiry s
  | .startEdge => Sys2Proof.Machine.execStartEdge s
  | .startRetentionExpiry => Sys2Proof.Machine.execStartRetentionExpiry s
  | .routeStart tag origin => Sys2Proof.Machine.execRouteStart tag origin s
  | .routeEnd tag => Sys2Proof.Machine.execRouteEnd tag s
  | .routeInsert tag entry => Sys2Proof.Machine.execRouteInsert tag entry s
  | .routeRemove tag entryTag => Sys2Proof.Machine.execRouteRemove tag entryTag s
  | .routeRead tag selector which => Sys2Proof.Machine.execRouteRead tag selector which s
  | .loopOkReleased assertedAgain => Sys2Proof.Machine.execLoopOkReleased assertedAgain s
  | .loopReset tag => Sys2Proof.Machine.execLoopReset tag s
  | .telegramAirtimeEnd => Sys2Proof.Machine.execTelegramAirtimeEnd s
  | .answerWindowExpiry => Sys2Proof.Machine.execAnswerWindowExpiry s
  | .slotRepeatExpiry slot => Sys2Proof.Machine.execSlotRepeatExpiry slot s
  | .signalRepeatExpiry entryTag => Sys2Proof.Machine.execSignalRepeatExpiry entryTag s
  | .pointAnswer telegram => Sys2Proof.Machine.execPointAnswer telegram s
  | .priorityAck telegram => Sys2Proof.Machine.execPriorityAck telegram s
  | .junctionCancel tag entryTag => Sys2Proof.Machine.execJunctionCancel tag entryTag s
  | .junctionRetry tag entryTag => Sys2Proof.Machine.execJunctionRetry tag entryTag s
  | .mask tag requester => Sys2Proof.Machine.execMask tag requester s
  | .unmask tag requester => Sys2Proof.Machine.execUnmask tag requester s
  | .scan readings => Sys2Proof.Machine.execScan readings s
  | .buttonStuck channel => Sys2Proof.Machine.execButtonStuck channel s
  | .stopCancel => Sys2Proof.Machine.execStopCancel s
  | .stopreqEdge asserted => Sys2Proof.Machine.execStopreqEdge asserted s
  | .stopRequest tag accessible => Sys2Proof.Machine.execStopRequest tag accessible s
  | .stopClear tag => Sys2Proof.Machine.execStopClear tag s
  | .buttonRead tag channel => Sys2Proof.Machine.execButtonRead tag channel s
  | .stepExpiry channel => Sys2Proof.Machine.execStepExpiry channel s
  | .strikePulseExpiry => Sys2Proof.Machine.execStrikePulseExpiry s
  | .bellPedalPress => Sys2Proof.Machine.execBellPedalPress s
  | .bellPedalRelease => Sys2Proof.Machine.execBellPedalRelease s
  | .bellIntervalExpiry => Sys2Proof.Machine.execBellIntervalExpiry s
  | .hornPress => Sys2Proof.Machine.execHornPress s
  | .hornRelease => Sys2Proof.Machine.execHornRelease s
  | .hornTailExpiry => Sys2Proof.Machine.execHornTailExpiry s
  | .play tag pattern => Sys2Proof.Machine.execPlay tag pattern s
  | .silence tag pattern => Sys2Proof.Machine.execSilence tag pattern s
  | .patternLoad tag pattern => Sys2Proof.Machine.execPatternLoad tag pattern s
  | .set tag number value => Sys2Proof.Machine.execSet tag number value s
  | .get tag number => Sys2Proof.Machine.execGet tag number s
  | .freeze tag group => Sys2Proof.Machine.execFreeze tag group s
  | .thaw tag group => Sys2Proof.Machine.execThaw tag group s
  | .byteReceived byte framingError => Sys2Proof.Machine.execByteReceived byte framingError s
  | .frameGapExpiry => Sys2Proof.Machine.execFrameGapExpiry s
  | .replyEnd => Sys2Proof.Machine.execReplyEnd s
  | .unknownKindRequest tag kind => Sys2Proof.Machine.execUnknownKindRequest tag kind s
  | .ident tag => Sys2Proof.Machine.execIdent tag s
  | .status tag => Sys2Proof.Machine.execStatus tag s
  | .events tag n => Sys2Proof.Machine.execEvents tag n s

end Sys2Proof.Machine
end

