-- ==== Sys2Proof/Safety.lean ====
section
/-! DEFINITION. What counts as a lawful state of the part, law by law, and the words the statements are written in: a host
link that is ready, the state after a reply, the rows that are host requests. -/

namespace Sys2Proof.Machine

/-! ### Laws of single blocks -/

/-- The pending-event set as EVENTS may return it (R177, R178): in its order, so with no two records of one kind and
subject; at most 64 records; marked incomplete only while it holds some. -/
structure EventLaw (h : HostLink) : Prop where
  ordered : h.events.Pairwise fun a b => a.before b = true
  room : h.events.length ≤ Config.maxEvents
  marked : h.incomplete = true → h.events ≠ []

/-- The group a setting number belongs to is LOCKED (R165). -/
def heldBack (st : SettingsStore) (n : Nat) : Bool := (groupOf n).any st.locked.get

/-- Every value ever set, or pending, lies in the range of its setting; a value is pending in a LOCKED group alone (R166,
R168). -/
structure SettingsLaw (st : SettingsStore) : Prop where
  effective : ∀ p ∈ st.effective, settingAllows p.1 p.2 = true
  pending : ∀ p ∈ st.pending, settingAllows p.1 p.2 = true
  held : ∀ p ∈ st.pending, heldBack st p.1 = true

/-- The marks of an entry as the host gave them (R87). -/
def EntryBody.given : EntryBody → List Nat
  | .junction j => [j.markA, j.markE, j.markC, j.markX]
  | .signal g => [g.callIn, g.callOff]
  | .stop p => [p.approach, p.stopMark]
  | .restriction r => [r.start, r.finish]

/-- An entry that could have been inserted (R87, R90): a tag, marks in order and within the route's limits. -/
structure EntryLaw (e : Entry) : Prop where
  tagged : e.tag ≠ 0
  ordered : e.body.ordered = true
  fits : ∀ m ∈ e.body.given, m ≤ Config.maxDistance

/-- The route engine within its limits (R84, R85, R87, R88, R83): the distance and residue in range, at most 96 entries, each
one insertable, no tag twice, ascending key marks, none on an inactive route. -/
structure RouteLaw (r : RouteEngine) : Prop where
  distance : r.distance ≤ Config.maxDistance
  residue : r.residue < Config.unitsPerDm
  room : r.table.length ≤ Config.maxEntries
  entries : ∀ e ∈ r.table, EntryLaw e
  tags : (r.table.map (·.tag)).Nodup
  sorted : r.table.Pairwise fun a b => a.body.key ≤ b.body.key
  inactive : r.active = false → r.table = []

/-- The vigilance monitor runs a timer exactly in the four states that have one (R68). -/
def VigilLaw (v : Vigilance) : Prop :=
  v.timer.isSome = true ↔
    v.state = .held ∨ v.state = .released ∨ v.state = .warnReleased ∨ v.state = .warnHeld

/-- The demand and direction train lines are driven by a LEAD alone (R45, R72, R73). -/
def LineLaw (l : TrainLines) : Prop :=
  l.demandDrive.isSome = true ∨ l.tlFwdDrive = true ∨ l.tlRevDrive = true → l.role = .lead

/-- A channel's waiting queue holds at most four patterns (R155). -/
def SoundLaw (u : SoundUnit) : Prop := ∀ c, (u.line c).queue.length ≤ Config.maxWaiting

/-- The cancel queue and the slots it keeps from being free (R113): at most four telegrams, one for each slot; a slot is kept
exactly while its telegram waits. -/
structure CancelLaw (u : JunctionUnit) : Prop where
  room : u.cancelQueue.length ≤ 4
  once : (u.cancelQueue.map (·.slot)).Nodup
  kept : ∀ i, (u.slot i).holder = .cancelled ↔ ∃ c ∈ u.cancelQueue, c.slot = i

/-- The queues of the part within their places (R114, R155, R174). -/
structure QueueLaw (s : State) : Prop where
  sounds : SoundLaw s.sound
  signals : s.junction.signalQueue.length ≤ Config.maxSignals
  requests : s.host.queue.length ≤ Config.maxRequests

/-! ### Laws across blocks -/

/-- The traction unit is HALTED exactly while the halt latch is set (R24, R62); a cause is present only while it is set
(R62, R67). -/
structure HaltLaw (s : State) : Prop where
  halted : s.traction.state = .halted ↔ s.halt.latch.isSome = true
  latched : s.halt.causes.any = true → s.halt.latch.isSome = true

/-- E lies in −1000..1000 (02, opening table), and so does the last valid H (R30). -/
structure RangeLaw (t : Traction) : Prop where
  effort : -1000 ≤ t.effort ∧ t.effort ≤ 1000
  lastH : -1000 ≤ t.lastH ∧ t.lastH ≤ 1000

/-- E is positive only through an open power gate (R19, R20). -/
def GateLaw (t : Traction) : Prop := 0 < t.effort → t.state = .running ∧ t.overspeed = false

/-- What the effort chain keeps: settings in range, HALTED with the latch, E in range and never positive through a closed
gate. -/
structure PowerLaw (s : State) : Prop where
  settings : SettingsLaw s.settings
  halt : HaltLaw s
  range : RangeLaw s.traction
  gate : GateLaw s.traction

/-- What the adhesion section keeps of the effort (R42, R43, R46, R49, R52, R54, R165): the limits in use are not negative; each
factor lies in k_min..1000; with E last judged to be 0 both bogies are at rest in ADHERING, with factor 1000; else G2, the group of
k_min, is LOCKED; a bogie effort is positive only with E. -/
structure BogieLaw (s : State) : Prop where
  limits : 0 ≤ s.traction.powerLimit ∧ 0 ≤ s.traction.brakeLimit
  factors : ∀ i, s.cfg Setting.kMin ≤ (s.adhesion.bogie i).k ∧ (s.adhesion.bogie i).k ≤ 1000
  rest : s.settings.effortHeld = false → ∀ i, s.adhesion.bogie i = .adhering
  held : s.settings.effortHeld = true → s.settings.locked.g2 = true
  share : 0 < s.traction.effortA ∨ 0 < s.traction.effortB → 0 < s.traction.effort

/-- The unit drives the HALT line exactly while a cause that counts is present and its HALT output is enabled (R74). -/
def DriveLaw (s : State) : Prop :=
  s.lines.halting = true ↔ s.cfg Setting.haltOutput = 1 ∧ s.halt.causes.counts = true

/-- SAND is asserted only on the move and with no sand inhibit (R56, R57, R102). -/
def SandLaw (s : State) : Prop := sandAsserted s = true → s.axle.standstill = false ∧ s.route.sandInhibit = false

/-- The halt latch is STOPPED exactly at standstill, BRAKING on the move (R64). -/
def LatchLaw (s : State) : Prop := ∀ r, s.halt.latch = some r → r.stopped = s.axle.standstill

/-- JUNCTION is present exactly while an entry is OVERDUE, REFUSED or BREACHED, BREACH exactly while one is BREACHED (R61). -/
def CausesFollow (t : State) : Prop :=
  (t.halt.causes.junction = true ↔ ∃ x ∈ t.route.table, ∃ k, x.body = .junction k ∧
    (k.state = .overdue ∨ k.state = .refused ∨ k.state = .breached)) ∧
  (t.halt.causes.breach = true ↔ ∃ x ∈ t.route.table, ∃ k, x.body = .junction k ∧ k.state = .breached)

/-- The vigilance monitor watches a moving LEAD (R68): it is then not OFF, its four timed states occur only then, and it is
TRIPPED only in a LEAD. VIGILANCE is present exactly while it is TRIPPED (R61, R71). -/
structure MonitorLaw (s : State) : Prop where
  active : s.lines.role = .lead → s.axle.standstill = false → s.vigilance.state ≠ .off
  watching : s.vigilance.state = .held ∨ s.vigilance.state = .released ∨ s.vigilance.state = .warnReleased ∨
    s.vigilance.state = .warnHeld → s.lines.role = .lead ∧ s.axle.standstill = false
  tripped : s.vigilance.state = .tripped → s.lines.role = .lead
  cause : s.halt.causes.vigilance = true ↔ s.vigilance.state = .tripped

/-- Every group is LOCKED exactly while its lock condition holds or its freeze flag is set (R165): G0, G1 and G6 on the move, G2
while E was last judged not to be 0, as every E is that is not 0, G3 while an entry holds a slot or a signal entry is CALLING,
G4 while the stop-request latch is set, G5 while a player is not IDLE. -/
structure LockLaw (s : State) : Prop where
  moving : ∀ g, g = .g0 ∨ g = .g1 ∨ g = .g6 →
    (s.settings.locked.get g = true ↔ s.axle.standstill = false ∨ s.settings.frozen.get g = true)
  effort : s.settings.locked.g2 = true ↔ s.settings.effortHeld = true ∨ s.settings.frozen.g2 = true
  judged : s.traction.effort ≠ 0 → s.settings.effortHeld = true
  route : s.settings.locked.g3 = true ↔ (∃ i tag, (s.junction.slot i).holder = .entry tag) ∨
    (∃ e ∈ s.route.table, ∃ g, e.body = .signal g ∧ g.state = .calling) ∨ s.settings.frozen.g3 = true
  buttons : s.settings.locked.g4 = true ↔ s.stop.latch ≠ none ∨ s.settings.frozen.g4 = true
  sound : s.settings.locked.g5 = true ↔ (∃ c, (s.sound.line c).player ≠ .idle) ∨ s.settings.frozen.g5 = true

/-! ### The tables and steps the statements compare with -/

/-- The edges the table of R1 counts +1, and the edge R2 does: from levels `a`, `b` to `a'`, `b'`. -/
def countsUp (mode : DecodeMode) (a b a' b' : Bool) : Bool :=
  match mode with
  | .phase4x => (!a && a' && !b) || (!b && b' && a) || (a && !a' && b) || (b && !b' && !a)
  | .phase2x => (!a && a' && !b) || (a && !a' && b)
  | .phase1x => !a && a' && !b
  | .pulseDir => !a && a' && b'

/-- The edges the table of R1 counts −1, and the edge R2 does. -/
def countsDown (mode : DecodeMode) (a b a' b' : Bool) : Bool :=
  match mode with
  | .phase4x => (!a && a' && b) || (!b && b' && !a) || (a && !a' && !b) || (b && !b' && a)
  | .phase2x => (!a && a' && b) || (a && !a' && !b)
  | .phase1x => !a && a' && b
  | .pulseDir => !a && a' && !b'

/-- A figure in the wheel's sense with the sign of the travel sense (R4). -/
def signed (sense : Sense) (x : Int) : Int := if sense = .forward then x else -x

/-- One step of the ramp of R40 takes E from `e` to `e'`, the target being `t`. -/
structure RampStep (rp rb rr e t e' : Int) : Prop where
  stay : e = t → e' = e
  buildPower : 0 ≤ e → e < t → e' = min t (e + rp)
  buildBrake : e ≤ 0 → t < e → e' = max t (e - rb)
  releasePower : 0 ≤ t → t < e → e' = max t (e - rr)
  releaseBrake : t ≤ 0 → e < t → e' = min t (e + rr)
  reversePower : 0 < e → t < 0 → e' = max 0 (e - rr)
  reverseBrake : e < 0 → 0 < t → e' = min 0 (e + rr)

/-- The table of R72: the role a sampling decides. -/
def roleTable (present : Role) (activeCab coupling : Bool) : Role :=
  if activeCab then (if present = .conflict ∧ coupling = true then .conflict else .lead)
  else if coupling then .trail else .noCab

/-- The position the two direction lines give (R26). -/
def selected (first second : Bool) : Position :=
  if first = second then .neutral else if first then .forward else .reverse

/-! ### The route as a sweep leaves it -/

/-- The state of a junction entry after the crossing of its mark `k`: 0 A, 1 E, 2 C, 3 X (R118, R120, R125, R126). -/
def junctionAt (st : JunctionState) (k : Nat) : JunctionState :=
  if k = 0 ∧ st = .pending then .asking
  else if k = 1 ∧ st = .asking then .overdue
  else if k = 2 ∧ (st = .asking ∨ st = .overdue ∨ st = .refused) then .breached
  else if k = 3 ∧ (st = .set ∨ st = .breached) then .passed
  else st

/-- The state of a signal entry after the crossing of its mark `k`: 0 call-in, 1 call-off (R128, R130). -/
def signalAt (st : SignalState) (k : Nat) : SignalState :=
  if k = 0 ∧ st = .ahead then .calling
  else if k = 1 ∧ (st = .calling ∨ st = .acknowledged) then .calledOff
  else st

/-- The state of a stop entry after the crossing of its mark `k`: 0 approach, 1 stop mark, 2 pass point (R148, R149); `latched`
says that the stop-request latch is set. -/
def stopAt (requestOnly latched : Bool) (st : StopState) (k : Nat) : StopState :=
  if k = 0 ∧ st = .ahead then (if requestOnly = true ∧ latched = false then .approaching else .announced)
  else if k = 2 ∧ (st = .approaching ∨ st = .announced) then .passed
  else st

/-- The state of a restriction after the crossing of its mark `k`: 0 start, 1 clear point (R99). -/
def restrictionAt (st : RestrictionState) (k : Nat) : RestrictionState :=
  if k = 0 ∧ st = .ahead then .active else if k = 1 ∧ st = .active then .done else st

/-- The marks of an entry in mark order, the derived one with them (R87). -/
def EntryBody.crossable (zoneAfter setLength : Nat) : EntryBody → List Nat
  | .junction j => [j.markA, j.markE, j.markC, j.markX]
  | .signal g => [g.callIn, g.callOff]
  | .stop p => [p.approach, p.stopMark, p.stopMark + zoneAfter + 1]
  | .restriction r => [r.start, r.finish + setLength]

/-- The numbers of the marks an entry crosses when the route distance comes to `d`: on a rise its uncrossed marks up to the
first beyond `d` (R95, R96), otherwise the clear point of a restriction that has it as its next mark (R95, R99). -/
def Entry.crossings (rose : Bool) (d zoneAfter setLength : Nat) (e : Entry) : List Nat :=
  if rose then
    List.range' e.crossed
      (((e.body.crossable zoneAfter setLength).drop e.crossed).takeWhile fun m => decide (m ≤ d)).length
  else match e.body with
    | .restriction r => if e.crossed = 1 ∧ r.finish + setLength ≤ d then [1] else []
    | _ => []

/-- An entry's fields after the crossing of its marks `ks`; a signal that comes to call repeats at `again` (R128), and one called
off repeats no more (R130). -/
def EntryBody.after (ks : List Nat) (latched : Bool) (again : Nat) : EntryBody → EntryBody
  | .junction j => .junction { j with state := ks.foldl junctionAt j.state }
  | .signal g =>
    let st := ks.foldl signalAt g.state
    .signal { g with
      state := st
      timer := if st = g.state then g.timer else if st = .calling then some again else none }
  | .stop p => .stop { p with state := ks.foldl (stopAt p.requestOnly latched) p.state }
  | .restriction r => .restriction { r with state := ks.foldl restrictionAt r.state }

/-- A junction entry's fields with another count of telegrams sent, which a grant raises (R111); other kinds as they are. -/
def EntryBody.resent (n : Nat) : EntryBody → EntryBody
  | .junction j => .junction { j with sent := n }
  | b => b

/-- A junction entry's fields with one more telegram sent, up to 65,535 (R111); other kinds as they are. -/
def EntryBody.sentOnce : EntryBody → EntryBody
  | .junction j => .junction { j with sent := min 65535 (j.sent + 1) }
  | b => b

/-- An entry in a final state whose last mark lies the retire distance or more behind `d` (R100). -/
def EntryBody.leaves (zoneAfter setLength retire d : Nat) : EntryBody → Prop
  | .junction j => (j.state = .passed ∨ j.state = .cancelled) ∧ j.markX + retire ≤ d
  | .signal g => g.state = .calledOff ∧ g.callOff + retire ≤ d
  | .stop p => (p.state = .served ∨ p.state = .passed) ∧ p.stopMark + zoneAfter + retire ≤ d
  | .restriction r => r.state = .done ∧ r.finish + setLength + retire ≤ d

/-- The entry leaves the table of `t` at its retirement, under the settings of `s` (R100). -/
def EntryBody.retiresIn (s t : State) (b : EntryBody) : Prop :=
  b.leaves (s.cfgN Setting.zoneAfter) t.route.setLength (s.cfgN Setting.retireDistance) t.route.distance

/-- An entry as a sweep from `s` leaves it at the route distance and set length of `t`. -/
def Entry.swept (rose : Bool) (s t : State) (e : Entry) : Entry :=
  let ks := e.crossings rose t.route.distance (s.cfgN Setting.zoneAfter) t.route.setLength
  { e with
    crossed := e.crossed + ks.length
    body := e.body.after ks s.stop.latch.isSome (t.now + s.cfgN Setting.repeatInterval) }

/-- `t` holds what a sweep and the retirement after it leave of the entries of `before`, in their order (R94, R95, R96, R99,
R100), a junction entry with the telegram more, if any, that a grant within it has counted (R111); once a junction entry changes
its state, the causes follow the entries. -/
structure Swept (before : List Entry) (rose : Bool) (s t : State) : Prop where
  order : (t.route.table.map (·.tag)).Sublist (before.map (·.tag))
  retired : ∀ e ∈ before, (e.swept rose s t).body.retiresIn s t → ∀ x ∈ t.route.table, x.tag ≠ e.tag
  stays : ∀ e ∈ before, ¬(e.swept rose s t).body.retiresIn s t →
    ∃ n, (∀ j, e.body = .junction j → n = j.sent ∨ n = min 65535 (j.sent + 1)) ∧
      { e.swept rose s t with body := (e.swept rose s t).body.resent n } ∈ t.route.table
  causes : (∃ e ∈ before, ∃ j k, e.body = .junction j ∧ (e.swept rose s t).body = .junction k ∧ k.state ≠ j.state) →
    CausesFollow t

/-- A stop entry that stop service finds in its window, its approach crossed (R149). -/
def Entry.servedIn (s : State) (e : Entry) : Prop :=
  ∃ p, e.body = .stop p ∧ (p.state = .approaching ∨ p.state = .announced) ∧ 1 ≤ e.crossed ∧
    p.stopMark ≤ s.route.distance + s.cfgN Setting.zoneBefore ∧ s.route.distance ≤ p.stopMark + s.cfgN Setting.zoneAfter

/-- The entry SERVED, if it is a stop. -/
def Entry.served (e : Entry) : Entry :=
  match e.body with
  | .stop p => { e with body := .stop { p with state := .served } }
  | _ => e

/-- An ACTIVE restriction of the table has the ceiling `c`. -/
def limits (s : State) (c : Int) : Prop :=
  ∃ e ∈ s.route.table, ∃ r, e.body = .restriction r ∧ r.state = .active ∧ r.ceiling = c

/-- The approach ceiling is in force: an ASKING, OVERDUE or REFUSED entry has its A at or behind the route distance (R101). -/
def approaches (s : State) : Prop :=
  ∃ e ∈ s.route.table, ∃ j, e.body = .junction j ∧
    (j.state = .asking ∨ j.state = .overdue ∨ j.state = .refused) ∧ j.markA ≤ s.route.distance

/-- The degraded ceiling is in force: the source is DEGRADED or LOST (R101). -/
def degrades (s : State) : Prop := s.axle.source = .lost ∨ ∃ i, s.axle.source = .degraded i

/-- The effective ceiling is the smallest of the terms in force, and its term the first of those that equal it (R101). -/
structure CeilingFormed (s : State) : Prop where
  line : s.route.ceiling ≤ s.cfg Setting.lineCeiling
  restriction : ∀ c, limits s c → s.route.ceiling ≤ c
  approach : approaches s → s.route.ceiling ≤ s.cfg Setting.approachCeiling
  degraded : degrades s → s.route.ceiling ≤ s.cfg Setting.degradedCeiling
  term : match s.route.term with
    | .line => s.route.ceiling = s.cfg Setting.lineCeiling
    | .restriction => limits s s.route.ceiling ∧ s.route.ceiling < s.cfg Setting.lineCeiling
    | .approach => approaches s ∧ s.route.ceiling = s.cfg Setting.approachCeiling ∧
      s.route.ceiling < s.cfg Setting.lineCeiling ∧ ∀ c, limits s c → s.route.ceiling < c
    | .degraded => degrades s ∧ s.route.ceiling = s.cfg Setting.degradedCeiling ∧
      s.route.ceiling < s.cfg Setting.lineCeiling ∧ (∀ c, limits s c → s.route.ceiling < c) ∧
      (approaches s → s.route.ceiling < s.cfg Setting.approachCeiling)

/-- The sand inhibit is on exactly while the route distance lies within [C, X] of a junction entry (R102). -/
def InhibitFormed (s : State) : Prop :=
  s.route.sandInhibit = true ↔ ∃ e ∈ s.route.table, ∃ j, e.body = .junction j ∧
    j.markC ≤ s.route.distance ∧ s.route.distance ≤ j.markX

/-! ### The arbiter's cycle -/

/-- The place of a requester in the cycle of the six (R115). -/
def Requester.place : Requester → Nat
  | .j0 => 0 | .j1 => 1 | .j2 => 2 | .j3 => 3 | .cancel => 4 | .signal => 5

/-- The place of a rotation position: a requester's own, or LOW after the six (R115). -/
def RotationPosition.place : RotationPosition → Nat
  | .at r => r.place
  | .low => 6

/-- How many places `b` lies after `a` in a cycle of `n`. -/
def ahead (n a b : Nat) : Nat := (b + n - a) % n

/-! ### The words of the statements -/

/-- A request would execute at once (R174): nothing in the input queue, the line out FREE. -/
structure LinkReady (s : State) : Prop where
  queue : s.host.queue = []
  line : s.host.line = .free
  busy : s.host.busy = none
  idle : s.host.headRunning = false

/-- `s` with the request alone in the input queue (R174). -/
def queued (tag : Nat) (r : HostRequest) (s : State) : State := s.setHost { s.host with queue := [⟨tag, r⟩] }

/-- `s` with the head of the queue executed and its reply being sent (R174, R175). -/
def answering (tag : Nat) (r : HostRequest) (reply : Reply) (s : State) : State :=
  s.setHost { s.host with headRunning := true, line := .sending (replyBytes r.kind tag reply) false }

/-- `s` after a request that found the link ready, itself changing nothing (R174, R175). -/
def replied (tag : Nat) (r : HostRequest) (reply : Reply) (s : State) : State := answering tag r reply (queued tag r s)

/-- The line out carries the reply to a request (R175). -/
def Replies (tag : Nat) (r : HostRequest) (status : Status) (body : List Byte) (t : State) : Prop :=
  t.host.line = .sending (replyBytes r.kind tag ⟨status, body⟩) false

/-- The settings store with one group LOCKED or not: every value and every other group as it was. -/
def SettingsStore.relocked (st : SettingsStore) (g : Group) (held : Bool) : SettingsStore :=
  { st with locked := st.locked.put g held }

/-- The set, empty before the event, holds a record of this kind, subject and value after it, unless it has overflowed (R177). -/
def Told (s t : State) (kind subject : Nat) (value : Int) : Prop :=
  s.host.events = [] → t.host.incomplete = false →
    ∃ v ∈ t.host.events, v.kind = kind ∧ v.subject = subject ∧ v.value = value

/-- The set, empty before the event, holds no record of this kind and subject after it. -/
def Untold (s t : State) (kind subject : Nat) : Prop :=
  s.host.events = [] → ∀ v ∈ t.host.events, ¬(v.kind = kind ∧ v.subject = subject)

/-- The latch, clear in `s`, has set by `t` with `first` its first cause (R62, R63): its record has the time of the event and the
distance, speed and standstill flag of `s`, HALT LATCHED is raised with the first cause and the speed, and HALT WARNING is asked
for. -/
structure HaltLatched (first : Cause) (s t : State) : Prop where
  record : t.halt.latch = some ⟨first, t.now, s.route.distance, s.axle.refSpeed, s.axle.standstill⟩
  told : Told s t 30 first.code s.axle.refSpeed
  warned : t.sound = (askFor 0 (s.setNow t.now)).sound

/-- The count of telegrams sent for the entry of `tag` goes from `n` to `m` (R111): one more, up to 65,535, where a turn for the
entry has begun on the way from `s` to `t`, and else the same. -/
def Sends (tag n m : Nat) (s t : State) : Prop :=
  let begun := (∀ turn x, s.junction.transmitter ≠ .sending turn x) ∧
    ∃ turn x, t.junction.transmitter = .sending turn x ∧ turn.entry = some tag
  (begun → m = min 65535 (n + 1)) ∧ (¬begun → m = n)

/-- The command may carry a RESTART FULL out (R173, R174, R179): it is its row, or it is one that lets a request that waits in the
input queue execute, or its byte ends the frame of one. -/
def RestartsFull (c : Instr) (s : State) : Prop :=
  (∃ tag, c = .restartFull tag) ∨
  ((c = .replyEnd ∨ mayExecute s = true) ∧ ∃ q ∈ s.host.queue, q.request = .restart 0) ∨
  ∃ b bytes last, c = .byteReceived b false ∧ s.host.receiver = .inFrame bytes last ∧
    let frame := bytes ++ [b]
    parseRequest (fieldAt frame 1 1) ((frame.drop 3).take (frame.length - 5)) = .restart 0

/-- The payload length the layout of a request kind gives, PATTERN LOAD's by the step count in its payload; none for a kind that
names no request (R182). -/
def payloadLength (payload : List Byte) : Nat → Option Nat
  | 0x01 | 0x02 | 0x24 | 0x32 | 0x40 | 0x41 | 0x43 => some 0
  | 0x03 | 0x12 | 0x13 | 0x30 | 0x31 | 0x42 | 0x50 | 0x51 | 0x60 | 0x61 | 0x62 | 0x70 => some 1
  | 0x11 | 0x22 | 0x25 | 0x26 => some 2
  | 0x23 => some 3
  | 0x20 => some 4
  | 0x10 => some 6
  | 0x21 => some 29
  | 0x52 => some (5 + 2 * (payload.getD 4 0).toNat)
  | _ => none

/-- The commands run one after another, as long as each answers a next state. -/
def run : List Instr → State → Result
  | [], s => .next s
  | c :: l, s =>
    match exec c s with
    | .next t => run l t
    | .fault f => .fault f
    | .refused r => .refused r

/-- The bytes of a frame as they arrive, one BYTE_RECEIVED each. -/
def arrivals (bytes : List Byte) : List Instr := bytes.map fun b => .byteReceived b false

end Sys2Proof.Machine

namespace Sys2Proof

/-- The tag and request of a row that is a host request; none for the other rows. -/
def Instr.request : Instr → Option (Nat × HostRequest)
  | .restartFull tag => some (tag, .restart 0)
  | .restartJourney tag => some (tag, .restart 1)
  | .axleRead tag c => some (tag, .axleRead c)
  | .axleReset tag c => some (tag, .axleReset c)
  | .halt tag => some (tag, .halt)
  | .resume tag => some (tag, .resume)
  | .routeStart tag o => some (tag, .routeStart o)
  | .routeEnd tag => some (tag, .routeEnd)
  | .routeInsert tag e => some (tag, .routeInsert e)
  | .routeRemove tag t => some (tag, .routeRemove t)
  | .routeRead tag sel w => some (tag, .routeRead sel w)
  | .loopReset tag => some (tag, .loopReset)
  | .junctionCancel tag t => some (tag, .junctionCancel t)
  | .junctionRetry tag t => some (tag, .junctionRetry t)
  | .mask tag r => some (tag, .mask r)
  | .unmask tag r => some (tag, .unmask r)
  | .stopRequest tag a => some (tag, .stopRequest a)
  | .stopClear tag => some (tag, .stopClear)
  | .buttonRead tag c => some (tag, .buttonRead c)
  | .play tag p => some (tag, .play p)
  | .silence tag p => some (tag, .silence p)
  | .patternLoad tag p => some (tag, .patternLoad p)
  | .set tag n v => some (tag, .set n v)
  | .get tag n => some (tag, .get n)
  | .freeze tag g => some (tag, .freeze g)
  | .thaw tag g => some (tag, .thaw g)
  | .unknownKindRequest tag k => some (tag, .unknownKind k)
  | .ident tag => some (tag, .ident)
  | .status tag => some (tag, .status)
  | .events tag n => some (tag, .events n)
  | .powerUp | .encoderEdge _ _ _ | .phaseErrorWindowExpiry _ | .speedSample | .axleSuspect | .agreementRunComplete _
  | .standstillSet | .controlPeriod _ | .directionSettleExpiry | .handleHoldExpiry | .handleFault | .demandLost
  | .adhesionFault _ | .sandRunExpiry | .sandRestExpiry | .doorReleaseAsserted | .doorReleaseReleased | .haltReleased
  | .vigilPress | .vigilRelease | .holdLimitExpiry | .graceExpiry | .warnToHaltExpiry | .repressWindowExpiry
  | .roleInputChange _ _ | .demandWindowExpiry _ | .haltLineChange _ | .startEmissionExpiry | .startEdge
  | .startRetentionExpiry | .loopOkReleased _ | .telegramAirtimeEnd | .answerWindowExpiry | .slotRepeatExpiry _
  | .signalRepeatExpiry _ | .pointAnswer _ | .priorityAck _ | .scan _ | .buttonStuck _ | .stopCancel | .stopreqEdge _
  | .stepExpiry _ | .strikePulseExpiry | .bellPedalPress | .bellPedalRelease | .bellIntervalExpiry | .hornPress
  | .hornRelease | .hornTailExpiry | .byteReceived _ _ | .frameGapExpiry | .replyEnd => none

end Sys2Proof
end

