-- ==== Sys2Proof/Certificates/Slice0/Obligations.lean ====
section
/-! DEFINITION. The statements for the provers. Each docstring names the rules of spec/ it formalises. -/

open Sys2Proof Sys2Proof.Machine

/-! ### The step and the laws -/

/-- A step takes the command at the front of the queue and executes it on the state with the queue's rest. (One sender, first
in, first out: log entry 1.) -/
def Obligations.StepRunsFrontCommand : Prop :=
  ∀ (c : Instr) (rest : List Instr) (s : State), step (s.setPending (c :: rest)) = exec c (s.setPending rest)

/-- Every command that can be delivered answers a next state, in every state. The one stop of the model is a SCAN without its
24 readings, which R133 says a scan always has (log entry 30: the model's choice). -/
def Obligations.DeliverableCommandsComplete : Prop :=
  (∀ (c : Instr) (s : State), c.wf = true → ∃ t, exec c s = .next t) ∧
  ∀ (readings : List Nat) (s : State), readings.length ≠ 24 → exec (.scan readings) s = .fault .scanReadingMissing

/-- The reset state obeys every law of Safety.lean. -/
def Obligations.ResetObeysEveryLaw : Prop :=
  EventLaw State.reset.host ∧ RouteLaw State.reset.route ∧ PowerLaw State.reset ∧ SandLaw State.reset ∧
  QueueLaw State.reset ∧ LineLaw State.reset.lines ∧ VigilLaw State.reset.vigilance ∧ CancelLaw State.reset.junction ∧
  DriveLaw State.reset ∧ BogieLaw State.reset ∧ LockLaw State.reset ∧ MonitorLaw State.reset ∧ LatchLaw State.reset ∧ CausesFollow State.reset

/-- R177, R178: every step keeps the pending-event set in the order of EVENTS, without two records of one kind and subject,
within 64 records, and incomplete only while not empty. -/
def Obligations.EventSetStaysOrdered : Prop :=
  ∀ s t : State, EventLaw s.host → step s = .next t → EventLaw t.host

/-- R84, R85, R87, R88, R90: every step keeps the route distance and residue in range and the route table within 96 entries,
each as it could be inserted, no tag twice, in ascending key mark, empty on an inactive route. -/
def Obligations.RouteTableStaysOrdered : Prop :=
  ∀ s t : State, RouteLaw s.route → step s = .next t → RouteLaw t.route

/-- R19, R20, R24, R62, R67: every step keeps E within −1000..1000 and positive only through an open power gate, HALTED exactly
while the halt latch is set, no cause present without the latch, and (R166, R168) the settings in their ranges. R20, R42, R43,
R49, R52: with these every step keeps each factor in k_min..1000, both bogies ADHERING with factor 1000 where E was last judged to
be 0, and the effort of a motor bogie positive only with E, so only while the unit is RUNNING, with no overspeed and the halt
latch clear. -/
def Obligations.NoPowerThroughClosedGate : Prop :=
  (∀ s t : State, PowerLaw s → step s = .next t → PowerLaw t) ∧
  (∀ s t : State, PowerLaw s → BogieLaw s → step s = .next t → BogieLaw t) ∧
  ∀ s : State, PowerLaw s → BogieLaw s → 0 < s.traction.effortA ∨ 0 < s.traction.effortB →
    s.traction.state = .running ∧ s.traction.overspeed = false ∧ s.halt.latch = none

/-- R166, R168: every step keeps every effective and pending value in its setting's range, and pending values in LOCKED groups
alone. -/
def Obligations.SettingsStayInRange : Prop :=
  ∀ s t : State, SettingsLaw s.settings → step s = .next t → SettingsLaw t.settings

/-- R165, R168, R169, R170: every step keeps every group LOCKED exactly while its condition holds or it is frozen. A pass judges
G2 on the E it leaves. At every event of the part's own, and at every request that finds the link ready but SET, THAW and RESTART
FULL: a group's values change only where it unlocks within the event; then every pending value of the group becomes effective
together, none stays pending, and SETTINGS APPLIED is raised with the group and their number. A frozen group never so unlocks;
G0, G1 and G6 only where the event leaves the tram at standstill, G2 where it leaves E at 0, G4 where it leaves the stop-request
latch clear. (POWER_UP resets the store, and BYTE_RECEIVED and REPLY_END may carry any request out: of them the first clause
alone speaks. Of G3 and G5 one event may end the condition and begin it again; a slot that passes from one entry to another: log
entry 19.) -/
def Obligations.GroupsStayLockedWhileHeld : Prop :=
  (∀ s t : State, RouteLaw s.route → LockLaw s → step s = .next t → LockLaw t) ∧
  (∀ (inputs : PassInputs) (s t : State), exec (.controlPeriod inputs) s = .next t →
    (t.settings.effortHeld = true ↔ t.traction.effort ≠ 0) ∧
    (t.settings.locked.g2 = true ↔ t.traction.effort ≠ 0 ∨ s.settings.frozen.g2 = true)) ∧
  ∀ (c : Instr) (s t : State), c ≠ .powerUp → c ≠ .replyEnd → (∀ b e, c ≠ .byteReceived b e) →
    (∀ tag r, c.request = some (tag, r) →
      LinkReady s ∧ r ≠ .restart 0 ∧ (∀ g, r ≠ .thaw g) ∧ ∀ n v, r ≠ .set n v) →
    (s.settings.pending.map (·.1)).Nodup → exec c s = .next t →
    ∃ unlocked : Nat → Bool,
      t.settings.pending = s.settings.pending.filter (fun p => !unlocked (settingGroup p.1)) ∧
      (∀ n, t.cfg n = if unlocked (settingGroup n) then (listed n s.settings.pending).getD (s.cfg n) else s.cfg n) ∧
      ∀ g : Group,
        let mine := s.settings.pending.filter fun p => decide (settingGroup p.1 = g.code)
        (unlocked g.code = true → s.settings.frozen.get g = false ∧
          (g = .g0 ∨ g = .g1 ∨ g = .g6 → t.axle.standstill = true) ∧
          (g = .g2 → t.traction.effort = 0) ∧ (g = .g4 → t.stop.latch = none) ∧
          (mine ≠ [] → Told s t 6 g.code mine.length)) ∧
        (unlocked g.code = false ∨ mine = [] → Untold s t 6 g.code)

/-- R56, R57, R102: every step keeps SAND released at standstill and while the sand inhibit is on. -/
def Obligations.SandNeverOverPoints : Prop :=
  ∀ s t : State, SandLaw s → step s = .next t → SandLaw t

/-- R45, R68, R72, R73, R74, R113, R114, R155, R174: every step keeps the four waiting queues, the signal queue, the cancel
queue and the input queue within four places, the cancel queue with at most one telegram for a slot and a slot kept exactly
while its telegram waits, leaves DEMAND, TL_FWD and TL_REV undriven by a unit that is not LEAD, HALT driven exactly while a
cause that counts is present and the HALT output enabled, and the vigilance timer running exactly in HELD, RELEASED,
WARN_RELEASED and WARN_HELD. -/
def Obligations.QueuesLinesAndVigilanceStayLawful : Prop :=
  (∀ s t : State, QueueLaw s → step s = .next t → QueueLaw t) ∧
  (∀ s t : State, CancelLaw s.junction → step s = .next t → CancelLaw t.junction) ∧
  (∀ s t : State, LineLaw s.lines → step s = .next t → LineLaw t.lines) ∧
  (∀ s t : State, DriveLaw s → step s = .next t → DriveLaw t) ∧
  ∀ s t : State, VigilLaw s.vigilance → step s = .next t → VigilLaw t.vigilance

/-- R61, R64, R68, R71: every step keeps the vigilance monitor watching a moving LEAD and no other unit, with VIGILANCE present
exactly while it is TRIPPED; the halt latch STOPPED exactly at standstill; and JUNCTION and BREACH present exactly while an entry
of the table makes them so. A sample, and STANDSTILL_SET, that leaves a LEAD moving starts a monitor in OFF, in HELD or in RELEASED
as VIGIL is, with its timer; one that leaves another unit, or a LEAD at standstill, takes every monitor to OFF but one TRIPPED in
a LEAD, and silences the warning of one that had asked for it; a monitor is else left as it is. (STANDSTILL_SET as a command of
its own, and the order within the event: log entries 5, 10, 28.) -/
def Obligations.MonitorAndLatchFollowTheTram : Prop :=
  (∀ s t : State, MonitorLaw s → step s = .next t → MonitorLaw t) ∧
  (∀ s t : State, LatchLaw s → step s = .next t → LatchLaw t) ∧
  (∀ s t : State, RouteLaw s.route → CausesFollow s → step s = .next t → CausesFollow t) ∧
  ∀ (c : Instr) (s t : State), c = .speedSample ∨ c = .standstillSet → MonitorLaw s → exec c s = .next t →
    let started : Vigilance :=
      if s.pins.vigil then ⟨.held, some (t.now + s.cfgN Setting.holdLimit * 1000)⟩
      else ⟨.released, some (t.now + s.cfgN Setting.vigilanceGrace * 1000)⟩
    let plays := fun u : State => ∃ step pass x, u.sound.buzzer.player = .playing 4 step pass x
    let waits := fun u : State => ∃ w ∈ u.sound.buzzer.queue, w.pattern = 4
    t.vigilance = (if t.lines.role = .lead ∧ t.axle.standstill = false then
        (if s.vigilance.state = .off then started else s.vigilance)
      else if s.vigilance.state = .off ∨ s.vigilance.state = .tripped ∧ t.lines.role = .lead then s.vigilance
      else ⟨.off, none⟩) ∧
    (s.vigilance.state = .warnReleased ∨ s.vigilance.state = .warnHeld ∨ s.vigilance.state = .tripped →
      t.vigilance.state = .off → ¬(plays s ∧ waits s) → ¬plays t ∧ ¬waits t)

/-! ### The host link -/

/-- R181, R182, R173, R174, R175: the bytes of a request's frame, arriving one by one at a receiver that is HUNTING, do exactly
what the request's row does; those of a frame of a known kind whose payload has not the length of its layout are refused
BAD_LENGTH, with nothing changed. -/
def Obligations.FrameBytesActAsTheirRow : Prop :=
  (∀ (c : Instr) (tag : Nat) (r : HostRequest) (s : State), c.request = some (tag, r) → c.wf = true →
    s.host.receiver = .hunting → run (arrivals (frameBytes r.kind tag r.payload)) s = exec c s) ∧
  ∀ (kind tag length : Nat) (payload : List Byte) (s : State), payloadLength payload kind = some length →
    payload.length ≠ length → payload.length ≤ 248 → tag < 256 → s.host.receiver = .hunting → LinkReady s →
    run (arrivals (frameBytes kind tag payload)) s = .next (replied tag (.badLength kind) ⟨.badLength, []⟩ s)

/-- R174: a request that finds the link ready executes at its own event, its reply is being sent, and it stands at the head of
the input queue until the reply has gone. One that finds a head not yet done waits behind it; one that finds four requests is
answered BUSY, at once on a FREE line, else as the waiting BUSY reply, and is discarded while a BUSY reply waits already. -/
def Obligations.LinkExecutesQueuesOrRefuses : Prop :=
  ∀ (c : Instr) (tag : Nat) (r : HostRequest) (s : State), c.request = some (tag, r) →
    (LinkReady s →
      exec c s = .next (answering tag r (perform r (queued tag r s)).2 (perform r (queued tag r s)).1)) ∧
    (s.host.queue.length < 4 → mayExecute s = false →
      exec c s = .next (s.setHost { s.host with queue := s.host.queue ++ [⟨tag, r⟩] })) ∧
    (4 ≤ s.host.queue.length → s.host.line = .free →
      exec c s = .next (s.setHost { s.host with line := .sending (busyBytes r.kind tag) true })) ∧
    (4 ≤ s.host.queue.length → s.host.line ≠ .free → s.host.busy = none →
      exec c s = .next (s.setHost { s.host with busy := some (r.kind, tag) })) ∧
    (4 ≤ s.host.queue.length → s.host.line ≠ .free → s.host.busy ≠ none → exec c s = .next s)

/-- R174: at the end of a reply the request leaves the queue; a waiting BUSY reply is sent next; with none, and nothing left,
the line is FREE; else the next head executes and its reply is being sent. At the end of a BUSY reply another that waits is sent
next; with none, a head that has not executed executes, and with no such head the line is FREE. A line that sends nothing ends
nothing. -/
def Obligations.ReplyEndServesNext : Prop :=
  ∀ (bytes : List Byte) (s : State),
    (s.host.line = .sending bytes false →
      (∀ kind tag, s.host.busy = some (kind, tag) →
        exec .replyEnd s = .next (s.setHost { s.host with
          line := .sending (busyBytes kind tag) true, busy := none, queue := s.host.queue.tail, headRunning := false })) ∧
      (s.host.busy = none → s.host.queue.tail = [] →
        exec .replyEnd s = .next (s.setHost { s.host with line := .free, queue := [], headRunning := false })) ∧
      (∀ q rest, s.host.busy = none → s.host.queue.tail = q :: rest →
        ∃ u : State, ∃ reply : Reply,
          perform q.request (s.setHost { s.host with line := .free, queue := q :: rest, headRunning := false }) = (u, reply) ∧
          exec .replyEnd s = .next (u.setHost { u.host with
            headRunning := true, line := .sending (replyBytes q.request.kind q.tag reply) false }))) ∧
    (s.host.line = .sending bytes true → s.host.busy = none → s.host.queue = [] ∨ s.host.headRunning = true →
      exec .replyEnd s = .next (s.setHost { s.host with line := .free })) ∧
    (∀ kind tag, s.host.line = .sending bytes true → s.host.busy = some (kind, tag) →
      exec .replyEnd s = .next (s.setHost { s.host with line := .sending (busyBytes kind tag) true, busy := none })) ∧
    (∀ q rest, s.host.line = .sending bytes true → s.host.busy = none → s.host.queue = q :: rest →
      s.host.headRunning = false → ∃ u : State, ∃ reply : Reply,
        perform q.request (s.setHost { s.host with line := .free }) = (u, reply) ∧
        exec .replyEnd s = .next (u.setHost { u.host with
          headRunning := true, line := .sending (replyBytes q.request.kind q.tag reply) false })) ∧
    (s.host.line = .free → exec .replyEnd s = .next s)

/-- R173: what the receiver discards leaves no trace: in HUNTING any byte but 0x7B; a framing error, a length byte outside
2..250, a wrong CRC and a gap beyond 5 ms return it to HUNTING and change nothing else. The byte that ends such a gap is judged
in HUNTING. (That the gap's own event takes the clock to 5 ms after the last byte, and does nothing in HUNTING, is the model's
choice: log entry 3.) -/
def Obligations.DiscardedFramesLeaveNoTrace : Prop :=
  ∀ s : State,
    (∀ b, s.host.receiver = .hunting → b ≠ 0x7B → exec (.byteReceived b false) s = .next s) ∧
    (s.host.receiver = .hunting →
      exec (.byteReceived 0x7B false) s = .next (s.setHost { s.host with receiver := .inFrame [] s.now })) ∧
    (∀ b, exec (.byteReceived b true) s = .next (s.setHost { s.host with receiver := .hunting })) ∧
    (∀ (bytes : List Byte) (last : Nat), s.host.receiver = .inFrame bytes last → last + 5 < s.now →
      (∀ b, b ≠ 0x7B → exec (.byteReceived b false) s = .next (s.setHost { s.host with receiver := .hunting })) ∧
      exec (.byteReceived 0x7B false) s = .next (s.setHost { s.host with receiver := .inFrame [] s.now })) ∧
    (∀ (b : Byte) (last : Nat), s.host.receiver = .inFrame [] last → s.now ≤ last + 5 → b.toNat < 2 ∨ 250 < b.toNat →
      exec (.byteReceived b false) s = .next (s.setHost { s.host with receiver := .hunting })) ∧
    (∀ (l : Byte) (body : List Byte) (b : Byte) (last : Nat), s.host.receiver = .inFrame (l :: body) last →
      s.now ≤ last + 5 → body.length + 1 = l.toNat + 2 → frameGood (l :: (body ++ [b])) = false →
      exec (.byteReceived b false) s = .next (s.setHost { s.host with receiver := .hunting })) ∧
    (∀ (bytes : List Byte) (last : Nat), s.host.receiver = .inFrame bytes last →
      exec .frameGapExpiry s = .next ((s.setNow (max s.now (last + 5))).setHost { s.host with receiver := .hunting })) ∧
    (s.host.receiver = .hunting → exec .frameGapExpiry s = .next s)

/-- R15, R93, R147, R171, R175, R176: IDENT, STATUS, GET, AXLE READ, BUTTON READ and ROUTE READ change nothing but the link
that carries their replies, and an unknown kind is refused with nothing changed. ROUTE READ finds an entry by its index
(selector 0) or by its tag (selector 1) and refuses another selector. The payloads after the status have the 8, 49, 61 and 23
bytes of 11 sections 1, 3, 6 and 7. (Of the payloads' fields the lock code, the channel bits, the figures of AXLE READ, the
decode mode, the zero bytes of ROUTE READ, the kind and the accessible flag of a button and the bytes of a pending value that
is not present are log entries 33, 31, 12, 39, 40, 48, 50.) -/
def Obligations.ReadsChangeNothing : Prop :=
  ∀ (tag : Nat) (s : State), LinkReady s →
    exec (.ident tag) s = .next (replied tag .ident ⟨.ok, identBytes s⟩ s) ∧
    exec (.status tag) s = .next (replied tag .status ⟨.ok, statusBytes s⟩ s) ∧
    (∀ n g, groupOf n = some g →
      exec (.get tag n) s = .next (replied tag (.get n) ⟨.ok, settingBytes s n ++ groupBytes s g⟩ s)) ∧
    (∀ n, groupOf n = none → exec (.get tag n) s = .next (replied tag (.get n) ⟨.notFound, []⟩ s)) ∧
    (∀ n i, axleOf n = some i → exec (.axleRead tag n) s = .next (replied tag (.axleRead n) ⟨.ok, axleBytes s i⟩ s)) ∧
    (∀ n, 3 < n → exec (.axleRead tag n) s = .next (replied tag (.axleRead n) ⟨.range, []⟩ s)) ∧
    (∀ n b, s.stop.buttons[n]? = some b →
      exec (.buttonRead tag n) s = .next (replied tag (.buttonRead n) ⟨.ok, buttonBytes s n b⟩ s)) ∧
    (∀ n, s.stop.buttons[n]? = none → exec (.buttonRead tag n) s = .next (replied tag (.buttonRead n) ⟨.range, []⟩ s)) ∧
    (∀ n e, s.route.table[n]? = some e →
      exec (.routeRead tag 0 n) s = .next (replied tag (.routeRead 0 n) ⟨.ok, entryBytes s n e⟩ s)) ∧
    (∀ n, s.route.table[n]? = none →
      exec (.routeRead tag 0 n) s = .next (replied tag (.routeRead 0 n) ⟨.notFound, []⟩ s)) ∧
    exec (.routeRead tag 1 0) s = .next (replied tag (.routeRead 1 0) ⟨.range, []⟩ s) ∧
    (∀ n e, e.tag ≠ 0 → s.route.table[n]? = some e → (∀ x ∈ s.route.table.take n, x.tag ≠ e.tag) →
      exec (.routeRead tag 1 e.tag) s = .next (replied tag (.routeRead 1 e.tag) ⟨.ok, entryBytes s n e⟩ s)) ∧
    (∀ entryTag, entryTag ≠ 0 → (∀ e ∈ s.route.table, e.tag ≠ entryTag) →
      exec (.routeRead tag 1 entryTag) s = .next (replied tag (.routeRead 1 entryTag) ⟨.notFound, []⟩ s)) ∧
    (∀ selector n, 1 < selector →
      exec (.routeRead tag selector n) s = .next (replied tag (.routeRead selector n) ⟨.range, []⟩ s)) ∧
    (∀ k, exec (.unknownKindRequest tag k) s = .next (replied tag (.unknownKind k) ⟨.unknownKind, []⟩ s)) ∧
    (identBytes s).length = 8 ∧ (statusBytes s).length = 49 ∧
    (∀ i, (s.axle.channel i).shown.ring.length = 10 → (axleBytes s i).length = 61) ∧ ∀ n b, (buttonBytes s n b).length = 23

/-- R178: EVENTS refuses a count outside 1..8; else it gives the first n records in their order and removes them, reports how
many are left and the incomplete flag as it stood, and clears the flag when the set is emptied. -/
def Obligations.EventsGivesFirstRecords : Prop :=
  ∀ (tag n : Nat) (s : State), LinkReady s →
    (n = 0 ∨ 8 < n → exec (.events tag n) s = .next (replied tag (.events n) ⟨.range, []⟩ s)) ∧
    (1 ≤ n → n ≤ 8 → exec (.events tag n) s = .next (replied tag (.events n)
      ⟨.ok, bytesBE 1 (s.host.events.length - n : Nat) ++ bytesBE 1 (flagNat s.host.incomplete) ++
        bytesBE 1 (min n s.host.events.length : Nat) ++ (s.host.events.take n).flatMap EventRecord.bytes⟩
      (s.setHost { s.host with
        events := s.host.events.drop n
        incomplete := s.host.incomplete && decide (n < s.host.events.length) })))

/-- R177: an event whose kind and subject the set holds sets that record's repeated flag and value; else it joins a set with
room, with its repeated flag clear and the route distance; at a full set it takes the place of the last record if that one's
kind is lower, is dropped otherwise, and either way the set is incomplete. -/
def Obligations.RaiseFollowsThreeCases : Prop :=
  ∀ (kind subject : Nat) (value : Int) (s : State), EventLaw s.host →
    let held := fun x : EventRecord => x.kind = kind ∧ x.subject = subject
    let fresh : EventRecord := ⟨kind, subject, false, value, s.route.distance⟩
    let after := (raise kind subject value s).host
    ((∃ x ∈ s.host.events, held x) →
      after.incomplete = s.host.incomplete ∧
      after.events = s.host.events.map fun x => if held x then { x with repeated := true, value := value } else x) ∧
    ((¬∃ x ∈ s.host.events, held x) → s.host.events.length < 64 →
      after.incomplete = s.host.incomplete ∧ ∀ x, x ∈ after.events ↔ x = fresh ∨ x ∈ s.host.events) ∧
    (∀ last, (¬∃ x ∈ s.host.events, held x) → s.host.events.length = 64 → s.host.events.getLast? = some last →
      after.incomplete = true ∧
      if last.kind < kind then ∀ x, x ∈ after.events ↔ x = fresh ∨ (x ∈ s.host.events ∧ x ≠ last)
      else after.events = s.host.events)

/-! ### The axle unit -/

/-- R1, R2: an encoder edge that is no phase error adds what the table of the channel's decode mode gives to the signed 32-bit
count, which wraps, and the decoder takes the new levels; nothing else changes. (The mode is the one in use: log entry 39.) -/
def Obligations.EncoderEdgeCounts : Prop :=
  ∀ (i : AxleId) (a b : Bool) (s : State),
    let c := s.axle.channel i
    let mode := c.mode
    (c.phaseA ≠ a ∨ c.phaseB ≠ b) → (mode = .pulseDir ∨ c.phaseA = a ∨ c.phaseB = b) →
    exec (.encoderEdge i a b) s = .next (s.setAxle (s.axle.setChannel i { c with
      phaseA := a
      phaseB := b
      count := c.count + (if countsUp mode c.phaseA c.phaseB a b then 1
        else if countsDown mode c.phaseA c.phaseB a b then -1 else 0) }))

/-- R3: in a PHASE mode an edge on both phases is tallied up to 255, counted in the window it opens for 1 s or finds open, and
adds nothing to the count; beyond the limit the channel is FAILED, with AXLE FAILED if it was not. The window closes at its
expiry; the expiry's command takes the clock to its time (log entry 3), and does nothing with the window closed. -/
def Obligations.PhaseErrorsFailChannel : Prop :=
  ∀ (i : AxleId) (s : State),
    let c := s.axle.channel i
    (c.mode ≠ .pulseDir →
      let w : PhaseWindow := match c.window with
        | none => ⟨1, s.now + 1000⟩
        | some w => ⟨w.count + 1, w.expiry⟩
      let d : AxleChannel := { c with
        phaseA := !c.phaseA
        phaseB := !c.phaseB
        tally := min 255 (c.tally + 1)
        window := some w
        state := if s.cfgN Setting.phaseErrorLimit < w.count then .failed else c.state }
      let u := s.setAxle (s.axle.setChannel i d)
      exec (.encoderEdge i (!c.phaseA) (!c.phaseB)) s = .next (
        if s.cfgN Setting.phaseErrorLimit < w.count ∧ c.state ≠ .failed then raise 24 (axleNumber i) d.tally u else u)) ∧
    (∀ w, c.window = some w → exec (.phaseErrorWindowExpiry i) s =
      .next ((s.reach w.expiry).setAxle (s.axle.setChannel i { c with window := none }))) ∧
    (c.window = none → exec (.phaseErrorWindowExpiry i) s = .next s)

/-- R4, R5, R17: a speed sample pushes each channel's signed 32-bit delta into its ring and forms its speed from the ring, T
and the travel sense, clamped; the count, the levels and the tally stay. A changed decode mode is taken up first: the ring is
emptied and the window closed. The figures AXLE READ sends are the sample's (R15, log entry 12). Pins, requests, factors,
masks, the loop, the stop-request unit, loaded patterns and freeze flags stay. (That a sample acts at its due time, and that
the delta goes into the emptied ring: log entries 4, 39.) -/
def Obligations.SampleFormsSpeeds : Prop :=
  ∀ s : State, ∃ t, exec .speedSample s = .next t ∧
    (∀ i : AxleId,
      let c := s.axle.channel i
      let d := t.axle.channel i
      let code := s.cfg (Setting.decodeMode i)
      let mode : DecodeMode := if code = 0 then .phase1x else if code = 1 then .phase2x else if code = 2 then .phase4x
        else .pulseDir
      let old := if mode = c.mode then c.ring else [0, 0, 0, 0, 0, 0, 0, 0, 0, 0]
      let ring := old.drop 1 ++ [(c.count - c.prevCount).toInt]
      d.speed = signed s.axle.sense (clampInt (-30000) 30000 ((ring.sum * s.cfg (Setting.travel i) * 10).tdiv 256)) ∧
      d.prevCount = c.count ∧ d.count = c.count ∧ d.phaseA = c.phaseA ∧ d.phaseB = c.phaseB ∧ d.tally = c.tally ∧
      d.sampled = c.state ∧ d.ring = ring ∧ d.mode = mode ∧ d.window = (if mode = c.mode then c.window else none) ∧
      d.shown = ⟨d.state, s.cfg (Setting.travel i), ring, c.tally, match d.window with
        | some w => w.count
        | none => 0⟩) ∧
    t.axle.sense = s.axle.sense ∧ t.adhesion = { s.adhesion with sand := t.adhesion.sand } ∧
    t.lines.demandU = s.lines.demandU ∧ t.route.active = s.route.active ∧ t.junction.masks = s.junction.masks ∧
    t.junction.loop = s.junction.loop ∧ t.stop = s.stop ∧ t.sound.loaded = s.sound.loaded ∧
    t.settings.frozen = s.settings.frozen ∧ t.pins = s.pins ∧ t.now = max s.now s.axle.sampleDue ∧
    t.host = { s.host with events := t.host.events, incomplete := t.host.incomplete }

/-- R7, R8, R9, R10, R11: the reference source and speed of a sample, by the states the channels had and the speeds it formed:
MEAN, LARGER, SINGLE, DEGRADED or LOST; the disagreement run, and the slower axle SUSPECT, with AXLE SUSPECT, once the run
outlasts its time, and the time AXLE READ sends for it (log entry 12); the agreement run of a SUSPECT axle, which is OK again
after 10 s of it; REFERENCE DEGRADED at an entry into DEGRADED; REFERENCE LOST raised and present from the entry into LOST,
present or not as it was from LOST to LOST, and absent under any other source. (The order of the judgements within a sample: log entry 10.) -/
def Obligations.SampleSelectsReference : Prop :=
  ∀ s t : State, exec .speedSample s = .next t →
    let now := max s.now s.axle.sampleDue
    let v0 := t.axle.ax0.speed
    let v1 := t.axle.ax1.speed
    let v2 := t.axle.ax2.speed
    let v3 := t.axle.ax3.speed
    let apart : Int := (v2 - v3).natAbs
    let start := s.axle.disagreement.getD now
    let fits0 := s.axle.ax0.state = .ok ∧ s.adhesion.a.state = .adhering
    let fits1 := s.axle.ax1.state = .ok ∧ s.adhesion.b.state = .adhering
    (s.axle.ax2.state = .ok → s.axle.ax3.state = .ok → apart ≤ s.cfg Setting.agreeTolerance →
      t.axle.source = .mean ∧ t.axle.refSpeed = (v2 + v3).tdiv 2 ∧ t.axle.disagreement = none) ∧
    (s.axle.ax2.state = .ok → s.axle.ax3.state = .ok → s.cfg Setting.agreeTolerance < apart →
      if start + s.cfgN Setting.disagreementTime < now then
        t.axle.disagreement = none ∧
        if v2.natAbs < v3.natAbs then
          t.axle.ax2.state = .suspect ∧ t.axle.source = .single .ax3 ∧ t.axle.refSpeed = v3 ∧ Told s t 10 2 apart
        else t.axle.ax3.state = .suspect ∧ t.axle.source = .single .ax2 ∧ t.axle.refSpeed = v2 ∧ Told s t 10 3 apart
      else
        t.axle.disagreement = some start ∧ Untold s t 10 2 ∧ Untold s t 10 3 ∧
        if v2.natAbs < v3.natAbs then t.axle.source = .larger .ax3 ∧ t.axle.refSpeed = v3
        else t.axle.source = .larger .ax2 ∧ t.axle.refSpeed = v2) ∧
    (s.axle.ax2.state = .ok → s.axle.ax3.state ≠ .ok → t.axle.source = .single .ax2 ∧ t.axle.refSpeed = v2) ∧
    (s.axle.ax2.state ≠ .ok → s.axle.ax3.state = .ok → t.axle.source = .single .ax3 ∧ t.axle.refSpeed = v3) ∧
    (s.axle.ax2.state ≠ .ok → s.axle.ax3.state ≠ .ok →
      (fits0 → ¬fits1 → t.axle.source = .degraded .ax0 ∧ t.axle.refSpeed = v0) ∧
      (¬fits0 → fits1 → t.axle.source = .degraded .ax1 ∧ t.axle.refSpeed = v1) ∧
      (fits0 → fits1 → v0.natAbs ≤ v1.natAbs → t.axle.source = .degraded .ax0 ∧ t.axle.refSpeed = v0) ∧
      (fits0 → fits1 → v1.natAbs < v0.natAbs → t.axle.source = .degraded .ax1 ∧ t.axle.refSpeed = v1) ∧
      (¬fits0 → ¬fits1 → t.axle.source = .lost ∧ t.axle.refSpeed = s.axle.refSpeed)) ∧
    (∀ r : RefAxle,
      let c := s.axle.channel (refChannel r)
      let d := t.axle.channel (refChannel r)
      let agrees := c.state = .suspect ∧ (s.axle.channel (refChannel (otherRef r))).state = .ok ∧
        apart ≤ s.cfg Setting.agreeTolerance
      let began := c.agreement.getD now
      (agrees → now < began + 10000 → d.state = .suspect ∧ d.agreement = some began) ∧
      (agrees → began + 10000 ≤ now → d.state = .ok ∧ d.agreement = none) ∧
      (¬agrees → d.agreement = none ∧ (c.state ≠ .ok → d.state = c.state))) ∧
    (let degraded := fun u : State => ∃ i, u.axle.source = .degraded i
    (∀ i, t.axle.source = .degraded i → ¬degraded s → Told s t 11 (axleNumber i) t.axle.refSpeed) ∧
    (degraded s ∨ ¬degraded t → ∀ n, Untold s t 11 n)) ∧
    (t.axle.source = .lost → s.axle.source ≠ .lost →
      t.halt.causes.referenceLost = true ∧ Told s t 29 0 t.axle.refSpeed) ∧
    (t.axle.source = .lost → s.axle.source = .lost →
      t.halt.causes.referenceLost = s.halt.causes.referenceLost) ∧
    (t.axle.source ≠ .lost ∨ s.axle.source = .lost → Untold s t 29 0) ∧
    (t.axle.source ≠ .lost → t.halt.causes.referenceLost = false) ∧
    t.axle.shownRun = (match t.axle.disagreement with
      | some x => now - x
      | none => 0)

/-- R12, R84, R85, R94, R95, R96, R99, R100, R101, R102: the reference travel of a sample under its source, and the route
distance and residue after it: unmoved on an inactive route or under LOST, else their total raised by the travel, held at 0 and
at 16,000,000 dm with residue 0. Every entry then stands as the sweep to that distance leaves it: on a rise it has crossed its
marks up to the distance, each acting on the state the last one left; otherwise only a restriction's clear point is crossed. An
entry in a final state past its last mark and the retire distance has left the table; the ceiling and the inhibit are formed.
A stop entry in its window at an asserted DOOR_RELEASE is SERVED where the sample sets the standstill flag. (Two kinds of sample
judge the table twice and are not spoken of: one that changes the set length and serves stops, and one that falls back and does
either. The order within a sample: log entry 10; values of G3 that a sweep unlocks: log entry 52.) -/
def Obligations.SampleMovesRoute : Prop :=
  (∀ s t : State, exec .speedSample s = .next t →
    let gain := fun i => ((s.axle.channel i).count - (s.axle.channel i).prevCount).toInt * s.cfg (Setting.travel i)
    let total : Int := (s.route.distance : Int) * 25600 + s.route.residue + t.axle.refTravel
    t.axle.refTravel = signed s.axle.sense (match t.axle.source with
      | .mean => (gain .ax2 + gain .ax3).tdiv 2
      | .larger i => gain i
      | .single i => gain i
      | .degraded i => gain i
      | .lost => 0) ∧
    t.route.active = s.route.active ∧
    (s.route.active = false ∨ t.axle.source = .lost →
      t.route.distance = s.route.distance ∧ t.route.residue = s.route.residue) ∧
    (s.route.active = true → t.axle.source ≠ .lost →
      (total < 0 → t.route.distance = 0 ∧ t.route.residue = 0) ∧
      (0 ≤ total → total < 16000001 * 25600 →
        (t.route.distance : Int) * 25600 + t.route.residue = total ∧ t.route.residue < 25600) ∧
      (16000001 * 25600 ≤ total → t.route.distance = 16000000 ∧ t.route.residue = 0))) ∧
  (∀ s t : State, exec .speedSample s = .next t → CeilingFormed t ∧ InhibitFormed t) ∧
  ∀ s t : State, RouteLaw s.route → s.settings.pending = [] → exec .speedSample s = .next t →
    let unserved := s.pins.doorRelease = false ∨ s.axle.standstill = true ∨ t.axle.standstill = false
    t.route.setLength = s.route.setLength ∨ unserved →
    s.route.distance ≤ t.route.distance ∨ t.route.setLength = s.route.setLength ∧ unserved →
    ∃ before : List Entry, Swept before (decide (s.route.distance < t.route.distance)) s t ∧
      (unserved → before = s.route.table) ∧
      (s.pins.doorRelease = true → s.axle.standstill = false → t.axle.standstill = true →
        before.map (·.tag) = s.route.table.map (·.tag) ∧
        ∀ e ∈ s.route.table, (e.servedIn s → e.served ∈ before) ∧ (¬e.servedIn s → e ∈ before))

/-- R14, R72: the standstill flag and run a sample leaves; the role and the coupled flag taken from the inputs by the table of
R72 at a sample that leaves the flag set, and kept at any other. A run counts the time since its first sample (log entry 11). -/
def Obligations.StandstillGatesRole : Prop :=
  ∀ s t : State, exec .speedSample s = .next t →
    let now := max s.now s.axle.sampleDue
    let slow := (t.axle.refSpeed.natAbs : Int) < s.cfg Setting.standstillThreshold
    let lasted := match s.axle.standstillRun with
      | none => 0
      | some r => r + (now - s.axle.lastSample)
    (t.axle.source = .lost → t.axle.standstill = s.axle.standstill ∧ t.axle.standstillRun = s.axle.standstillRun) ∧
    (t.axle.source ≠ .lost → slow →
      t.axle.standstillRun = some lasted ∧ (t.axle.standstill = true ↔ s.axle.standstill = true ∨ 500 ≤ lasted)) ∧
    (t.axle.source ≠ .lost → ¬slow → t.axle.standstillRun = none ∧ t.axle.standstill = false) ∧
    (t.axle.standstill = true →
      t.lines.role = roleTable s.lines.role s.pins.activeCab s.pins.coupling ∧ t.lines.coupled = s.pins.coupling) ∧
    (t.axle.standstill = false → t.lines.role = s.lines.role ∧ t.lines.coupled = s.lines.coupled)

/-- R8, R9, R14, R57, R64, R65, R72 at their thresholds (log entries 3, 5): AXLE_SUSPECT marks the slower reference axle and
takes SINGLE on the other, AGREEMENT_RUN_COMPLETE returns a SUSPECT axle to OK, and AXLE READ shows it (log entry 12),
STANDSTILL_SET sets the flag with what hangs on it: SAND, the latch, ROLLBACK and the role. -/
def Obligations.AxleThresholdsAct : Prop :=
  ∀ s : State,
    let suspect := fun c : AxleChannel => { c with state := .suspect, shown := { c.shown with state := .suspect } }
    let agreed := fun c : AxleChannel => { c with state := .ok, agreement := none, shown := { c.shown with state := .ok } }
    (∀ start, s.axle.ax2.state = .ok → s.axle.ax3.state = .ok → s.axle.disagreement = some start →
      let v2 := s.axle.ax2.speed
      let v3 := s.axle.ax3.speed
      let u := raise 10 (if v2.natAbs < v3.natAbs then 2 else 3) ((v2 - v3).natAbs : Nat)
        (s.reach (start + (s.cfgN Setting.disagreementTime / 10 + 1) * 10))
      exec .axleSuspect s = .next (u.setAxle (
        if v2.natAbs < v3.natAbs then { s.axle with
          disagreement := none, shownRun := 0, ax2 := suspect s.axle.ax2, source := .single .ax3, refSpeed := v3 }
        else { s.axle with
          disagreement := none, shownRun := 0, ax3 := suspect s.axle.ax3, source := .single .ax2, refSpeed := v2 }))) ∧
    (∀ start, s.axle.ax2.state = .suspect → s.axle.ax3.state = .ok → s.axle.ax2.agreement = some start →
      exec (.agreementRunComplete .ax2) s = .next ((s.reach (start + 10000)).setAxle { s.axle with
        ax2 := agreed s.axle.ax2 })) ∧
    (∀ start, s.axle.ax3.state = .suspect → s.axle.ax2.state = .ok → s.axle.ax3.agreement = some start →
      exec (.agreementRunComplete .ax3) s = .next ((s.reach (start + 10000)).setAxle { s.axle with
        ax3 := agreed s.axle.ax3 })) ∧
    (∀ run, s.axle.standstill = false → s.axle.source ≠ .lost → s.axle.standstillRun = some run →
      ∃ t, exec .standstillSet s = .next t ∧ t.axle.standstill = true ∧ t.axle.standstillRun = some 500 ∧
        sandAsserted t = false ∧ t.halt.causes.rollback = false ∧
        (∀ r, s.halt.latch = some r → t.halt.latch = some { r with stopped := true }) ∧
        t.lines.role = roleTable s.lines.role s.pins.activeCab s.pins.coupling ∧ t.lines.coupled = s.pins.coupling ∧
        t.route.distance = s.route.distance)

/-- R20, R21, R24, R32, R41, R61, R62, R64, R65, R66, R72: what a sample, and STANDSTILL_SET, leave of the halt latch, its causes
and the traction unit. A set latch keeps its record, BRAKING or STOPPED with the flag; one that sets takes the event's time, the
speed and the flag the event leaves, and HALTED, and HALT LATCHED is raised with its first cause and that speed. The acknowledgement run ends with the flag, at a change of role and with a latch that sets, and
else goes on. ROLLBACK ends where the flag is set, DEMAND LOST where the unit leaves TRAIL; HOST stays. The traction state becomes
HALTED or INHIBITED or stays; INHIBITED, unless HALTED, at a change of role. E stays with its bogie efforts and lines, or was
positive and is 0 with them by the closed gate, or is −1000 by BREACH, where a junction entry comes to its C mark. Where the role
stays and no latch sets, nor an entry comes to its C mark under a set one, all of the traction unit is as it was. (STANDSTILL_SET
as a command of its own, and the order within the event: log entries 5, 10, 28.) -/
def Obligations.SampleKeepsLatchAndTraction : Prop :=
  ∀ (c : Instr) (s t : State), c = .speedSample ∨ c = .standstillSet → exec c s = .next t →
    let set := s.axle.standstill = false ∧ t.axle.standstill = true
    let cleared := s.axle.standstill = true ∧ t.axle.standstill = false
    let same := t.lines.role = s.lines.role ∧ t.lines.coupled = s.lines.coupled
    let latches := s.halt.latch = none ∧ t.halt.latch ≠ none
    let leaves := fun r : Role => s.lines.role = r ∧ t.lines.role ≠ r
    let uncrossed := CausesFollow s ∧
      ∀ e ∈ s.route.table, ∀ j, e.body = .junction j → e.crossed ≤ 2 → t.route.distance < j.markC
    let tr := s.traction
    let tt := t.traction
    (∀ r, s.halt.latch = some r → t.halt.latch = some { r with
      stopped := if t.axle.standstill = s.axle.standstill then r.stopped else t.axle.standstill }) ∧
    (∀ r, s.halt.latch = none → t.halt.latch = some r →
      r.time = t.now ∧ r.speed = t.axle.refSpeed ∧ r.stopped = t.axle.standstill ∧ Told s t 30 r.first.code r.speed) ∧
    t.halt.ackRun = (if cleared ∨ ¬same ∨ latches then none else s.halt.ackRun) ∧
    t.halt.causes = { t.halt.causes with
      host := s.halt.causes.host
      rollback := if set then false else s.halt.causes.rollback
      demandLost := if leaves .trail then false else s.halt.causes.demandLost } ∧
    tt = { tr with
      state := tt.state, effort := tt.effort, effortA := tt.effortA, effortB := tt.effortB, lineA := tt.lineA, lineB := tt.lineB
      inEmergency := if leaves .lead then false else tr.inEmergency
      demandLoss := if leaves .trail then none else tr.demandLoss } ∧
    (tt.state = tr.state ∨ tt.state = .inhibited ∨ tt.state = .halted) ∧
    (latches → tt.state = .halted) ∧
    (¬same → tt.state = .inhibited ∨ tt.state = .halted) ∧
    ((tt.effort = tr.effort ∧ tt.effortA = tr.effortA ∧ tt.effortB = tr.effortB ∧ tt.lineA = tr.lineA ∧ tt.lineB = tr.lineB) ∨
      (tr.state = .running ∧ 0 < tr.effort ∧ tt.state ≠ .running ∧ tt.effort = 0 ∧ tt.effortA = 0 ∧ tt.effortB = 0) ∨
      (¬uncrossed ∧ tt.effort = -1000)) ∧
    (s.halt.causes.breach = false → t.halt.causes.breach = true → tt.effort = -1000) ∧
    (same → s.halt.latch = none → t.halt.latch = none → tt = tr) ∧
    (same → s.halt.latch ≠ none → uncrossed → tt = tr)

/-- R16: AXLE RESET is refused NOT_STANDSTILL on the move and RANGE for a channel outside 0..3 that is not ALL; taken, it puts
each channel named in OK with ten zeros in its ring, no tally, no window and no agreement run, clears the disagreement run for
AX2 and AX3, and changes nothing else: AXLE READ goes on sending the last sample's figures (R15, log entry 12). That
standstill is judged before the channel is the model's choice (log entry 13). -/
def Obligations.AxleResetServicesChannels : Prop :=
  ∀ (tag : Nat) (s : State), LinkReady s →
    let fresh := fun c : AxleChannel => { c with
      state := .ok, ring := [0, 0, 0, 0, 0, 0, 0, 0, 0, 0], tally := 0, window := none, agreement := none }
    let done := fun (n : Nat) (x : AxleUnit) => replied tag (.axleReset n) ⟨.ok, []⟩ (s.setAxle x)
    (s.axle.standstill = false → ∀ n,
      exec (.axleReset tag n) s = .next (replied tag (.axleReset n) ⟨.notStandstill, []⟩ s)) ∧
    (s.axle.standstill = true →
      (∀ n, 3 < n → n ≠ 255 → exec (.axleReset tag n) s = .next (replied tag (.axleReset n) ⟨.range, []⟩ s)) ∧
      exec (.axleReset tag 0) s = .next (done 0 { s.axle with ax0 := fresh s.axle.ax0 }) ∧
      exec (.axleReset tag 1) s = .next (done 1 { s.axle with ax1 := fresh s.axle.ax1 }) ∧
      exec (.axleReset tag 2) s = .next (done 2 { s.axle with ax2 := fresh s.axle.ax2, disagreement := none }) ∧
      exec (.axleReset tag 3) s = .next (done 3 { s.axle with ax3 := fresh s.axle.ax3, disagreement := none }) ∧
      exec (.axleReset tag 255) s = .next (done 255 { s.axle with
        ax0 := fresh s.axle.ax0, ax1 := fresh s.axle.ax1, ax2 := fresh s.axle.ax2, ax3 := fresh s.axle.ax3,
        disagreement := none }) ∧
      ∀ (n : Nat) (t : State), exec (.axleReset tag n) s = .next t → ∀ i, axleBytes t i = axleBytes s i)

/-! ### The effort chain -/

/-- R30, R31, R32, R33, R76: stage 1 of a pass takes H from the HANDLE code in LEAD, from DEMAND in TRAIL, 0 in the other roles,
and the previous demand takes it; EB is asserted for an EMERGENCY handle of a LEAD and for BREACH. -/
def Obligations.StageOneReadsDemand : Prop :=
  ∀ (inputs : PassInputs) (s : State), ∃ t, exec (.controlPeriod inputs) s = .next t ∧
    let now := max s.now s.traction.passDue
    let code := inputs.handle
    let h := t.lines.previousDemand
    let held := 247 < code ∧ now < s.traction.invalidRun.getD now + 200
    (s.lines.role = .lead →
      (code ≤ 7 → h = -1000) ∧
      (8 ≤ code → code ≤ 103 → h = -((104 - code) * 1000 / 96 : Nat)) ∧
      (104 ≤ code → code ≤ 151 → h = 0) ∧
      (152 ≤ code → code ≤ 247 → h = ((code - 151) * 1000 / 96 : Nat)) ∧
      (code ≤ 247 → t.traction.lastH = h ∧ t.traction.invalidRun = none ∧ t.traction.handleFaultMark = false) ∧
      (247 < code → h = (if held then s.traction.lastH else 0) ∧
        t.traction.invalidRun = some (s.traction.invalidRun.getD now) ∧
        (s.traction.invalidRun.getD now + 1000 ≤ now → t.traction.handleFaultMark = true))) ∧
    (s.lines.role = .trail →
      (30 ≤ s.lines.demandU → s.lines.demandU ≤ 970 →
        h = clampInt (-1000) 1000 ((((s.lines.demandU : Int) - 500) * 20).tdiv 9) ∧
        t.traction.demandLoss = none ∧ t.halt.causes.demandLost = false) ∧
      (s.lines.demandU < 30 ∨ 970 < s.lines.demandU →
        h = 0 ∧ t.traction.demandLoss = some (s.traction.demandLoss.getD now) ∧
        (s.traction.demandLoss.getD now + 100 ≤ now → t.halt.causes.demandLost = true))) ∧
    (s.lines.role = .noCab ∨ s.lines.role = .conflict → h = 0) ∧
    (ebAsserted t = true ↔ s.halt.causes.breach = true ∨
      s.lines.role = .lead ∧ (code ≤ 7 ∨ held ∧ s.traction.lastHEmergency = true))

/-- R26, R27, R28, R29, R79, R4: the position the selector gives, in TRAIL from the train lines, is held, ignored or taken:
taken with the standstill flag set, with the settle timer, the travel sense and INHIBITED; refused and recorded on the move, where
DIRECTION CHANGE IGNORED is raised with the position and the reference speed, and at no other pass.
An ignored position stays so while the selector stays there, at standstill too, but for the NEUTRAL a trail's lines read at
standstill: it is left ignored, as R26 and R27 say, or taken and the trail INHIBITED, as R79 says, by the free value
`Config.takesIgnoredNeutral`, whatever it is. (That this case is left free is the model's choice: log entry 41. A settle time of
0 leaves a timer that runs: log entry 24.) -/
def Obligations.DirectionTakenAtStandstill : Prop :=
  ∀ (inputs : PassInputs) (s t : State), exec (.controlPeriod inputs) s = .next t →
    let now := max s.now s.traction.passDue
    let p := if s.lines.role = .trail then selected inputs.tlFwd inputs.tlRev else selected inputs.dirF inputs.dirR
    let settle := s.cfgN Setting.settleTime
    let retaken := s.lines.role = .trail ∧ p = .neutral ∧ Config.takesIgnoredNeutral = true
    (p = s.traction.direction → t.traction.direction = p ∧ t.traction.ignored = none ∧ t.traction.settle = s.traction.settle) ∧
    (p ≠ s.traction.direction → s.traction.ignored = some p ∧ ¬retaken ∨ s.axle.standstill = false →
      t.traction.direction = s.traction.direction ∧ t.traction.ignored = some p ∧ t.traction.settle = s.traction.settle ∧
      t.axle.sense = s.axle.sense) ∧
    (p ≠ s.traction.direction → s.traction.ignored ≠ some p ∨ retaken → s.axle.standstill = true →
      t.traction.direction = p ∧ t.traction.ignored = none ∧
      t.traction.settle = (if settle = 0 then s.traction.settle else some (now + settle)) ∧
      t.axle.sense = (match p with
        | .forward => .forward
        | .reverse => .reverse
        | .neutral => s.axle.sense) ∧
      (p = .neutral ∨ settle ≠ 0 → t.traction.state = .inhibited ∨ t.traction.state = .halted)) ∧
    (let refused := p ≠ s.traction.direction ∧ s.traction.ignored ≠ some p ∧ s.axle.standstill = false
    (refused → Told s t 9 (match p with
      | .neutral => 0
      | .forward => 1
      | .reverse => 2) s.axle.refSpeed) ∧
    (¬refused → ∀ n, Untold s t 9 n)) ∧
    t.traction.invDir = (match t.traction.direction with
      | .forward => false
      | .reverse => true
      | .neutral => s.traction.invDir)

/-- R21, R22: a unit found INHIBITED stays so at a pass while an inhibit reason holds, and else leaves it, uncoupled for
RUNNING, coupled for START_HELD (which a pulse may take on to RUNNING), unless the same pass halts it; in states where HALTED
and the latch go together. -/
def Obligations.InhibitReasonsHoldUnit : Prop :=
  ∀ (inputs : PassInputs) (s t : State), HaltLaw s → exec (.controlPeriod inputs) s = .next t → s.traction.state = .inhibited →
    let reason := t.traction.direction = .neutral ∨ s.pins.doorRelease = true ∨ s.lines.role = .conflict ∨
      s.lines.role = .noCab ∨ t.traction.settle ≠ none
    t.traction.state ≠ .halted →
      (reason → t.traction.state = .inhibited) ∧
      (¬reason → s.lines.coupled = false → t.traction.state = .running) ∧
      (¬reason → s.lines.coupled = true → t.traction.state = .startHeld ∨ t.traction.state = .running)

/-- R35, R37, R38: stage 3 takes the effective ceiling as the ceiling in use; overspeed begins at the ceiling and the margin and
ends at the ceiling; rollback past its limit under a held direction is a present cause, and halts. R32, R61, R62, R75: of the
causes a pass makes ROLLBACK present so and else leaves it as it was, takes DEMAND LOST from a TRAIL's DEMAND, and TRAINLINE from
the HALT line where it ends the unit's own drive; HOST, VIGILANCE, JUNCTION, REFERENCE LOST and BREACH stay. A latch that sets in it
takes the time, distance, speed and flag of the pass, and HALT LATCHED is raised with its first cause and the speed. -/
def Obligations.OverspeedAndRollbackJudged : Prop :=
  ∀ (inputs : PassInputs) (s t : State), exec (.controlPeriod inputs) s = .next t →
    let v := s.axle.refSpeed
    t.traction.ceilingInUse = s.route.ceiling ∧
    (s.traction.overspeed = false →
      (t.traction.overspeed = true ↔ s.route.ceiling + s.cfg Setting.overspeedMargin ≤ v)) ∧
    (s.traction.overspeed = true → (t.traction.overspeed = true ↔ s.route.ceiling < v)) ∧
    (t.traction.direction ≠ .neutral → v < -s.cfg Setting.rollbackLimit →
      t.halt.causes.rollback = true ∧ (s.halt.causes.rollback = false → t.halt.latch.isSome = true)) ∧
    (let now := max s.now s.traction.passDue
    let rolls := t.traction.direction ≠ .neutral ∧ v < -s.cfg Setting.rollbackLimit
    let valid := 30 ≤ s.lines.demandU ∧ s.lines.demandU ≤ 970
    let causes := s.halt.causes
    t.halt.causes = { causes with
      rollback := causes.rollback || decide rolls
      demandLost := if s.lines.role ≠ .trail then causes.demandLost
        else if valid then false
        else causes.demandLost || decide (s.traction.demandLoss.getD now + 100 ≤ now)
      trainline := t.halt.causes.trainline } ∧
    (s.lines.halting = false ∨ s.lines.role ≠ .trail ∧ DriveLaw s → t.halt.causes.trainline = causes.trainline) ∧
    (t.halt.causes.trainline = causes.trainline ∨ t.halt.causes.trainline = s.pins.haltLine) ∧
    (∀ r, s.halt.latch ≠ some r → t.halt.latch = some r →
      r = ⟨r.first, now, s.route.distance, v, s.axle.standstill⟩ ∧ Told s t 30 r.first.code v) ∧
    (s.halt.latch = none → ∀ r, t.halt.latch = some r → HaltLatched r.first s t) ∧
    (rolls → causes.rollback = false → s.halt.latch = none → s.lines.role ≠ .trail → HaltLatched .rollback s t))

/-- R20, R34, R35, R36, R39, R40, R41: the ramp moves E as its table says, never past the target, and never across zero within
one pass. After a pass E is −1000 for BREACH and for an EMERGENCY handle of a LEAD; otherwise, in every role and every traction
state, it has moved one such step, a positive E that the power gate closed on within the pass from 0. The target is the halt
brake level in HALTED; under overspeed the smaller of the gated demand and the overspeed brake level; else the gated demand,
tapered under the ceiling when positive. The gated demand is the pass's H, and 0 for a positive H at a gate that stage 2 finds
closed: in INHIBITED, in START_HELD, and under an overspeed that stood before. This holds under settings in their ranges, of a
unit whose HALTED goes with its latch and whose positive E with an open gate, and of any unit the pass leaves in its state. -/
def Obligations.PassMovesEffort : Prop :=
  (∀ rp rb rr e target : Int, 0 < rp → 0 < rb → 0 < rr →
    let e' := rampEffort rp rb rr e target
    RampStep rp rb rr e target e' ∧ (e ≤ target → e ≤ e' ∧ e' ≤ target) ∧ (target ≤ e → target ≤ e' ∧ e' ≤ e) ∧
    (0 < e → 0 ≤ e') ∧ (e < 0 → e' ≤ 0)) ∧
  ∀ (inputs : PassInputs) (s t : State), exec (.controlPeriod inputs) s = .next t →
    let rp := s.cfg Setting.powerBuild
    let rb := s.cfg Setting.brakeBuild
    let rr := s.cfg Setting.release
    let limit := clampInt 0 1000 (((s.route.ceiling - s.axle.refSpeed) * 1000).tdiv (s.cfg Setting.taperBand))
    let closes := s.traction.state = .running ∧
      (t.traction.state ≠ .running ∨ s.traction.overspeed = false ∧ t.traction.overspeed = true)
    let e := if 0 < s.traction.effort ∧ closes then 0 else s.traction.effort
    let open2 := t.traction.state = .running ∧ s.traction.overspeed = false
    let h2 := if 0 < t.lines.previousDemand ∧ ¬open2 then 0 else t.lines.previousDemand
    let target := if t.traction.state = .halted then -s.cfg Setting.haltBrake
      else if t.traction.overspeed = true then min h2 (s.cfg Setting.overspeedBrake)
      else if 0 < h2 then min h2 limit
      else h2
    (ebAsserted t = true → t.traction.effort = -1000) ∧
    (SettingsLaw s.settings → HaltLaw s ∧ GateLaw s.traction ∨ t.traction.state = s.traction.state → ebAsserted t = false →
      RampStep rp rb rr e target t.traction.effort)

/-- R42, R43, R44, R45, R46: the bogie efforts a pass leaves are E shared by the factors and scaled by the limits; the effort
lines are low in INHIBITED at E 0 and carry 500 + E × 9 / 20 otherwise; a LEAD drives DEMAND with its demand, 500 for a power
demand at a closed gate, and the line of its held direction. The limits stay in use until the next pass. Every other block
stays but for sounds, events and halts. (That a pass acts at its due time: log entry 4.) -/
def Obligations.PassWritesOutputs : Prop :=
  ∀ (inputs : PassInputs) (s t : State), exec (.controlPeriod inputs) s = .next t →
    let e := t.traction.effort
    let share := fun k : Int =>
      let x := (e * k).tdiv 1000
      if 0 < x then (x * s.cfg Setting.powerLimit).tdiv 1000 else (x * s.cfg Setting.brakeLimit).tdiv 1000
    let duty := fun x : Int => 500 + (x * 9).tdiv 20
    let h := t.lines.previousDemand
    t.traction.effortA = share t.adhesion.a.k ∧ t.traction.effortB = share t.adhesion.b.k ∧
    t.traction.powerLimit = s.cfg Setting.powerLimit ∧ t.traction.brakeLimit = s.cfg Setting.brakeLimit ∧
    (t.traction.state = .inhibited → e = 0 → t.traction.lineA = .low ∧ t.traction.lineB = .low) ∧
    (t.traction.state ≠ .inhibited ∨ e ≠ 0 →
      t.traction.lineA = .duty (duty t.traction.effortA) ∧ t.traction.lineB = .duty (duty t.traction.effortB)) ∧
    (s.lines.role = .lead →
      (h ≤ 0 → t.lines.demandDrive = some (duty h)) ∧
      (0 < h → gateOpen t = false → t.lines.demandDrive = some 500) ∧
      (0 < h → gateOpen t = true → s.traction.overspeed = false → t.lines.demandDrive = some (duty h)) ∧
      (t.lines.tlFwdDrive = true ↔ t.traction.direction = .forward) ∧
      (t.lines.tlRevDrive = true ↔ t.traction.direction = .reverse)) ∧
    (s.lines.role ≠ .lead → t.lines.demandDrive = s.lines.demandDrive ∧
      t.lines.tlFwdDrive = s.lines.tlFwdDrive ∧ t.lines.tlRevDrive = s.lines.tlRevDrive) ∧
    t.traction.passDue = max s.now s.traction.passDue + 10 ∧
    t.axle = { s.axle with sense := t.axle.sense } ∧ t.lines.role = s.lines.role ∧ t.lines.coupled = s.lines.coupled ∧
    t.lines.demandU = s.lines.demandU ∧ t.vigilance = s.vigilance ∧ t.route = s.route ∧ t.junction = s.junction ∧
    t.stop = s.stop ∧ t.sound.loaded = s.sound.loaded ∧ t.settings.frozen = s.settings.frozen ∧
    t.now = max s.now s.traction.passDue ∧
    t.host = { s.host with events := t.host.events, incomplete := t.host.incomplete }

/-- R28, R31, R32 at their expiries (log entries 3, 5): the settle timer stops; the handle hold ends with no EMERGENCY, its H of
0 formed by the next pass; HANDLE FAULT is raised once for its run with the code on the pin; DEMAND LOST becomes present, is
raised with the measured duty, and halts, a clear latch with DEMAND LOST as its first cause, also where that duty is valid again but
no pass has ended the run yet (log entry 5). -/
def Obligations.EffortTimersAct : Prop :=
  ∀ s : State,
    (∀ x, s.traction.settle = some x →
      exec .directionSettleExpiry s = .next ((s.reach x).setTraction { s.traction with settle := none })) ∧
    (∀ x, s.lines.role = .lead → s.traction.invalidRun = some x →
      exec .handleHoldExpiry s = .next ((s.reach (x + 200)).setTraction { s.traction with inEmergency := false })) ∧
    (∀ x, s.lines.role = .lead → s.traction.handleFaultMark = false → s.traction.invalidRun = some x →
      exec .handleFault s = .next (raise 21 0 s.pins.handle
        ((s.reach (x + 1000)).setTraction { s.traction with handleFaultMark := true }))) ∧
    (s.traction.handleFaultMark = true → exec .handleFault s = .next s) ∧
    (∀ x, s.lines.role = .trail → s.halt.causes.demandLost = false → s.traction.demandLoss = some x →
      ∃ t, exec .demandLost s = .next t ∧ t.halt.causes.demandLost = true ∧ t.halt.latch.isSome = true ∧
        (s.halt.latch = none → HaltLatched .demandLost s t) ∧ (∀ r, s.halt.latch = some r → t.halt.latch = some r) ∧
        Told s t 3 0 s.lines.demandU ∧
        t.now = max s.now (x + 100) ∧ t.axle = s.axle ∧ t.adhesion = s.adhesion ∧ t.route = s.route ∧
        t.junction = s.junction ∧ t.stop = s.stop ∧ t.vigilance = s.vigilance ∧ t.pins = s.pins)

/-- R20, R21, R22, R144, R149: DOOR_RELEASE asserted takes a unit in RUNNING or START_HELD to INHIBITED, with a positive E and
both bogie efforts gone at once, and clears the stop-request latch; at standstill every stop entry in its window, its approach
crossed, becomes SERVED, with STOP SERVED, and retirement is judged; released, it is only noted. A level already there is no
event (log entry 29). (The order of the consequences: log entry 22; no retirement where no stop is served: log entry 38.) -/
def Obligations.DoorReleaseStopsPower : Prop :=
  ∀ s : State,
    (s.pins.doorRelease = false → ∃ t, exec .doorReleaseAsserted s = .next t ∧ t.pins.doorRelease = true ∧
      t.stop.latch = none ∧
      (s.traction.state = .running ∨ s.traction.state = .startHeld → t.traction.state = .inhibited) ∧
      (s.traction.state = .halted → t.traction = s.traction) ∧
      (s.traction.state = .running → 0 < s.traction.effort → t.traction.effort = 0 ∧ t.traction.effortA = 0 ∧
        t.traction.effortB = 0 ∧ t.traction.lineA = .low ∧ t.traction.lineB = .low) ∧
      (s.traction.effort ≤ 0 → t.traction = { s.traction with state := t.traction.state }) ∧
      t.now = s.now ∧ t.axle = s.axle ∧ t.halt = s.halt ∧ t.vigilance = s.vigilance ∧ t.lines = s.lines ∧
      t.junction = s.junction ∧ t.stop.buttons = s.stop.buttons ∧
      (s.settings.pending = [] → (s.axle.standstill = false ∨ ∀ e ∈ s.route.table, ¬e.servedIn s) → t.route = s.route) ∧
      (s.settings.pending = [] → RouteLaw s.route → s.axle.standstill = true → (∃ e ∈ s.route.table, e.servedIn s) →
        CeilingFormed t ∧ InhibitFormed t ∧ t.route.distance = s.route.distance ∧
        ∀ e ∈ s.route.table,
          let after := fun e' : Entry =>
            (e'.body.retiresIn s t → ∀ x ∈ t.route.table, x.tag ≠ e.tag) ∧ (¬e'.body.retiresIn s t → e' ∈ t.route.table)
          (e.servedIn s → after e.served) ∧ (¬e.servedIn s → after e)) ∧
      (∀ e p, s.settings.pending = [] → RouteLaw s.route → s.axle.standstill = true → s.host.events = [] →
        e ∈ s.route.table → e.servedIn s → e.body = .stop p → (∀ x ∈ s.route.table, x.servedIn s → x = e) →
        t.host.events = [⟨5, e.tag, false, p.stop, s.route.distance⟩])) ∧
    (s.pins.doorRelease = true → exec .doorReleaseAsserted s = .next s) ∧
    exec .doorReleaseReleased s = .next (s.setPins { s.pins with doorRelease := false })

/-! ### The adhesion section -/

/-- R49 to R54: the bogie a pass leaves. E at 0 puts it in ADHERING with factor 1000 and no fault; a change of sign does so
before it is judged; a marked fault holds it; else its slip, measured as R50 says, is judged by the thresholds of R51 and the
tables of R52 and R53; a stay in SLIPPING longer than its limit is a fault. (A FAILED channel under LOST, and the fault judged
last: log entries 15, 16.) -/
def Obligations.AdhesionFollowsSlip : Prop :=
  ∀ (inputs : PassInputs) (s t : State) (i : Bogie), exec (.controlPeriod inputs) s = .next t →
    let now := max s.now s.traction.passDue
    let e := t.traction.effort
    let ref : Int := s.axle.refSpeed.natAbs
    let axle := match i with
      | .a => s.axle.ax0
      | .b => s.axle.ax1
    let ahead : Int := (axle.speed.natAbs : Int) - ref
    let slip : Int := if axle.sampled = .failed then 0 else if 0 < e then ahead else -ahead
    let on := max (s.cfg Setting.absoluteThreshold) ((ref * s.cfg Setting.relativeThreshold).tdiv 1000)
    let old := s.adhesion.bogie i
    let b := if s.adhesion.lastSign ≠ 0 ∧ s.adhesion.lastSign ≠ e.sign then ⟨.adhering, 1000, none, false⟩ else old
    let cut := max (s.cfg Setting.kMin) (b.k - s.cfg Setting.cutStep)
    let judged : BogieState :=
      if axle.sampled ≠ .failed ∧ s.axle.source = .lost then b
      else if on < slip then
        { b with state := .slipping, k := cut, slipTimer := if b.state = .slipping then b.slipTimer else some now }
      else match b.state with
        | .adhering => b
        | .slipping => if slip ≤ on.tdiv 2 then { b with state := .recovering, slipTimer := none } else b
        | .recovering =>
          let k := min 1000 (b.k + s.cfg Setting.recoveryStep)
          { b with state := if k = 1000 then .adhering else .recovering, k := k }
    let outlasted := judged.state = .slipping ∧
      judged.slipTimer.any (fun x => decide (x + s.cfgN Setting.slipTimeLimit * 1000 < now)) = true
    t.adhesion.lastSign = e.sign ∧
    (e = 0 → t.adhesion.bogie i = ⟨.adhering, 1000, none, false⟩) ∧
    (e ≠ 0 → b.fault = true → t.adhesion.bogie i = b) ∧
    (e ≠ 0 → b.fault = false → ¬outlasted → t.adhesion.bogie i = judged) ∧
    (e ≠ 0 → b.fault = false → outlasted →
      t.adhesion.bogie i = { judged with k := s.cfg Setting.kMin, slipTimer := none, fault := true })

/-- R54, R50: ADHESION_FAULT, at the first step past the limit (log entries 3, 5): the factor at its minimum, the mark set,
the timer stopped, and the event with the slip speed under the last step's sign, 0 for a FAILED channel. With the reference
LOST that slip speed is the model's free value, of which nothing is known (log entry 14). (A FAILED channel under LOST: log
entry 15.) -/
def Obligations.AdhesionFaultHoldsFactor : Prop :=
  ∀ (i : Bogie) (x : Nat) (s : State),
    let b := s.adhesion.bogie i
    let axle := match i with
      | .a => s.axle.ax0
      | .b => s.axle.ax1
    let subject := match i with
      | .a => 0
      | .b => 1
    let ahead : Int := (axle.speed.natAbs : Int) - s.axle.refSpeed.natAbs
    let marked := (s.reach (x + s.cfgN Setting.slipTimeLimit * 1000 + 10)).setAdhesion
      (s.adhesion.setBogie i { b with k := s.cfg Setting.kMin, slipTimer := none, fault := true })
    b.state = .slipping → b.fault = false → b.slipTimer = some x →
    (axle.sampled = .failed → exec (.adhesionFault i) s = .next (raise 23 subject 0 marked)) ∧
    (axle.sampled ≠ .failed → s.axle.source ≠ .lost → exec (.adhesionFault i) s =
      .next (raise 23 subject (if s.adhesion.lastSign < 0 then -ahead else ahead) marked)) ∧
    (axle.sampled ≠ .failed → s.axle.source = .lost → exec (.adhesionFault i) s =
      .next (raise 23 subject (Config.unmeasuredSlip s.freeCount) (marked.setFreeCount (s.freeCount + 1))))

/-- R55, R56, R58: SAND after a pass: begun from OFF for the sand max when a factor is at the threshold, the tram above the
minimum speed and not at standstill, and no inhibit holds; ended when one of these fails; not touched in RESTING. A run's
expiry begins the rest, the rest's expiry ends it (the clock: log entry 3). STATUS carries the sand state the last pass left:
byte 19 of its snapshot. -/
def Obligations.SandFollowsConditions : Prop :=
  (∀ (inputs : PassInputs) (s t : State), exec (.controlPeriod inputs) s = .next t →
    let now := max s.now s.traction.passDue
    let wanted := (t.adhesion.a.k ≤ s.cfg Setting.sandThreshold ∨ t.adhesion.b.k ≤ s.cfg Setting.sandThreshold) ∧
      s.cfg Setting.sandMinSpeed ≤ s.axle.refSpeed ∧ s.axle.standstill = false ∧ s.route.sandInhibit = false
    (s.adhesion.sand = .off →
      t.adhesion.sand = if wanted then .on (now + s.cfgN Setting.sandMax * 1000) else .off) ∧
    (∀ x, s.adhesion.sand = .on x → t.adhesion.sand = if wanted then .on x else .off) ∧
    (∀ x, s.adhesion.sand = .resting x → t.adhesion.sand = .resting x) ∧ t.adhesion.stepSand = t.adhesion.sand) ∧
  (∀ s : State,
    let code : Byte := match s.adhesion.stepSand with
      | .off => 0
      | .on _ => 1
      | .resting _ => 2
    (statusBytes s)[19]? = some code) ∧
  (∀ (x : Nat) (s : State), s.adhesion.sand = .on x → exec .sandRunExpiry s = .next ((s.reach x).setAdhesion
    { s.adhesion with sand := .resting (max s.now x + s.cfgN Setting.sandRest * 1000) })) ∧
  (∀ (x : Nat) (s : State), s.adhesion.sand = .resting x →
    exec .sandRestExpiry s = .next ((s.reach x).setAdhesion { s.adhesion with sand := .off }))

/-! ### Halts, vigilance and the train lines -/

/-- R24, R61, R62, R63, R65, R74, R75: HALT, which finds the link ready, is answered OK and makes HOST present. It sets a
clear latch with its record, takes the unit to HALTED with no positive E, clears a retained pulse, raises HALT LATCHED with HOST and
the speed, and asks for HALT WARNING, which an idle buzzer plays; a set latch keeps its record, and nothing is raised or asked for. RESUME is answered OK and ends HOST alone; a set latch stays. The HALT line is driven while a cause that counts is
present and its output enabled; where the drive ends, TRAINLINE takes the line's level at once. Nothing else changes but
sounds, events and settings that unlock. Of causes that become present together, in any block, the one of highest code is the first
cause of a clear latch, and a set latch keeps its own. (The order of the consequences: log entry 36.) -/
def Obligations.HaltLatchesAndResumeEndsHost : Prop :=
  (∀ (cs : List Cause) (s : State),
    let t := addCauses cs s
    (∀ first ∈ cs, s.halt.latch = none → s.halt.causes.has first = false →
      (∀ c ∈ cs, s.halt.causes.has c = false → c.code ≤ first.code) →
      HaltLatched first s t ∧ t.halt.ackRun = none ∧ t.traction.state = .halted ∧ t.lines.retained = none) ∧
    (∀ r, s.halt.latch = some r →
      t.halt.latch = some r ∧ t.halt.ackRun = s.halt.ackRun ∧ t.sound = s.sound ∧ ∀ n, Untold s t 30 n)) ∧
  ∀ (tag : Nat) (s : State), LinkReady s → HaltLaw s →
    (∃ t, exec (.halt tag) s = .next t ∧
      Replies tag .halt .ok [] t ∧
      t.halt.causes = { s.halt.causes with host := true, trainline := t.halt.causes.trainline } ∧
      (s.halt.latch = none →
        t.halt.latch = some ⟨.host, s.now, s.route.distance, s.axle.refSpeed, s.axle.standstill⟩ ∧ t.halt.ackRun = none ∧
        t.traction.state = .halted ∧ t.lines.retained = none ∧ HaltLatched .host s t ∧
        (s.sound.buzzer = ⟨.idle, []⟩ → t.sound.buzzer = ⟨.playing 0 0 0 (s.now + 300), []⟩) ∧
        (s.traction.effort ≤ 0 → t.traction.effort = s.traction.effort) ∧
        (s.traction.state = .running → 0 < s.traction.effort →
          t.traction.effort = 0 ∧ t.traction.effortA = 0 ∧ t.traction.effortB = 0 ∧
          t.traction.lineA = .duty 500 ∧ t.traction.lineB = .duty 500)) ∧
      (∀ r, s.halt.latch = some r → t.halt.latch = some r ∧ t.traction = s.traction ∧ t.sound = s.sound ∧
        ∀ n, Untold s t 30 n) ∧
      (t.lines.halting = true ↔ s.cfg Setting.haltOutput = 1) ∧
      t.axle = s.axle ∧ t.adhesion = s.adhesion ∧ t.vigilance = s.vigilance ∧ t.route = s.route ∧
      t.junction = s.junction ∧ t.stop = s.stop ∧ t.pins = s.pins ∧ t.now = s.now) ∧
    (∃ t, exec (.resume tag) s = .next t ∧
      Replies tag .resume .ok [] t ∧
      t.halt.causes = { s.halt.causes with host := false, trainline := t.halt.causes.trainline } ∧
      (∀ r, s.halt.latch = some r → t.halt.latch = some r ∧ t.traction.state = .halted) ∧
      (t.lines.halting = true ↔ s.cfg Setting.haltOutput = 1 ∧ t.halt.causes.counts = true) ∧
      (s.lines.halting = false → t.halt.causes.trainline = s.halt.causes.trainline) ∧
      (s.lines.halting = true → t.lines.halting = false → t.halt.causes.trainline = s.pins.haltLine) ∧
      t.axle = s.axle ∧ t.adhesion = s.adhesion ∧ t.vigilance = s.vigilance ∧ t.route = s.route ∧
      t.junction = s.junction ∧ t.stop = s.stop ∧ t.pins = s.pins ∧ t.now = s.now)

/-- R66, R67: a pass on a latch that is STOPPED, with no cause and the HALT line not driven, continues the acknowledgement run
while H is at −900 or deeper and ends it otherwise; the pass 1 s after the run's first releases the latch, and the unit is
INHIBITED unless a new cause arises in it; HALT RELEASED is raised with the first cause and the seconds since the latching.
HALT_RELEASED does the same at that time (log entries 3, 5). R62, R64, R179: nothing else releases the latch. Every command but a
pass, HALT_RELEASED, POWER_UP and a RESTART FULL that is taken leaves a set latch set, with its record, BRAKING or STOPPED with the
flag. A pass leaves it so, with the run ended, where it is BRAKING or H above −900, and lets it go only where it is STOPPED, H at
−900 or deeper, the run 1 s old and no cause present, but for the causes that the same pass of a TRAIL has ended: a DEMAND LOST
whose DEMAND it finds valid, and a TRAINLINE that went with the drive this ended. HALT_RELEASED lets go only a STOPPED latch with
no cause present and its run under way. -/
def Obligations.AcknowledgementReleasesHalt : Prop :=
  (∀ (c : Instr) (r : LatchRecord) (s t : State), exec c s = .next t → s.halt.latch = some r →
    (∀ inputs, c ≠ .controlPeriod inputs) → c ≠ .haltReleased → c ≠ .powerUp →
    (s.axle.standstill = true → ¬(s.lines.role = .lead ∧ s.lines.coupled = true) → ¬RestartsFull c s) →
    t.halt.latch = some { r with
      stopped := if t.axle.standstill = s.axle.standstill then r.stopped else t.axle.standstill }) ∧
  (∀ (inputs : PassInputs) (r : LatchRecord) (s t : State), exec (.controlPeriod inputs) s = .next t →
    s.halt.latch = some r →
    let h := t.lines.previousDemand
    let ends := fun x : Cause => s.lines.role = .trail ∧ 30 ≤ s.lines.demandU ∧ s.lines.demandU ≤ 970 ∧
      (x = .demandLost ∨ x = .trainline ∧ s.lines.halting = true)
    (r.stopped = false ∨ -900 < h → t.halt.latch = some r ∧ t.halt.ackRun = none) ∧
    (t.halt.latch ≠ some r → r.stopped = true ∧ h ≤ -900 ∧
      (∃ start, s.halt.ackRun = some start ∧ start + 1000 ≤ max s.now s.traction.passDue) ∧
      (∀ x, s.halt.causes.has x = true → ends x) ∧ Told s t 20 r.first.code ((t.now - r.time) / 1000 : Nat))) ∧
  (∀ (r : LatchRecord) (s t : State), exec .haltReleased s = .next t → s.halt.latch = some r → t.halt.latch ≠ some r →
    r.stopped = true ∧ s.halt.causes.any = false ∧ s.halt.ackRun ≠ none) ∧
  (∀ (inputs : PassInputs) (r : LatchRecord) (s t : State), exec (.controlPeriod inputs) s = .next t →
    s.halt.latch = some r → r.stopped = true → s.halt.causes.any = false → s.lines.halting = false →
    let now := max s.now s.traction.passDue
    let start := s.halt.ackRun.getD now
    let h := t.lines.previousDemand
    (-900 < h → t.halt.latch = some r ∧ t.halt.ackRun = none) ∧
    (h ≤ -900 → now < start + 1000 → t.halt.latch = some r ∧ t.halt.ackRun = some start) ∧
    (h ≤ -900 → start + 1000 ≤ now → Told s t 20 r.first.code ((now - r.time) / 1000 : Nat)) ∧
    (h ≤ -900 → start + 1000 ≤ now → t.halt.causes.any = false →
      t.halt.latch = none ∧ t.halt.ackRun = none ∧ t.traction.state = .inhibited)) ∧
  (∀ (r : LatchRecord) (x : Nat) (s : State), s.halt.latch = some r → r.stopped = true → s.halt.causes.any = false →
    s.halt.ackRun = some x → ∃ t, exec .haltReleased s = .next t ∧
      Told s t 20 r.first.code ((max s.now (x + 1000) - r.time) / 1000 : Nat) ∧
      t.halt = { s.halt with latch := none, ackRun := none } ∧ t.traction = { s.traction with state := .inhibited } ∧
      t.now = max s.now (x + 1000) ∧ t.axle = s.axle ∧ t.adhesion = s.adhesion ∧ t.vigilance = s.vigilance ∧
      t.lines = s.lines ∧ t.route = s.route ∧ t.junction = s.junction ∧ t.stop = s.stop ∧ t.pins = s.pins)

/-- R68, R69, R70, R71: the vigilance monitor under a press, a release and the expiry of the timer its state runs. On an empty
event set the two warnings raise VIGILANCE WARNING, with subject 0 for the released handle and 1 for the held one, and the
reference speed as value; and a VIGILANCE WARNING pattern is asked for: on an idle buzzer it plays. A trip sets a clear latch with
VIGILANCE as its first cause. (The clock: log entry 3; a
press of an input already asserted: log entry 29.) -/
def Obligations.VigilanceFollowsItsTable : Prop :=
  (∀ s : State,
    let held := fun t : State => t.vigilance = ⟨.held, some (s.now + s.cfgN Setting.holdLimit * 1000)⟩
    let trips := fun (x : Nat) (t : State) => t.vigilance = ⟨.tripped, none⟩ ∧ t.now = max s.now x ∧
      t.halt.causes.vigilance = true ∧ (HaltLaw s → t.halt.latch.isSome = true ∧ t.traction.state = .halted ∧
        (s.halt.latch = none → HaltLatched .vigilance s t))
    let kept := fun t : State => t.axle = s.axle ∧ t.adhesion = s.adhesion ∧ t.route = s.route ∧
      t.junction = s.junction ∧ t.stop = s.stop ∧ t.lines.role = s.lines.role
    (s.pins.vigil = false → ∃ t, exec .vigilPress s = .next t ∧ kept t ∧ t.pins = { s.pins with vigil := true } ∧
      (s.vigilance.state = .off ∨ s.vigilance.state = .held → t.vigilance = s.vigilance) ∧
      (s.vigilance.state = .released ∨ s.vigilance.state = .warnReleased ∨ s.vigilance.state = .warnHeld → held t) ∧
      (s.vigilance.state = .tripped → t.halt.causes.vigilance = false ∧
        (∀ r, s.halt.latch = some r → t.halt.latch = some r) ∧
        if s.lines.role = .lead ∧ s.axle.standstill = false then held t else t.vigilance = ⟨.off, none⟩)) ∧
    (s.pins.vigil = true → exec .vigilPress s = .next s) ∧
    (s.pins.vigil = true → exec .vigilRelease s = .next (
      let u := s.setPins { s.pins with vigil := false }
      if s.vigilance.state = .held then
        u.setVigilance ⟨.released, some (s.now + s.cfgN Setting.vigilanceGrace * 1000)⟩ else u)) ∧
    (∀ x, s.vigilance = ⟨.held, some x⟩ → ∃ t, exec .holdLimitExpiry s = .next t ∧ kept t ∧
      t.vigilance = ⟨.warnHeld, some (max s.now x + 5000)⟩ ∧ t.halt = s.halt ∧ t.traction = s.traction ∧ t.lines = s.lines) ∧
    (∀ x, s.vigilance = ⟨.released, some x⟩ → ∃ t, exec .graceExpiry s = .next t ∧ kept t ∧
      t.vigilance = ⟨.warnReleased, some (max s.now x + s.cfgN Setting.warnToHalt * 1000)⟩ ∧
      t.halt = s.halt ∧ t.traction = s.traction ∧ t.lines = s.lines) ∧
    (∀ x, s.vigilance = ⟨.warnReleased, some x⟩ → ∃ t, exec .warnToHaltExpiry s = .next t ∧ kept t ∧ trips x t) ∧
    (∀ x, s.vigilance = ⟨.warnHeld, some x⟩ → ∃ t, exec .repressWindowExpiry s = .next t ∧ kept t ∧ trips x t)) ∧
  ∀ (x : Nat) (s t : State), s.host.events = [] → s.settings.pending = [] → s.sound.buzzer = ⟨.idle, []⟩ →
    (s.vigilance = ⟨.held, some x⟩ → exec .holdLimitExpiry s = .next t →
      t.host.events = [⟨22, 1, false, s.axle.refSpeed, s.route.distance⟩] ∧
      t.sound.buzzer = ⟨.playing 4 0 0 (max s.now x + 800), []⟩) ∧
    (s.vigilance = ⟨.released, some x⟩ → exec .graceExpiry s = .next t →
      t.host.events = [⟨22, 0, false, s.axle.refSpeed, s.route.distance⟩] ∧
      t.sound.buzzer = ⟨.playing 4 0 0 (max s.now x + 800), []⟩)

/-- R72, R73, R78: changed role inputs are held and nothing more. A DEMAND window gives u; in a LEAD that wrote one duty
through it, more than 40 per mille apart counts toward the conflict run and 40 or less clears it; the tenth makes the role
CONFLICT, with the lines let go, the unit INHIBITED (where HALTED, the latch and the HALT drive follow the causes), the run
cleared, and ROLE CONFLICT raised with the measured duty. (A window with no written duty leaves the run: log entry 25. A window ends at its due time, and the next is due 10 ms
on: log entry 4.) -/
def Obligations.DemandWindowFindsConflict : Prop :=
  (∀ (activeCab coupling : Bool) (s : State), exec (.roleInputChange activeCab coupling) s =
    .next (s.setPins { s.pins with activeCab := activeCab, coupling := coupling })) ∧
  (∀ (high : Nat) (s : State), high ≤ 10000 →
    let now := max s.now s.lines.demandDue
    let l := { s.lines with demandU := high / 10, demandChanged := false, demandDue := now + 10 }
    let watched := fun w : Int => s.lines.role = .lead ∧ s.lines.demandDrive = some w ∧ s.lines.demandChanged = false
    ((∀ w, ¬watched w) → exec (.demandWindowExpiry high) s = .next ((s.setNow now).setLines l)) ∧
    (∀ w, watched w →
      (((high / 10 : Nat) - w).natAbs ≤ 40 →
        exec (.demandWindowExpiry high) s = .next ((s.setNow now).setLines { l with conflictRun := 0 })) ∧
      (40 < ((high / 10 : Nat) - w).natAbs → s.lines.conflictRun < 9 → exec (.demandWindowExpiry high) s =
        .next ((s.setNow now).setLines { l with conflictRun := s.lines.conflictRun + 1 })) ∧
      (40 < ((high / 10 : Nat) - w).natAbs → 9 ≤ s.lines.conflictRun →
        ∃ t, exec (.demandWindowExpiry high) s = .next t ∧
          t.lines = { l with
            role := .conflict, conflictRun := 0, demandDrive := none, tlFwdDrive := false, tlRevDrive := false
            halting := t.lines.halting, retained := t.lines.retained } ∧
          (HaltLaw s → DriveLaw s → s.traction.state = .running ∨ s.traction.state = .startHeld →
            t.traction.state = .inhibited) ∧
          Told s t 4 0 (high / 10 : Nat) ∧ t.traction.inEmergency = false ∧ (∀ r, s.halt.latch = some r → t.halt.latch = some r) ∧
          t.axle = s.axle ∧ t.pins = s.pins ∧ t.now = now)))

/-- R75, R77: a change of the HALT line is sensed by a unit that does not drive it: TRAINLINE follows it, and asserted it sets
a clear latch, with TRAINLINE as its first cause, HALT LATCHED and HALT WARNING, and clears a retained pulse. A unit that drives the line takes no notice. A level already there is no event (log
entry 29). -/
def Obligations.HaltLineBringsTrainline : Prop :=
  ∀ (asserted : Bool) (s : State),
    (s.pins.haltLine = asserted → exec (.haltLineChange asserted) s = .next s) ∧
    (s.pins.haltLine ≠ asserted → s.lines.halting = true →
      exec (.haltLineChange asserted) s = .next (s.setPins { s.pins with haltLine := asserted })) ∧
    (s.pins.haltLine ≠ asserted → s.lines.halting = false → ∃ t, exec (.haltLineChange asserted) s = .next t ∧
      t.pins = { s.pins with haltLine := asserted } ∧ t.halt.causes = { s.halt.causes with trainline := asserted } ∧
      (asserted = true → t.lines = { s.lines with retained := none } ∧
        (HaltLaw s → t.halt.latch.isSome = true ∧ t.traction.state = .halted ∧
          (s.halt.latch = none → HaltLatched .trainline s t))) ∧
      (s.halt.latch ≠ none → t.sound = s.sound ∧ ∀ n, Untold s t 30 n) ∧
      (asserted = false → t = (s.setPins t.pins).setHalt { s.halt with causes := t.halt.causes }) ∧
      (∀ r, s.halt.latch = some r → t.halt.latch = some r) ∧
      t.axle = s.axle ∧ t.adhesion = s.adhesion ∧ t.vigilance = s.vigilance ∧ t.route = s.route ∧
      t.junction = s.junction ∧ t.stop = s.stop ∧ t.now = s.now)

/-- R23, R76, R77: a start edge, sensed by a unit that is not emitting and knows the HALT line released, takes START_HELD to
RUNNING and is retained for the start retention time; any other edge is ignored. Emission and retention end at their expiries
(log entry 3). A pass begins an emission in LEAD alone, and only where the demand rises from 0 or less to more: then a unit in
RUNNING or START_HELD whose direction stands emits for 50 ms, and is RUNNING unless the pass halts it, the pulse retained. -/
def Obligations.StartPulseStartsUnit : Prop :=
  (∀ s : State,
    let u := if s.traction.state = .startHeld then s.setTraction { s.traction with state := .running } else s
    let kept := s.cfgN Setting.startRetention
    (s.lines.emission = none → s.lines.halting = false → s.pins.haltLine = false → exec .startEdge s =
      .next (if kept = 0 then u else u.setLines { s.lines with retained := some (s.now + kept) })) ∧
    (s.lines.emission ≠ none ∨ s.lines.halting = true ∨ s.pins.haltLine = true → exec .startEdge s = .next s) ∧
    (∀ x, s.lines.emission = some x →
      exec .startEmissionExpiry s = .next ((s.reach x).setLines { s.lines with emission := none })) ∧
    (∀ x, s.lines.retained = some x →
      exec .startRetentionExpiry s = .next ((s.reach x).setLines { s.lines with retained := none }))) ∧
  (∀ (inputs : PassInputs) (s t : State), exec (.controlPeriod inputs) s = .next t →
    let now := max s.now s.traction.passDue
    (s.lines.role ≠ .lead ∨ 0 < s.lines.previousDemand ∨ t.lines.previousDemand ≤ 0 ∨ s.lines.emission ≠ none →
      t.lines.emission = s.lines.emission) ∧
    (s.lines.role = .lead → s.lines.previousDemand ≤ 0 → 0 < t.lines.previousDemand → s.lines.emission = none →
      s.lines.halting = false → s.pins.haltLine = false → s.traction.state = .running ∨ s.traction.state = .startHeld →
      (t.traction.state = .running → t.lines.emission = some (now + 50)) ∧
      (selected inputs.dirF inputs.dirR = s.traction.direction →
        t.lines.emission = some (now + 50) ∧ (t.traction.state = .running ∨ t.traction.state = .halted) ∧
        (HaltLaw s → t.traction.state = .running → s.cfgN Setting.startRetention ≠ 0 →
          t.lines.retained = some (now + s.cfgN Setting.startRetention)))))

/-! ### Resets -/

/-- R18, R47, R60, R72, R81, R105, R106, R132, R151, R164, R172, R180: POWER_UP ends by sampling the role and the coupled flag,
sensing the HALT line and judging the loop. With no cab key, no partner, a released HALT line and LOOP_OK asserted it leaves the
reset state, its decoders and STOPREQ at the pins' present levels. (That the pins, the waiting commands and the free values'
counter outlive it, and that a HALT line asserted at its end sets the latch within it, are the model's: log entries 34, 55.) -/
def Obligations.PowerUpRestoresReset : Prop :=
  ∀ s : State,
    (s.pins.activeCab = false → s.pins.coupling = false → s.pins.haltLine = false → s.pins.loopOk = true →
      exec .powerUp s = .next { State.reset with
        pending := s.pending
        freeCount := s.freeCount
        pins := s.pins
        axle := { State.reset.axle with
          ax0 := { State.reset.axle.ax0 with phaseA := s.axle.ax0.phaseA, phaseB := s.axle.ax0.phaseB }
          ax1 := { State.reset.axle.ax1 with phaseA := s.axle.ax1.phaseA, phaseB := s.axle.ax1.phaseB }
          ax2 := { State.reset.axle.ax2 with phaseA := s.axle.ax2.phaseA, phaseB := s.axle.ax2.phaseB }
          ax3 := { State.reset.axle.ax3 with phaseA := s.axle.ax3.phaseA, phaseB := s.axle.ax3.phaseB } }
        stop := { State.reset.stop with sensed := s.pins.stopreqLine } }) ∧
    ∃ t, exec .powerUp s = .next t ∧ t.now = 0 ∧ t.pins = s.pins ∧
      t.lines.role = roleTable .noCab s.pins.activeCab s.pins.coupling ∧ t.lines.coupled = s.pins.coupling ∧
      t.route.setLength = (if s.pins.coupling then 640 else 320) ∧
      t.halt.causes = { Causes.none with trainline := s.pins.haltLine } ∧
      (t.halt.latch.isSome = true ↔ s.pins.haltLine = true) ∧
      t.junction.loop = (if s.pins.loopOk then .normal else .fault) ∧ t.junction.transmitter = .idle ∧
      t.axle.standstill = true ∧ t.axle.refSpeed = 0 ∧ t.traction.effort = 0 ∧ t.route.table = [] ∧
      t.settings.effective = [] ∧ t.settings.pending = [] ∧ ⟨1, 0, false, 0, 0⟩ ∈ t.host.events ∧
      t.host.lastReset = .powerUp

/-- R179, R18, R47, R60, R81, R83, R105, R132, R151, R164, R172: a RESTART is refused NOT_STANDSTILL on the move, and FULL
also WRONG_ROLE in a coupled lead. FULL gives every block its reset value at the present time, answers OK, and ends by sampling
the role and the coupled flag, sensing the HALT line and judging the loop: with no cab key, no partner, a released HALT line and
LOOP_OK asserted it leaves the reset values whole, and RESTARTED with subject 0 alone in the event set; any other levels change of
them the role, the flag and the set length, the loop, and the latch with what a halt brings. JOURNEY is answered OK, raises
RESTARTED with subject 1, and empties the route, the slots, the junction
queues, the transmitter and the stop-request latch, ends JUNCTION and BREACH, and leaves the axle unit, the vigilance monitor,
the role, the masks and the buttons alone. (The order of the refusals, the route distance 0 of RESTARTED, the role sampled
afresh, the orphaned turn and the latch set within the reset by a HALT line asserted there are the model's: log entries 13, 26, 27,
35, 55.) -/
def Obligations.RestartsResetTheirBlocks : Prop :=
  ∀ (tag : Nat) (s : State), LinkReady s →
    (s.axle.standstill = false →
      exec (.restartFull tag) s = .next (replied tag (.restart 0) ⟨.notStandstill, []⟩ s)) ∧
    (s.axle.standstill = true → s.lines.role = .lead → s.lines.coupled = true →
      exec (.restartFull tag) s = .next (replied tag (.restart 0) ⟨.wrongRole, []⟩ s)) ∧
    (s.axle.standstill = true → ¬(s.lines.role = .lead ∧ s.lines.coupled = true) →
      s.pins.activeCab = false → s.pins.coupling = false → s.pins.haltLine = false → s.pins.loopOk = true →
      exec (.restartFull tag) s = .next (replied tag (.restart 0) ⟨.ok, []⟩ { s with
        axle := .atReset s.now (.atReset s.axle.ax0.phaseA s.axle.ax0.phaseB) (.atReset s.axle.ax1.phaseA s.axle.ax1.phaseB)
          (.atReset s.axle.ax2.phaseA s.axle.ax2.phaseB) (.atReset s.axle.ax3.phaseA s.axle.ax3.phaseB)
        traction := .atReset s.now
        adhesion := .atReset
        halt := .atReset
        vigilance := .atReset
        lines := .atReset s.now
        route := .atReset
        junction := .atReset
        stop := .atReset s.now s.pins.stopreqLine
        sound := .atReset
        settings := .atReset
        host := { s.host with events := [⟨2, 0, false, 0, 0⟩], incomplete := false, lastReset := .full } })) ∧
    (s.axle.standstill = true → ¬(s.lines.role = .lead ∧ s.lines.coupled = true) →
      ∃ t, exec (.restartFull tag) s = .next t ∧ Replies tag (.restart 0) .ok [] t ∧ t.now = s.now ∧ t.pins = s.pins ∧
        t.axle = .atReset s.now (.atReset s.axle.ax0.phaseA s.axle.ax0.phaseB) (.atReset s.axle.ax1.phaseA s.axle.ax1.phaseB)
          (.atReset s.axle.ax2.phaseA s.axle.ax2.phaseB) (.atReset s.axle.ax3.phaseA s.axle.ax3.phaseB) ∧
        t.adhesion = .atReset ∧ t.vigilance = .atReset ∧ t.stop = .atReset s.now s.pins.stopreqLine ∧
        t.lines = { TrainLines.atReset s.now with
          role := roleTable .noCab s.pins.activeCab s.pins.coupling, coupled := s.pins.coupling } ∧
        t.route = { RouteEngine.atReset with setLength := if s.pins.coupling then 640 else 320 } ∧
        t.junction = { JunctionUnit.atReset with loop := if s.pins.loopOk then .normal else .fault } ∧
        t.halt.causes = { Causes.none with trainline := s.pins.haltLine } ∧ t.halt.ackRun = none ∧
        (s.pins.haltLine = false → t.halt.latch = none ∧ t.traction = .atReset s.now ∧ t.sound = .atReset ∧
          t.settings = .atReset) ∧
        (s.pins.haltLine = true → t.halt.latch = some ⟨.trainline, s.now, 0, 0, true⟩ ∧
          t.traction = { Traction.atReset s.now with state := .halted } ∧
          t.sound.buzzer = ⟨.playing 0 0 0 (s.now + 300), []⟩ ∧ t.settings.effective = [] ∧ t.settings.pending = [] ∧
          ⟨30, 3, false, 0, 0⟩ ∈ t.host.events) ∧
        ⟨2, 0, false, 0, 0⟩ ∈ t.host.events ∧ (⟨25, 0, false, 0, 0⟩ ∈ t.host.events ↔ s.pins.loopOk = false) ∧
        t.host.incomplete = false ∧ t.host.lastReset = .full ∧ t.host.queue = [⟨tag, .restart 0⟩]) ∧
    (s.axle.standstill = false →
      exec (.restartJourney tag) s = .next (replied tag (.restart 1) ⟨.notStandstill, []⟩ s)) ∧
    (s.axle.standstill = true → ∃ t, exec (.restartJourney tag) s = .next t ∧ Replies tag (.restart 1) .ok [] t ∧
      t.route.active = false ∧ t.route.distance = 0 ∧ t.route.residue = 0 ∧ t.route.table = [] ∧ t.route.sandInhibit = false ∧
      (∀ i, t.junction.slot i = ⟨.free, false, none⟩) ∧ t.junction.cancelQueue = [] ∧ t.junction.signalQueue = [] ∧
      t.junction.transmitter = .idle ∧ t.junction.urgentRun = 0 ∧ t.junction.masks = s.junction.masks ∧
      t.junction.loop = s.junction.loop ∧ t.halt.causes.junction = false ∧ t.halt.causes.breach = false ∧
      t.stop.latch = none ∧ t.stop.buttons = s.stop.buttons ∧ t.axle = s.axle ∧ t.vigilance = s.vigilance ∧
      t.lines.role = s.lines.role ∧ Told s t 2 1 0 ∧ t.host.lastReset = .journey ∧ t.now = s.now ∧ t.pins = s.pins)

/-! ### The route table -/

/-- R82, R83, R92, R101, R102, R61: ROUTE START, ROUTE END and ROUTE REMOVE with their refusals in order, which change
nothing. A start makes the route active at its origin with residue 0; on an empty table the ceiling is the line ceiling, or
the degraded one if lower and the reference is DEGRADED or LOST, and the sand inhibit is off. An end empties the table and the
slots that held entries, keeps the queues and the distance, and JUNCTION and BREACH are no longer present. A removal takes the
entry out of the table, and nothing else changes but what is formed afresh from it. Each leaves the effective ceiling the
smallest of the terms in force and the sand inhibit on exactly within [C, X] of a junction entry. (A turn under way at the end
of its table: log entry 35.) -/
def Obligations.RouteStartsEndsAndRemoves : Prop :=
  ∀ (tag : Nat) (s : State), LinkReady s → RouteLaw s.route →
    (∀ origin,
      let refused := fun status => exec (.routeStart tag origin) s =
        .next (replied tag (.routeStart origin) ⟨status, []⟩ s)
      let low := s.cfg Setting.degradedCeiling
      let lowered := (s.axle.source = .lost ∨ ∃ i, s.axle.source = .degraded i) ∧ low < s.cfg Setting.lineCeiling
      (4000000 < origin → refused .range) ∧
      (origin ≤ 4000000 → s.axle.standstill = false → refused .notStandstill) ∧
      (origin ≤ 4000000 → s.axle.standstill = true → s.route.active = true → s.route.table ≠ [] → refused .inUse) ∧
      (origin ≤ 4000000 → s.axle.standstill = true → s.route.table = [] →
        ∃ t, exec (.routeStart tag origin) s = .next t ∧ Replies tag (.routeStart origin) .ok [] t ∧
          t.route = { s.route with
            active := true, distance := origin, residue := 0, sandInhibit := false
            ceiling := t.route.ceiling, term := t.route.term } ∧
          (lowered → t.route.ceiling = low ∧ t.route.term = .degraded) ∧
          (¬lowered → t.route.ceiling = s.cfg Setting.lineCeiling ∧ t.route.term = .line) ∧
          CeilingFormed t ∧ InhibitFormed t ∧ t = (s.setRoute t.route).setHost t.host)) ∧
    (s.axle.standstill = false → exec (.routeEnd tag) s = .next (replied tag .routeEnd ⟨.notStandstill, []⟩ s)) ∧
    (s.axle.standstill = true → s.route.active = false →
      exec (.routeEnd tag) s = .next (replied tag .routeEnd ⟨.ok, []⟩ s)) ∧
    (s.axle.standstill = true → s.route.active = true → ∃ t, exec (.routeEnd tag) s = .next t ∧
      Replies tag .routeEnd .ok [] t ∧ t.route.active = false ∧ t.route.table = [] ∧ t.route.residue = 0 ∧
      t.route.distance = s.route.distance ∧ t.route.sandInhibit = false ∧
      (∀ i, t.junction.slot i = match (s.junction.slot i).holder with
        | .entry _ => ⟨.free, false, none⟩
        | _ => s.junction.slot i) ∧
      t.junction.cancelQueue = s.junction.cancelQueue ∧ t.junction.signalQueue = s.junction.signalQueue ∧
      t.halt.causes.junction = false ∧ t.halt.causes.breach = false ∧ CeilingFormed t ∧ InhibitFormed t ∧
      (∀ r, s.halt.latch = some r → t.halt.latch = some r) ∧
      t.axle = s.axle ∧ t.stop = s.stop ∧ t.vigilance = s.vigilance ∧ t.pins = s.pins ∧ t.now = s.now) ∧
    (∀ entryTag,
      let refused := fun status => exec (.routeRemove tag entryTag) s =
        .next (replied tag (.routeRemove entryTag) ⟨status, []⟩ s)
      (entryTag = 0 → refused .range) ∧
      (entryTag ≠ 0 → (∀ e ∈ s.route.table, e.tag ≠ entryTag) → refused .notFound) ∧
      (∀ e ∈ s.route.table, e.tag = entryTag →
        let free := match e.body with
          | .junction j => j.state = .pending ∨ j.state = .passed ∨ j.state = .cancelled
          | .signal g => g.state = .ahead ∨ g.state = .calledOff
          | .stop p => p.state = .ahead ∨ p.state = .served ∨ p.state = .passed
          | .restriction r => r.state = .ahead ∨ r.state = .done
        (¬free → refused .lockedEntry) ∧
        (free → ∃ t, exec (.routeRemove tag entryTag) s = .next t ∧ Replies tag (.routeRemove entryTag) .ok [] t ∧
          t.route = { s.route with
            table := s.route.table.filter fun x => x.tag != entryTag
            ceiling := t.route.ceiling, term := t.route.term, sandInhibit := t.route.sandInhibit } ∧
          CeilingFormed t ∧ InhibitFormed t ∧
          t = ((s.setRoute t.route).setAdhesion t.adhesion).setHost t.host)))

/-- R88, R89, R90, R91: ROUTE INSERT: the first check of the table of R90 that fails decides the reply, and nothing changes; an
entry that passes joins after every entry with a key mark at or below its own, with no mark crossed, and the reply gives its
index and the number of entries. The effective ceiling and the sand inhibit are formed afresh, and nothing else changes but
what follows from them. The overlap check refuses a junction entry exactly when its interval shares a distance with four counted
entries that share it too, or with a counted entry of its junction. (A fix position beyond the range is BAD_MARKS, and a derived
mark is not judged for its range: log entries 21, 44.) -/
def Obligations.RouteInsertKeepsOrder : Prop :=
  (∀ (table : List Entry) (j : JunctionEntry), j.markA < j.markX → (∀ o ∈ counted table, o.markA < o.markX) →
    (overlaps table j = true ↔
      (∃ p, j.markA ≤ p ∧ p < j.markX ∧
        4 ≤ ((counted table).filter fun o => decide (o.markA ≤ p) && decide (p < o.markX)).length) ∨
      ∃ o ∈ counted table, o.junction = j.junction ∧ ∃ p, j.markA ≤ p ∧ p < j.markX ∧ o.markA ≤ p ∧ p < o.markX)) ∧
  ∀ (tag : Nat) (r : EntryRecord) (s : State), LinkReady s → RouteLaw s.route →
    let refused := fun status => exec (.routeInsert tag r) s = .next (replied tag (.routeInsert r) ⟨status, []⟩ s)
    let beyond := fun m : Nat => 16000000 < m
    let outside := r.tag = 0 ∨ 3 < r.kind ∨ beyond r.mark1 ∨ beyond r.mark2 ∨
      r.kind = 0 ∧ (beyond r.mark3 ∨ beyond r.mark4 ∨ r.ident = 0 ∨ 2 < r.option) ∨
      r.kind = 1 ∧ (r.ident = 0 ∨ r.option = 0 ∨ 3 < r.option) ∨ r.kind = 2 ∧ r.ident = 0 ∨
      r.kind = 3 ∧ (r.ceiling < 1000 ∨ 25000 < r.ceiling)
    let body : EntryBody :=
      if r.kind = 0 then .junction ⟨r.mark1, r.mark2, r.mark3, r.mark4, if r.fixPresent then some r.fix else none, r.ident,
        if r.option = 0 then .left else if r.option = 1 then .straight else .right, .pending, none, 0, 0⟩
      else if r.kind = 1 then .signal ⟨r.mark1, r.mark2, r.ident, r.option, .ahead, none⟩
      else if r.kind = 2 then .stop ⟨r.mark1, r.mark2, r.ident, r.requestOnly, .ahead⟩
      else .restriction ⟨r.mark1, r.mark2, r.ceiling, .ahead⟩
    let ordered := if r.kind = 0 then r.mark1 < r.mark2 ∧ r.mark2 ≤ r.mark3 ∧ r.mark3 < r.mark4 ∧
        (r.fixPresent = true → r.mark1 ≤ r.fix ∧ r.fix ≤ r.mark3)
      else r.mark1 < r.mark2
    let known := ∃ e ∈ s.route.table, e.tag = r.tag
    let late := r.mark1 < s.route.distance + s.cfgN Setting.insertMargin
    let clash := clashes s.route.table body = true
    let before := s.route.table.takeWhile fun e => decide (e.body.key ≤ r.mark1)
    let after := s.route.table.dropWhile fun e => decide (e.body.key ≤ r.mark1)
    (s.route.active = false → refused .noRoute) ∧
    (s.route.active = true → outside → refused .range) ∧
    (s.route.active = true → ¬outside → s.route.table.length = 96 → refused .tableFull) ∧
    (s.route.active = true → ¬outside → s.route.table.length < 96 → known → refused .duplicateTag) ∧
    (s.route.active = true → ¬outside → s.route.table.length < 96 → ¬known → ¬ordered → refused .badMarks) ∧
    (s.route.active = true → ¬outside → s.route.table.length < 96 → ¬known → ordered → late → refused .tooLate) ∧
    (s.route.active = true → ¬outside → s.route.table.length < 96 → ¬known → ordered → ¬late → clash →
      refused .overlap) ∧
    (s.route.active = true → ¬outside → s.route.table.length < 96 → ¬known → ordered → ¬late → ¬clash →
      ∃ t, exec (.routeInsert tag r) s = .next t ∧
        Replies tag (.routeInsert r) .ok
          (bytesBE 1 before.length ++ bytesBE 1 (s.route.table.length + 1 : Nat)) t ∧
        t.route = { s.route with
          table := before ++ ⟨r.tag, 0, body⟩ :: after
          ceiling := t.route.ceiling, term := t.route.term, sandInhibit := t.route.sandInhibit } ∧
        CeilingFormed t ∧ InhibitFormed t ∧ t = ((s.setRoute t.route).setAdhesion t.adhesion).setHost t.host)

/-! ### Junction requests and the loop -/

/-- R106, R107, R117: LOOP_OK released in NORMAL brings FAULT, ends a turn under way and raises LOOP FAULT with the
transmitter's phase; in FAULT it changes the level alone, as LOOP_OK asserted again does. LOOP RESET is answered OK with
nothing changed in NORMAL, LOOP_BAD while LOOP_OK is released, and else returns the loop to NORMAL. MASK and UNMASK of another
number than 0..5 are refused RANGE; MASK sets the requester's mask alone; UNMASK clears it, and changes nothing else while the
arbiter may not grant. (That LOOP_OK asserted again comes as an operand of LOOP_OK_RELEASED, and that a release brings FAULT in
the TRAIL role too, are the model's: log entries 9, 58.) -/
def Obligations.LoopAndMasksHoldRequests : Prop :=
  (∀ s : State, s.pins.loopOk = true →
    let seen := s.setPins { s.pins with loopOk := false }
    let phase : Int := match s.junction.transmitter with
      | .idle => 0
      | .sending _ _ => 1
      | .listening _ _ => 2
    (s.junction.loop = .normal → exec (.loopOkReleased false) s =
      .next (raise 25 0 phase (seen.setJunction { s.junction with loop := .fault, transmitter := .idle }))) ∧
    (s.junction.loop = .fault → exec (.loopOkReleased false) s = .next seen)) ∧
  (∀ s : State, s.pins.loopOk = false →
    exec (.loopOkReleased true) s = .next (s.setPins { s.pins with loopOk := true })) ∧
  (∀ (tag : Nat) (s : State), LinkReady s →
    (s.junction.loop = .normal → exec (.loopReset tag) s = .next (replied tag .loopReset ⟨.ok, []⟩ s)) ∧
    (s.junction.loop = .fault → s.pins.loopOk = false →
      exec (.loopReset tag) s = .next (replied tag .loopReset ⟨.loopBad, []⟩ s)) ∧
    (s.junction.loop = .fault → s.pins.loopOk = true → ∃ t, exec (.loopReset tag) s = .next t ∧
      Replies tag .loopReset .ok [] t ∧ t.junction.loop = .normal ∧ t.junction.cancelQueue = s.junction.cancelQueue ∧
      t.junction.signalQueue = s.junction.signalQueue ∧ t.junction.masks = s.junction.masks ∧ t.pins = s.pins ∧
      t.axle = s.axle ∧ t.traction = s.traction ∧ t.halt = s.halt ∧ t.stop = s.stop ∧ t.lines = s.lines) ∧
    (∀ n, 5 < n → exec (.mask tag n) s = .next (replied tag (.mask n) ⟨.range, []⟩ s) ∧
      exec (.unmask tag n) s = .next (replied tag (.unmask n) ⟨.range, []⟩ s)) ∧
    (∀ n r, requesterNamed n = some r →
      let masked := fun b => s.setJunction { s.junction with masks := s.junction.masks.put r b }
      exec (.mask tag n) s = .next (replied tag (.mask n) ⟨.ok, []⟩ (masked true)) ∧
      (s.junction.transmitter ≠ .idle ∨ s.junction.loop = .fault ∨ s.lines.role = .trail →
        exec (.unmask tag n) s = .next (replied tag (.unmask n) ⟨.ok, []⟩ (masked false))) ∧
      ∃ t, exec (.unmask tag n) s = .next t ∧ Replies tag (.unmask n) .ok [] t ∧
        t.junction.masks = s.junction.masks.put r false ∧ t.axle = s.axle ∧ t.traction = s.traction ∧ t.halt = s.halt ∧
        t.stop = s.stop ∧ t.lines = s.lines ∧ t.sound = s.sound ∧ t.settings = s.settings))

/-- R106, R108, R109, R111, R115, R116, R117: the arbiter grants only with the transmitter IDLE, the loop NORMAL and the role
not TRAIL, and only a requester that waits and is not masked; else it changes nothing. Where it may and such a requester
waits, it grants: while the urgent run is below its budget the urgent slot first in the cycle from the rotation position (from
the LOW position where the rotation stands there), raising the run; else by rotation, the first position from the rotation
position that has one: a HIGH requester at its own, at LOW the first LOW requester from the LOW position; the run ends and the
positions advance past what was granted. The turn carries the requester's telegram. A slot's grant takes its request and raises the telegrams sent of its
entry by one, up to 65,535; it leaves the other slots and entries, and any grant the masks, the queues, the loop and every other
block, as they were. -/
def Obligations.ArbiterGrantsEligibleOnly : Prop :=
  ∀ s : State,
    let t := tryGrant s
    let u := t.junction
    let may := s.junction.transmitter = .idle ∧ s.junction.loop = .normal ∧ s.lines.role ≠ .trail
    let eligible := fun r : Requester => waits s r = true ∧ s.junction.masks.get r = false
    let entered := fun r : Requester => ∀ i, r = requesterOf i → ∃ j, slotJunction s i = some j
    let high := fun r : Requester => s.cfg (Setting.classOf r) = 0
    let urgent := fun r : Requester => eligible r ∧ ∃ i j, r = requesterOf i ∧ slotJunction s i = some j ∧
      (j.state = .asking ∨ j.state = .overdue) ∧ j.markE ≤ s.route.distance + s.cfgN Setting.urgencyDistance
    let start := match s.junction.rotation with
      | .at r => r.place
      | .low => s.junction.low.place
    let offers := fun p : RotationPosition => match p with
      | .at r => high r ∧ eligible r
      | .low => ∃ r, ¬high r ∧ eligible r
    let position := fun p : RotationPosition => match p with
      | .at r => high r
      | .low => ∃ r, ¬high r
    let byRotation := s.cfgN Setting.urgentBudget ≤ s.junction.urgentRun ∨ ∀ r, ¬urgent r
    let first := fun p => offers p ∧ ∀ q, offers q →
      ahead 7 s.junction.rotation.place p.place ≤ ahead 7 s.junction.rotation.place q.place
    let advanced := fun p : RotationPosition => position u.rotation ∧ u.urgentRun = 0 ∧ ∀ q, position q →
      ahead 7 (p.place + 1) u.rotation.place ≤ ahead 7 (p.place + 1) q.place
    let granted := fun r : Requester => ∃ turn x, u.transmitter = .sending turn x ∧ turn.holder = r
    (¬may ∨ (∀ r, ¬eligible r) → tryGrant s = s) ∧
    t = (s.setRoute { s.route with table := t.route.table }).setJunction { s.junction with
      transmitter := u.transmitter, j0 := u.j0, j1 := u.j1, j2 := u.j2, j3 := u.j3
      rotation := u.rotation, low := u.low, urgentRun := u.urgentRun } ∧
    (∀ turn x, s.junction.transmitter = .idle → u.transmitter = .sending turn x →
      (∀ i, u.slot i = { s.junction.slot i with
        waiting := (s.junction.slot i).waiting && decide (turn.holder ≠ requesterOf i) }) ∧
      t.route.table = s.route.table.map fun e => if turn.entry = some e.tag then { e with body := e.body.sentOnce } else e) ∧
    (u.transmitter = .idle → (∀ i, u.slot i = s.junction.slot i) ∧ t.route = s.route) ∧
    (∀ turn x, s.junction.transmitter = .idle → u.transmitter = .sending turn x →
      may ∧ eligible turn.holder ∧ turn.window = s.cfgN Setting.answerWindow ∧ turn.answered = false ∧
      x = s.now + (match turn.telegram with
        | .pointRequest _ _ _ _ => 7
        | _ => 5) ∧
      (∀ i, turn.holder = requesterOf i → (u.slot i).waiting = false ∧ ∃ j, slotJunction s i = some j ∧
        turn.entry = (s.junction.slot i).tag? ∧
        turn.telegram = .pointRequest j.junction j.direction s.lines.coupled (s.cfgN Setting.tramNumber)) ∧
      (∀ c rest, turn.holder = .cancel → s.junction.cancelQueue = c :: rest →
        turn.entry = none ∧ turn.telegram = .pointCancel c.junction (s.cfgN Setting.tramNumber)) ∧
      (∀ g rest, turn.holder = .signal → s.junction.signalQueue = g :: rest → turn.entry = none ∧ turn.telegram =
        if g.clear then .priorityClear g.signal (s.cfgN Setting.tramNumber)
        else .priorityCall g.signal g.level (s.cfgN Setting.tramNumber))) ∧
    (s.junction.transmitter = .idle → u.transmitter = .idle ∨ ∃ turn x, u.transmitter = .sending turn x) ∧
    (∀ r, may → s.junction.urgentRun < s.cfgN Setting.urgentBudget → urgent r →
      (∀ q, urgent q → ahead 6 start r.place ≤ ahead 6 start q.place) →
      granted r ∧ u.urgentRun = s.junction.urgentRun + 1 ∧ u.rotation = s.junction.rotation ∧ u.low = s.junction.low) ∧
    (∀ r, may → byRotation → first (.at r) → entered r → granted r ∧ advanced (.at r) ∧ u.low = s.junction.low) ∧
    (∀ r, may → byRotation → first .low → ¬high r → eligible r → entered r →
      (∀ q, ¬high q → eligible q → ahead 6 s.junction.low.place r.place ≤ ahead 6 s.junction.low.place q.place) →
      granted r ∧ advanced .low ∧ ¬high u.low ∧
      ∀ q, ¬high q → ahead 6 (r.place + 1) u.low.place ≤ ahead 6 (r.place + 1) q.place)

/-! ### Junction requests and their telegrams -/

/-- R108, R109, R111, R112, R114, R116, R119, R128: what ends a turn and what repeats a request, each at its time (log entry
3). At the end of the airtime a telegram with a window listens for it; any other ends the turn, as a window taken away by the
role TRAIL does, and a queue has lost the telegram it has sent. At the end of a window an asking entry that heard nothing
counts one more unanswered turn, JUNCTION SILENT at the limit. An expired repeat timer asks or calls again and restarts, a
call at a full queue being dropped; a slot that no longer asks stops. A PRIORITY CLEAR takes the place of its entry's first
waiting call, and no call of the entry is left. Whenever a turn ends (an urgent slot having asked again at the end of its own)
or a request is raised the arbiter is run, which grants as ArbiterGrantsEligibleOnly says. -/
def Obligations.TurnsEndAndRepeatsFallDue : Prop :=
  ∀ s : State,
    (∀ turn x, s.junction.transmitter = .sending turn x →
      let u := s.reach x
      let listening := Transmitter.listening turn (max s.now x + turn.window)
      let rest := s.junction.signalQueue.tail
      (turn.telegram.listens = true → turn.window ≠ 0 → turn.holder ≠ .cancel → turn.holder ≠ .signal →
        exec .telegramAirtimeEnd s = .next (u.setJunction { s.junction with transmitter := listening })) ∧
      (turn.telegram.listens = true → turn.window ≠ 0 → turn.holder = .signal → exec .telegramAirtimeEnd s =
        .next (u.setJunction { s.junction with signalQueue := rest, transmitter := listening })) ∧
      (turn.telegram.listens = false ∨ turn.window = 0 → turn.holder ≠ .cancel → turn.holder ≠ .signal →
        exec .telegramAirtimeEnd s = .next (tryGrant (u.setJunction { s.junction with transmitter := .idle }))) ∧
      (turn.telegram.listens = false ∨ turn.window = 0 → turn.holder = .signal → exec .telegramAirtimeEnd s =
        .next (tryGrant (u.setJunction { s.junction with signalQueue := rest, transmitter := .idle }))) ∧
      (∀ c queue, turn.telegram.listens = false → turn.holder = .cancel → s.junction.cancelQueue = c :: queue →
        ∃ t, exec .telegramAirtimeEnd s = .next t ∧ t.junction.cancelQueue = queue ∧
          (t.junction.slot c.slot).holder ≠ .cancelled ∧ t.junction.signalQueue = s.junction.signalQueue ∧
          (∃ u, t = tryGrant u ∧ u.junction.transmitter = .idle) ∧
          t.now = max s.now x ∧ t.axle = s.axle ∧ t.stop = s.stop ∧ t.vigilance = s.vigilance ∧ t.pins = s.pins)) ∧
    ((∀ turn x, s.junction.transmitter ≠ .sending turn x) → exec .telegramAirtimeEnd s = .next s) ∧
    (∀ turn x, s.junction.transmitter = .listening turn x → ∃ t, exec .answerWindowExpiry s = .next t ∧
      t.now = max s.now x ∧ t.junction.cancelQueue = s.junction.cancelQueue ∧
      t.junction.signalQueue = s.junction.signalQueue ∧ (∀ y, t.junction.transmitter ≠ .listening turn y) ∧
      (∀ tag j, turn.entry = some tag → junctionOf s tag = some j →
        let counts := j.state.asks = true ∧ turn.answered = false
        let run := if counts then min 255 (j.unanswered + 1) else j.unanswered
        ∃ sent, Sends tag j.sent sent s t ∧ junctionOf t tag = some { j with unanswered := run, sent := sent } ∧
          t.host = if run = s.cfgN Setting.silenceLimit ∧ run ≠ j.unanswered then (raise 18 tag run s).host else s.host) ∧
      (turn.entry = none → t.host = s.host) ∧
      (∃ u, t = tryGrant u ∧ u.junction.transmitter = .idle ∧
        ∀ i, u.junction.slot i = if turn.holder = requesterOf i ∧ urgent s i = true
          then { s.junction.slot i with waiting := true } else s.junction.slot i) ∧
      t.axle = s.axle ∧ t.traction = s.traction ∧ t.halt = s.halt ∧ t.vigilance = s.vigilance ∧ t.lines = s.lines ∧
      t.stop = s.stop ∧ t.sound = s.sound ∧ t.settings = s.settings ∧ t.pins = s.pins) ∧
    ((∀ turn x, s.junction.transmitter ≠ .listening turn x) → exec .answerWindowExpiry s = .next s) ∧
    (∀ i x, (s.junction.slot i).timer = some x →
      let slot := s.junction.slot i
      let again := max s.now x + s.cfgN Setting.repeatInterval
      let asks := (slotJunction s i).any fun j => j.state.asks
      (asks = true → exec (.slotRepeatExpiry i) s = .next (tryGrant ((s.reach x).setJunction
        (s.junction.setSlot i { slot with waiting := true, timer := some again })))) ∧
      (asks = false → exec (.slotRepeatExpiry i) s = .next ((s.reach x).setJunction
        (s.junction.setSlot i { slot with timer := none })))) ∧
    (∀ i, (s.junction.slot i).timer = none → exec (.slotRepeatExpiry i) s = .next s) ∧
    (∀ tag g x, signalOf s tag = some g → g.state = .calling → g.timer = some x →
      let u := changeEntry tag (Entry.onSignal fun g =>
        { g with timer := some (max s.now x + s.cfgN Setting.repeatInterval) }) (s.reach x)
      let own : SignalItem := ⟨tag, false, g.signal, g.level⟩
      let sending := ∃ turn y, s.junction.transmitter = .sending turn y ∧ turn.holder = .signal
      (4 ≤ s.junction.signalQueue.length → exec (.signalRepeatExpiry tag) s = .next u) ∧
      (¬sending → own ∈ s.junction.signalQueue → exec (.signalRepeatExpiry tag) s = .next u) ∧
      ((∀ i ∈ s.junction.signalQueue, i.tag ≠ tag) → s.junction.signalQueue.length < 4 →
        exec (.signalRepeatExpiry tag) s = .next (tryGrant (u.setJunction
          { s.junction with signalQueue := s.junction.signalQueue ++ [own] })))) ∧
    (∀ tag, (∀ g, signalOf s tag = some g → g.state ≠ .calling ∨ g.timer = none) →
      exec (.signalRepeatExpiry tag) s = .next s) ∧
    ∀ (clear call : SignalItem) (before after : List SignalItem),
      let calls := fun i : SignalItem => i.tag = clear.tag ∧ i.clear = false
      (∀ turn y, s.junction.transmitter = .sending turn y → turn.holder ≠ .signal) → clear.clear = true →
      (∀ i ∈ s.junction.signalQueue, i.tag = clear.tag → i.clear = false) →
      s.junction.signalQueue = before ++ call :: after → calls call → (∀ i ∈ before, ¬calls i) →
      offerSignal clear s = tryGrant (s.setJunction
        { s.junction with signalQueue := before ++ clear :: after.filter fun i => decide (¬calls i) })

/-- R97, R98, R101, R108, R110, R121, R122, R123, R124, R129, R183: what an answer of the trackside does. Nothing, while the
transmitter is SENDING or the role TRAIL, when the telegram is discarded, when no slot-holding entry (no CALLING entry)
carries its ID, or when the entry is REFUSED or BREACHED. An asking entry records it and becomes SET, stays asking or becomes
REFUSED by the table of R121; a SET entry stays SET or loses its lock by the marks crossed, past its C with the full braking
of BREACH. A new SET entry with a fix position F moves the route distance to F within the tolerance, a rise with its sweep,
and else raises FIX REJECTED. The effective ceiling is formed afresh. An ACK makes every CALLING entry with its ID
ACKNOWLEDGED, its timer stopped and its waiting call removed. (That a REFUSED or BREACHED entry takes nothing at all, and that a
telegram is heard or lost by the moment of its command, are the model's: log entries 20, 59.) -/
def Obligations.TracksideAnswersAreJudged : Prop :=
  ∀ (telegram : List Byte) (s : State), RouteLaw s.route →
    let deaf := s.lines.role = .trail ∨ ∃ turn x, s.junction.transmitter = .sending turn x
    let tram := s.cfgN Setting.tramNumber
    (deaf → exec (.pointAnswer telegram) s = .next s ∧ exec (.priorityAck telegram) s = .next s) ∧
    (parsePointAnswer tram telegram = none → exec (.pointAnswer telegram) s = .next s) ∧
    (parsePriorityAck tram telegram = none → exec (.priorityAck telegram) s = .next s) ∧
    (∀ ident a, parsePointAnswer tram telegram = some (ident, a) →
      (holderOf ident s = none → exec (.pointAnswer telegram) s = .next s) ∧
      (∀ e j, holderOf ident s = some (e, j) → ¬deaf →
        let heard : Transmitter := match s.junction.transmitter with
          | .listening turn x => .listening { turn with answered := turn.answered || turn.entry == some e.tag } x
          | other => other
        let recorded := (changeEntry e.tag (fun e => { e with body := .junction { j with
          answer := some a, unanswered := 0 } }) s).setJunction { s.junction with transmitter := heard }
        let fits := a.position.code = j.direction.code ∧ a.locked = true
        let asks := j.state = .asking ∨ j.state = .overdue
        let becomes := fun (st : JunctionState) (t : State) => ∃ sent, Sends e.tag j.sent sent s t ∧ junctionOf t e.tag =
          some { j with state := st, answer := some a, unanswered := 0, sent := sent }
        let told := fun (kind : Nat) (value : Int) (t : State) => s.host.events = [] →
          ∃ v ∈ t.host.events, v.kind = kind ∧ v.subject = e.tag ∧ v.value = value
        let counts := fun t : State => (t.halt.causes.junction = true ↔ ∃ x ∈ t.route.table, ∃ k, x.body = .junction k ∧
          (k.state = .overdue ∨ k.state = .refused ∨ k.state = .breached))
        let held := fun t : State => t.axle = s.axle ∧ t.vigilance = s.vigilance ∧ t.stop = s.stop ∧ t.pins = s.pins ∧
          t.lines.role = s.lines.role ∧ t.now = s.now ∧ CeilingFormed t
        let kept := fun t : State => held t ∧ t.route.distance = s.route.distance ∧ t.route.residue = s.route.residue
        let quiet := fun t : State => ∀ i, s.junction.slotOf e.tag = some i → t.junction.slot i = ⟨.entry e.tag, false, none⟩
        (¬asks → j.state ≠ .set → exec (.pointAnswer telegram) s = .next s) ∧
        (asks → a.verdict = .queued ∨ a.verdict = .accepted ∧ ¬fits →
          exec (.pointAnswer telegram) s = .next recorded) ∧
        (asks → a.verdict = .accepted → fits → j.fix = none → ∃ t, exec (.pointAnswer telegram) s = .next t ∧
          becomes .set t ∧ told 19 j.sent t ∧ counts t ∧ kept t ∧ quiet t) ∧
        (∀ f : Nat, asks → a.verdict = .accepted → fits → j.fix = some f →
          let off : Int := (s.route.distance : Int) - f
          ∃ t, exec (.pointAnswer telegram) s = .next t ∧ counts t ∧ quiet t ∧
            ((s.cfgN Setting.fixTolerance : Int) < off.natAbs →
              becomes .set t ∧ told 19 j.sent t ∧ told 17 off t ∧ kept t) ∧
            (off.natAbs ≤ s.cfgN Setting.fixTolerance →
              held t ∧ t.route.distance = f ∧ t.route.residue = 0 ∧ InhibitFormed t ∧
              (f ≤ s.route.distance → told 19 j.sent t) ∧
              (s.settings.pending = [] → Swept (s.route.table.map fun x => if x.tag = e.tag then { x with
                body := .junction { j with state := .set, answer := some a, unanswered := 0 } } else x)
                (decide (s.route.distance < f)) s t))) ∧
        (asks → a.verdict = .refused → ∃ t, exec (.pointAnswer telegram) s = .next t ∧
          becomes .refused t ∧ told 28 j.junction t ∧ counts t ∧ kept t ∧ quiet t) ∧
        (j.state = .set → fits → exec (.pointAnswer telegram) s = .next recorded) ∧
        (j.state = .set → ¬fits → ∃ t, exec (.pointAnswer telegram) s = .next t ∧ counts t ∧ kept t ∧
          if e.crossed ≤ 1 then becomes .asking t ∧ told 27 1 t
          else if e.crossed = 2 then becomes .overdue t ∧ told 27 2 t
          else becomes .breached t ∧ told 27 3 t ∧ t.halt.causes.breach = true ∧
            (s.halt.causes.breach = false →
              let share := fun k : Int =>
                let x := ((-1000) * k).tdiv 1000
                if 0 < x then (x * s.traction.powerLimit).tdiv 1000 else (x * s.traction.brakeLimit).tdiv 1000
              t.traction.effort = -1000 ∧ t.traction.effortA = share s.adhesion.a.k ∧
              t.traction.effortB = share s.adhesion.b.k)))) ∧
    (∀ ident, parsePriorityAck tram telegram = some ident → ¬deaf → s.settings.pending = [] →
      let calls := fun g : SignalEntry => g.state = .calling ∧ g.signal = ident
      ∃ t, exec (.priorityAck telegram) s = .next t ∧
        t.route = { s.route with table := s.route.table.map fun e => match e.body with
          | .signal g => if calls g then { e with body := .signal { g with state := .acknowledged, timer := none } } else e
          | _ => e } ∧
        t.junction = { s.junction with signalQueue := s.junction.signalQueue.filter fun i =>
          i.clear || !s.route.table.any fun e => e.tag == i.tag && match e.body with
            | .signal g => decide (calls g)
            | _ => false } ∧
        t = ((s.setRoute t.route).setJunction t.junction).setSettings (s.settings.relocked .g3 (t.settings.locked.get .g3)))

/-- R109, R183: the telegrams of the trackside as 11 section 5 lays them out are read back, whatever they say, and discarded by
any other tram; a telegram with another length or with a changed check is discarded. The telegrams the unit sends have six
bytes: type with direction and class or level, ID, tram number, and the check of R183 behind them. -/
def Obligations.TelegramsReadBack : Prop :=
  (∀ (ident tram other : Nat) (a : PointAnswer), ident < 65536 → tram < 65536 → other ≠ tram →
    parsePointAnswer tram (pointAnswerBytes ident tram a) = some (ident, a) ∧
    parsePriorityAck tram (priorityAckBytes ident tram) = some ident ∧
    parsePointAnswer other (pointAnswerBytes ident tram a) = none ∧
    parsePriorityAck other (priorityAckBytes ident tram) = none) ∧
  (∀ (tram : Nat) (l : List Byte) (check : Byte), check ≠ telegramCheck l →
    parsePointAnswer tram (l ++ [check]) = none ∧ parsePriorityAck tram (l ++ [check]) = none) ∧
  (∀ (tram : Nat) (l : List Byte), (l.length ≠ 7 → parsePointAnswer tram l = none) ∧
    (l.length ≠ 6 → parsePriorityAck tram l = none)) ∧
  (∀ m : Telegram, m.bytes.length = 6 ∧ m.bytes.getLast? = some (telegramCheck (m.bytes.take 5))) ∧
  ∀ (ident tram : Nat) (d : PointDirection) (pair : Bool) (level : Nat), ident < 65536 → tram < 65536 →
    let sent := fun (m : Telegram) (first : Nat) => m.bytes.take 5 =
      [first, ident / 256, ident % 256, tram / 256, tram % 256].map (BitVec.ofNat 8)
    let direction := match d with
      | .left => 0
      | .straight => 1
      | .right => 2
    sent (.pointRequest ident d pair tram) (0x10 + 4 * direction + if pair = true then 2 else 0) ∧
    sent (.pointCancel ident tram) 0x20 ∧ (level < 4 → sent (.priorityCall ident level tram) (0x30 + 4 * level)) ∧
    sent (.priorityClear ident tram) 0x40

/-- R101, R113, R123, R127: JUNCTION CANCEL and JUNCTION RETRY, their refusals in order, changing nothing. A cancel takes a
PENDING entry out of the table; an asking, SET or REFUSED one becomes CANCELLED and leaves its slot, to a POINT CANCEL if it
has sent a telegram, and HOST becomes present past its E mark. A retry makes a REFUSED entry ASKING, its slot asking afresh.
The effective ceiling is formed afresh at each. (That TOO_LATE goes by C crossed and not by the route distance of R103 is the
model's: log entry 57.) -/
def Obligations.JunctionsAreCancelledAndRetried : Prop :=
  ∀ (tag entryTag : Nat) (s : State), LinkReady s → RouteLaw s.route → s.settings.pending = [] →
    let noCancel := fun status => exec (.junctionCancel tag entryTag) s =
      .next (replied tag (.junctionCancel entryTag) ⟨status, []⟩ s)
    let noRetry := fun status => exec (.junctionRetry tag entryTag) s =
      .next (replied tag (.junctionRetry entryTag) ⟨status, []⟩ s)
    let counts := fun t : State => (t.halt.causes.junction = true ↔ ∃ x ∈ t.route.table, ∃ k, x.body = .junction k ∧
      (k.state = .overdue ∨ k.state = .refused ∨ k.state = .breached))
    let kept := fun t : State => t.axle = s.axle ∧ t.vigilance = s.vigilance ∧ t.stop = s.stop ∧ t.pins = s.pins ∧
      t.lines.role = s.lines.role ∧ t.now = s.now ∧ t.route.distance = s.route.distance ∧
      (∀ r, s.halt.latch = some r → t.halt.latch = some r)
    (entryTag = 0 → noCancel .range ∧ noRetry .range) ∧
    (entryTag ≠ 0 → junctionOf s entryTag = none → noCancel .notFound ∧ noRetry .notFound) ∧
    (∀ e ∈ s.route.table, ∀ j, e.tag = entryTag → e.body = .junction j →
      (3 ≤ e.crossed → noRetry .tooLate ∧ (j.state ≠ .cancelled → noCancel .tooLate)) ∧
      (j.state = .cancelled → noCancel .ok) ∧
      (e.crossed < 3 → j.state = .pending → ∃ t, exec (.junctionCancel tag entryTag) s = .next t ∧
        Replies tag (.junctionCancel entryTag) .ok [] t ∧
        t.route.table = (s.route.table.filter fun x => x.tag != entryTag) ∧ t.junction = s.junction ∧ t.halt = s.halt ∧
        t.traction = s.traction ∧ t.lines = s.lines ∧ t.sound = s.sound ∧ CeilingFormed t ∧ InhibitFormed t ∧ kept t) ∧
      (e.crossed < 3 → j.state = .asking ∨ j.state = .overdue ∨ j.state = .set ∨ j.state = .refused →
        ∃ t, exec (.junctionCancel tag entryTag) s = .next t ∧ Replies tag (.junctionCancel entryTag) .ok [] t ∧
          (∀ k, junctionOf t entryTag = some k → ∃ sent, Sends entryTag j.sent sent s t ∧
            k = { j with state := .cancelled, sent := sent }) ∧ counts t ∧
          CeilingFormed t ∧ kept t ∧
          t.halt.causes.host = (s.halt.causes.host || decide (2 ≤ e.crossed)) ∧
          (∀ i, s.junction.slotOf entryTag = some i → 0 < j.sent → t.junction.slot i = ⟨.cancelled, false, none⟩ ∧
            t.junction.cancelQueue = s.junction.cancelQueue ++ [⟨i, j.junction⟩]) ∧
          (s.junction.slotOf entryTag = none ∨ j.sent = 0 → t.junction.cancelQueue = s.junction.cancelQueue) ∧
          (∀ i, s.junction.slotOf entryTag = some i → (t.junction.slot i).holder ≠ .entry entryTag)) ∧
      (e.crossed < 3 → j.state ≠ .refused → noRetry .lockedEntry) ∧
      (e.crossed < 3 → j.state = .refused → ∃ t, exec (.junctionRetry tag entryTag) s = .next t ∧
        Replies tag (.junctionRetry entryTag) .ok [] t ∧ counts t ∧ CeilingFormed t ∧ kept t ∧
        (∃ sent, Sends entryTag j.sent sent s t ∧ junctionOf t entryTag = some { j with state := .asking, unanswered := 0, sent := sent }) ∧
        (∀ i, s.junction.slotOf entryTag = some i →
          (t.junction.slot i).timer = some (s.now + s.cfgN Setting.repeatInterval)) ∧
        t.junction.cancelQueue = s.junction.cancelQueue ∧ t.junction.signalQueue = s.junction.signalQueue))

/-! ### Stop requests -/

/-- R133 to R140: a scan of the 24 readings, at its due time (log entry 4). A channel it does not visit lets go of a press
once; a newly visited one is acquired; a SENSED one at a rail faults and recovers at the eighth good reading; the others count
down their acquisition, then follow the table of R136 or become stuck. A SENSED one drifts by one count at the eighth resting
reading and takes a reading risen for the eighth time as its baseline. A CONTACT one leaves STUCK by its open readings. A
fault and a stuck press are raised. The scan sets its mode and the next scan's time, and hands a confirmed press to the latch
while DOOR_RELEASE is released. (Readings are the model's operand, log entry 30. The state the counts are judged on and the
delta of a stuck press: log entry 23; the counters of a CONTACT entering STUCK: 47; a kind changed and changed back: 49; a rail
judged before the stuck time: 56.) -/
def Obligations.ScanJudgesEveryButton : Prop :=
  ∀ (readings : List Nat) (s : State), readings.length = 24 → s.stop.buttons.length = 24 → s.settings.pending = [] →
    SettingsLaw s.settings →
    let now := max s.now s.stop.scanDue
    let first := s.cfg Setting.scanFirst
    let last := s.cfg Setting.scanLast
    let stuck := fun b : Button => ∃ x, b.pressSince = some x ∧ x + s.cfgN Setting.stuckTime * 1000 ≤ now
    ∃ t, exec (.scan readings) s = .next t ∧ t.now = now ∧ t.stop.buttons.length = 24 ∧
      (∀ i b b', s.stop.buttons[i]? = some b → t.stop.buttons[i]? = some b' →
        let v := readings.getD i 0
        let kind := s.cfg (Setting.buttonKind i)
        let sensed := kind = 0
        let delta : Int := (b.baseline : Int) - v
        let threshold := s.cfg Setting.pressThreshold
        let down := if sensed then threshold ≤ delta else v < 2048
        let held := if sensed then (threshold * 5).tdiv 8 ≤ delta else v < 2048
        let rail := sensed ∧ (v = 0 ∨ v = 4095)
        let visited := (if first ≤ last then first ≤ i ∧ i ≤ last else first ≤ i ∨ i ≤ last) ∧ kind < 2
        let known := b.scannedAs = some (if sensed then .sensed else .contact)
        let judged := visited ∧ known ∧ b.acquisition = 0 ∧ ¬rail
        let confirm := s.cfgN Setting.confirmScans
        let release := s.cfgN Setting.releaseScans
        (¬visited → b' = if b.scannedAs.isSome then { b.cleared .released with scannedAs := none } else b) ∧
        (visited → b'.reading = v ∧ b'.scannedAs = some (if sensed then .sensed else .contact)) ∧
        (visited → rail → b'.state = .fault ∧ b'.recovery = 0 ∧ (b.state ≠ .fault → b'.confirm = 0 ∧ b'.pressSince = none)) ∧
        (visited → ¬known → ¬rail → b'.state = .released ∧ b'.acquisition = 3 ∧ b'.confirm = 0 ∧ b'.pressSince = none ∧
          b'.baseline = if sensed then v else 0) ∧
        (visited → sensed → known → b.state = .fault → ¬rail →
          if b.recovery + 1 = 8 then b'.state = .released ∧ b'.acquisition = 3 ∧ b'.baseline = v
          else b'.state = .fault ∧ b'.recovery = b.recovery + 1) ∧
        (visited → known → ¬rail → b.state ≠ .fault → 0 < b.acquisition →
          b'.acquisition = b.acquisition - 1 ∧ b'.state = b.state ∧ b'.pressSince = b.pressSince) ∧
        (judged → b.state = .released → ¬down → b'.state = .released ∧ b'.confirm = 0) ∧
        (judged → b.state = .released → down →
          b'.confirm = 1 ∧ if confirm ≤ 1 then b'.state = .pressed ∧ b'.pressSince = some now else b'.state = .pressing) ∧
        (judged → b.state = .pressing → ¬down → b'.state = .released ∧ b'.confirm = 0) ∧
        (judged → b.state = .pressing → down → b'.confirm = b.confirm + 1 ∧
          if confirm ≤ b.confirm + 1 then b'.state = .pressed ∧ b'.pressSince = some now else b'.state = .pressing) ∧
        (judged → b.state = .pressed ∨ b.state = .releasing → held → ¬stuck b →
          b'.state = .pressed ∧ b'.confirm = 0 ∧ b'.pressSince = b.pressSince) ∧
        (judged → b.state = .pressed ∨ b.state = .releasing → held → stuck b → b'.confirm = 0 ∧ b'.pressSince = none ∧
          if sensed then b'.state = .released ∧ b'.baseline = v else b'.state = .stuck) ∧
        (judged → b.state = .pressed → ¬held → ¬stuck b → b'.confirm = 1 ∧
          if release ≤ 1 then b'.state = .released ∧ b'.pressSince = none else b'.state = .releasing) ∧
        (judged → b.state = .releasing → ¬held → ¬stuck b → b'.confirm = b.confirm + 1 ∧
          if release ≤ b.confirm + 1 then b'.state = .released ∧ b'.pressSince = none else b'.state = .releasing) ∧
        (judged → b.state = .pressed ∨ b.state = .releasing → ¬held → stuck b → b'.pressSince = none ∧
          if sensed ∨ (if b.state = .pressed then release ≤ 1 else release ≤ b.confirm + 1) then b'.state = .released
          else b'.state = .stuck) ∧
        (judged → ¬sensed → b.state = .stuck → v < 2048 → b'.state = .stuck ∧ b'.confirm = 0) ∧
        (judged → ¬sensed → b.state = .stuck → 2048 ≤ v →
          if release ≤ b.confirm + 1 then b'.state = .released ∧ b'.confirm = 0
          else b'.state = .stuck ∧ b'.confirm = b.confirm + 1) ∧
        (let faults := visited ∧ rail ∧ ¬(known ∧ b.state = .fault)
        let letsGo := if b.state = .pressed then release ≤ 1 else release ≤ b.confirm + 1
        let sticks := judged ∧ (b.state = .pressed ∨ b.state = .releasing) ∧ stuck b ∧ (held ∨ ¬letsGo)
        (faults → Told s t 13 i v) ∧ (¬faults → Untold s t 13 i) ∧ (sticks → Told s t 14 i v) ∧
          (¬sticks → Untold s t 14 i)) ∧
        (let half := threshold.tdiv 2
        let rests := b.state = .released ∧ (delta.natAbs : Int) < half
        let risen := b.state = .released ∧ delta ≤ -half
        visited → sensed → known → ¬rail → b.state ≠ .fault →
          (¬rests → b'.drift = 0) ∧ (rests → b.drift + 1 ≠ 8 → b'.drift = b.drift + 1) ∧
          (rests → b.drift + 1 = 8 → b'.drift = 0 ∧ b'.baseline =
            if v < b.baseline then b.baseline - 1 else if b.baseline < v then b.baseline + 1 else b.baseline) ∧
          (¬risen → b'.rise = 0) ∧ (risen → b.rise + 1 ≠ 8 → b'.rise = b.rise + 1) ∧
          (risen → b.rise + 1 = 8 → b'.rise = 0 ∧ b'.baseline = v) ∧
          (¬(rests ∧ b.drift + 1 = 8) → ¬(risen ∧ b.rise + 1 = 8) →
            ¬((b.state = .pressed ∨ b.state = .releasing) ∧ stuck b) → b'.baseline = b.baseline)) ∧
        (s.pins.doorRelease = false → judged → b.state = .released ∨ b.state = .pressing → b'.state = .pressed →
          t.stop.latch.isSome = true)) ∧
      (s.pins.doorRelease = true → t.stop.latch = s.stop.latch) ∧
      (let active := ∃ b ∈ t.stop.buttons, b.state = .pressing ∨ b.state = .pressed ∨ b.state = .releasing
      let recent := ¬∃ x, s.stop.lastActive = some x ∧ x + 2000 ≤ now
      (active → t.stop.hot = true ∧ t.stop.lastActive = some now ∧ t.stop.scanDue = now + 10) ∧
      (¬active → s.stop.hot = true → recent → t.stop.hot = true ∧ t.stop.scanDue = now + 10) ∧
      (¬active → s.stop.hot = false ∨ ¬recent → t.stop.hot = false ∧
        t.stop.scanDue = now + s.cfgN Setting.coldInterval)) ∧
      t.axle = s.axle ∧ t.traction = s.traction ∧ t.adhesion = s.adhesion ∧ t.halt = s.halt ∧ t.vigilance = s.vigilance ∧
      t.lines = s.lines ∧ t.junction = s.junction ∧ t.pins = s.pins

/-- R140 to R146: STOP REQUEST (its argument judged before the doors, log entry 13) and a STOPREQ edge set a clear latch while
DOOR_RELEASE is released, with its record, its event and the APPROACHING stop entries ANNOUNCED; a request on a set latch
counts a press. STOP CLEAR, and STOP_CANCEL in LEAD alone, clear it, and the line is sensed. BUTTON_STUCK drops a press at the
stuck time (log entries 3, 5). (The reading a stuck press is dropped on, the last scan's, and its delta, an edge to a level already
there, and the counters of a CONTACT that enters STUCK: log entries 5, 23, 29, 47.) -/
def Obligations.StopRequestLatchFollowsTriggers : Prop :=
  ∀ (tag : Nat) (s : State), s.settings.pending = [] → RouteLaw s.route →
    let sets := fun (source : StopSource) (accessible : Bool) (t : State) =>
      t.stop = { s.stop with latch := some ⟨source, accessible, 1, s.route.distance⟩, sensed := t.stop.sensed } ∧
      t.route = { s.route with table := s.route.table.map fun e => match e.body with
        | .stop p => if p.state = .approaching ∧ e.crossed < 2 then { e with body := .stop { p with state := .announced } }
          else e
        | _ => e } ∧ t.settings = (s.settings.relocked .g4 true).relocked .g5 (t.settings.locked.get .g5) ∧
      (s.host.events = [] → ∃ v ∈ t.host.events, v.kind = 15 ∧
        v.subject = (match source with
          | .button i => i
          | .host => 24
          | .trainline => 25) ∧ v.value = if accessible then 1 else 0) ∧
      t.axle = s.axle ∧ t.traction = s.traction ∧ t.halt = s.halt ∧ t.vigilance = s.vigilance ∧ t.lines = s.lines ∧
      t.junction = s.junction ∧ t.now = s.now
    let clears := { s.stop with latch := none, sensed := s.pins.stopreqLine }
    (LinkReady s →
      (∀ a, 1 < a → exec (.stopRequest tag a) s = .next (replied tag (.stopRequest a) ⟨.range, []⟩ s)) ∧
      (∀ a, a ≤ 1 → s.pins.doorRelease = true →
        exec (.stopRequest tag a) s = .next (replied tag (.stopRequest a) ⟨.doorsOpen, []⟩ s)) ∧
      (∀ a, a ≤ 1 → s.pins.doorRelease = false → s.stop.latch = none → ∃ t, exec (.stopRequest tag a) s = .next t ∧
        Replies tag (.stopRequest a) .ok [] t ∧ sets .host (decide (a = 1)) t ∧ t.stop.sensed = s.stop.sensed ∧
        t.pins = s.pins) ∧
      (∀ a r, a ≤ 1 → s.pins.doorRelease = false → s.stop.latch = some r → ∃ t, exec (.stopRequest tag a) s = .next t ∧
        Replies tag (.stopRequest a) .ok [] t ∧
        t.stop = { s.stop with latch := some { r with
          presses := min 255 (r.presses + 1), accessible := r.accessible || decide (a = 1) } } ∧
        t.settings = s.settings.relocked .g5 (t.settings.locked.get .g5) ∧
        t.route = s.route ∧ t.axle = s.axle ∧ t.traction = s.traction ∧ t.halt = s.halt ∧ t.pins = s.pins ∧
        (a = 0 ∨ r.accessible = true → t.sound = s.sound ∧ t.host.events = s.host.events)) ∧
      (s.stop.latch = none → exec (.stopClear tag) s = .next (replied tag .stopClear ⟨.ok, []⟩ s)) ∧
      (s.stop.latch ≠ none → ∃ held, exec (.stopClear tag) s =
        .next (replied tag .stopClear ⟨.ok, []⟩ ((s.setStop clears).setSettings (s.settings.relocked .g4 held))))) ∧
    (s.lines.role ≠ .lead ∨ s.stop.latch = none → exec .stopCancel s = .next s) ∧
    (s.lines.role = .lead → s.stop.latch ≠ none →
      ∃ held, exec .stopCancel s = .next ((s.setStop clears).setSettings (s.settings.relocked .g4 held))) ∧
    (∀ level, let u := s.setPins { s.pins with stopreqLine := level }
      (s.pins.stopreqLine = level → exec (.stopreqEdge level) s = .next s) ∧
      (s.pins.stopreqLine ≠ level → s.stop.latch ≠ none → exec (.stopreqEdge level) s = .next u) ∧
      (s.pins.stopreqLine ≠ level → s.stop.latch = none → level = false ∨ s.stop.sensed = true ∨ s.pins.doorRelease = true →
        exec (.stopreqEdge level) s = .next (u.setStop { s.stop with sensed := level })) ∧
      (s.pins.stopreqLine ≠ level → s.stop.latch = none → level = true → s.stop.sensed = false →
        s.pins.doorRelease = false → ∃ t, exec (.stopreqEdge level) s = .next t ∧ sets .trainline false t ∧
          t.stop.sensed = true ∧ t.pins = u.pins)) ∧
    (∀ i b, s.stop.buttons[i]? = some b →
      let held := b.state = .pressed ∨ b.state = .releasing
      (¬held ∨ b.pressSince = none → exec (.buttonStuck i) s = .next s) ∧
      (∀ x, held → b.pressSince = some x →
        let dropped := if b.scannedAs = none ∨ b.scannedAs = some .sensed then
            { b.cleared .released with baseline := b.reading, delta := 0 }
          else b.cleared .stuck
        exec (.buttonStuck i) s = .next (raise 14 i b.reading ((s.reach (x + s.cfgN Setting.stuckTime * 1000)).setStop
          { s.stop with buttons := s.stop.buttons.set i dropped }))))

/-! ### Sounds -/

/-- R152, R154: at a step's expiry the player goes to the next step, to the next pass, to the head of its queue, or to IDLE,
each step lasting its units of 10 ms from then; a STRIKE on the BELL begins a pulse of 40 ms unless one runs. The pulse ends
at its expiry. Any other player is left alone (the clock: log entry 3; a pulse whose time has come is not running: log entry
43). -/
def Obligations.PatternsPlayTheirSteps : Prop :=
  (∀ (c : SoundChannel) (p step pass x : Nat) (r : Pattern) (s : State),
    (s.sound.line c).player = .playing p step pass x → s.sound.pattern p = some r →
    let now := max s.now x
    let queue := (s.sound.line c).queue
    let sounds := fun (q : Nat) (st : PatternStep) (step pass : Nat) (queue : List Waiting) =>
      let u := s.sound.setLine c ⟨.playing q step pass (now + st.duration * 10), queue⟩
      if c = .bell ∧ st.level = .strike ∧ (∀ y, s.sound.pulse = some y → y ≤ now) then
        { u with pulse := some (now + 40) } else u
    let ended := ¬(r.passes = 0 ∨ pass + 1 < r.passes)
    (∀ st, r.steps[step + 1]? = some st →
      exec (.stepExpiry c) s = .next ((s.reach x).setSound (sounds p st (step + 1) pass queue))) ∧
    (∀ st rest, r.steps[step + 1]? = none → ¬ended → r.steps = st :: rest →
      exec (.stepExpiry c) s = .next ((s.reach x).setSound (sounds p st 0 (pass + 1) queue))) ∧
    (r.steps[step + 1]? = none → ended → queue = [] → s.settings.pending = [] → ∃ held, exec (.stepExpiry c) s =
      .next (((s.reach x).setSound (s.sound.setLine c ⟨.idle, []⟩)).setSettings (s.settings.relocked .g5 held))) ∧
    (∀ w others q st rest, r.steps[step + 1]? = none → ended → queue = w :: others → s.sound.pattern w.pattern = some q →
      q.steps = st :: rest → ∃ held, exec (.stepExpiry c) s =
        .next (((s.reach x).setSound (sounds w.pattern st 0 0 others)).setSettings (s.settings.relocked .g5 held)))) ∧
  (∀ (c : SoundChannel) (s : State), (∀ p step pass x, (s.sound.line c).player ≠ .playing p step pass x) →
    exec (.stepExpiry c) s = .next s) ∧
  (∀ s : State, (s.sound.pulse = none → exec .strikePulseExpiry s = .next s) ∧
    ∀ x, s.sound.pulse = some x →
      exec .strikePulseExpiry s = .next ((s.reach x).setSound { s.sound with pulse := none }))

/-- R159, R160, R161: the pedal and the button take their channels in LEAD alone, discarding a pattern PLAYING there with
SOUND PREEMPTED; the bell strikes at once and every bell interval; a release ends the strikes, and ends the horn or leaves it
a tail to the horn minimum after its press; a press in the tail ends it. A channel let go takes its queue head, or is IDLE. (A
level already there is no event: log entry 29. An interval's and a tail's expiry take the clock to their time and do nothing for
a timer that is stopped: log entry 3. A pulse whose time has come is not running: log entry 43.) -/
def Obligations.DriverSoundsBellAndHorn : Prop :=
  ∀ s : State, s.settings.pending = [] →
    let pulseAt := fun now : Nat => match s.sound.pulse with
      | some y => if now < y then y else now + 40
      | none => now + 40
    let pulse := pulseAt s.now
    let told := fun (l : SoundLine) (v : Int) => match l.player with
      | .playing q _ _ _ => (raise 8 q v s).host
      | _ => s.host
    let interval := s.cfgN Setting.bellInterval
    let bellUp := { s.pins with bellPedal := false }
    let hornUp := { s.pins with hornButton := false }
    let silent := { s.sound with horn := ⟨.idle, []⟩, hornHold := none, hornTail := none }
    (s.pins.bellPedal = true → exec .bellPedalPress s = .next s) ∧
    (s.pins.bellPedal = false → s.lines.role ≠ .lead →
      exec .bellPedalPress s = .next (s.setPins { s.pins with bellPedal := true })) ∧
    (s.pins.bellPedal = false → s.lines.role = .lead → ∃ held, exec .bellPedalPress s =
      .next { s with
        pins := { s.pins with bellPedal := true }
        sound := { s.sound with
          bell := { s.sound.bell with player := .driver }
          bellHold := some s.now, bellDue := some (s.now + interval), pulse := some pulse }
        host := told s.sound.bell 16
        settings := s.settings.relocked .g5 held }) ∧
    (s.sound.bellHold = none → exec .bellPedalRelease s = .next (s.setPins bellUp)) ∧
    (s.sound.bellHold ≠ none → s.sound.bell.queue = [] → ∃ held, exec .bellPedalRelease s = .next { s with
      pins := bellUp
      sound := { s.sound with bell := ⟨.idle, []⟩, bellHold := none, bellDue := none }
      settings := s.settings.relocked .g5 held }) ∧
    (∀ w rest r st steps, s.sound.bellHold ≠ none → s.sound.bell.queue = w :: rest → s.sound.pattern w.pattern = some r →
      r.steps = st :: steps → ∃ held, exec .bellPedalRelease s = .next { s with
        pins := bellUp
        sound := { s.sound with
          bell := ⟨.playing w.pattern 0 0 (s.now + st.duration * 10), rest⟩, bellHold := none, bellDue := none
          pulse := if st.level = .strike then some pulse else s.sound.pulse }
        settings := s.settings.relocked .g5 held }) ∧
    (s.sound.bellDue = none → exec .bellIntervalExpiry s = .next s) ∧
    (∀ x, s.sound.bellDue = some x → exec .bellIntervalExpiry s = .next ((s.reach x).setSound { s.sound with
      bellDue := some (max s.now x + interval)
      pulse := some (pulseAt (max s.now x)) })) ∧
    (s.pins.hornButton = true → exec .hornPress s = .next s) ∧
    (s.pins.hornButton = false → s.lines.role ≠ .lead →
      exec .hornPress s = .next (s.setPins { s.pins with hornButton := true })) ∧
    (s.pins.hornButton = false → s.lines.role = .lead → ∃ held, exec .hornPress s = .next { s with
      pins := { s.pins with hornButton := true }
      sound := { s.sound with horn := { s.sound.horn with player := .driver }, hornHold := some s.now, hornTail := none }
      host := told s.sound.horn 17
      settings := s.settings.relocked .g5 held }) ∧
    (s.sound.hornHold = none → exec .hornRelease s = .next (s.setPins hornUp)) ∧
    (∀ x, s.sound.hornHold = some x → s.now < x + s.cfgN Setting.hornMinimum → exec .hornRelease s =
      .next ((s.setPins hornUp).setSound { s.sound with
        hornHold := none, hornTail := some (x + s.cfgN Setting.hornMinimum) })) ∧
    (∀ x, s.sound.hornHold = some x → x + s.cfgN Setting.hornMinimum ≤ s.now → s.sound.horn.queue = [] →
      ∃ held, exec .hornRelease s =
        .next { s with pins := hornUp, sound := silent, settings := s.settings.relocked .g5 held }) ∧
    (∀ x w rest r st steps, s.sound.hornHold = some x → x + s.cfgN Setting.hornMinimum ≤ s.now →
      s.sound.horn.queue = w :: rest → s.sound.pattern w.pattern = some r → r.steps = st :: steps →
      ∃ held, exec .hornRelease s = .next { s with
        pins := hornUp
        sound := { silent with horn := ⟨.playing w.pattern 0 0 (s.now + st.duration * 10), rest⟩ }
        settings := s.settings.relocked .g5 held }) ∧
    (s.sound.hornTail = none → exec .hornTailExpiry s = .next s) ∧
    (∀ x, s.sound.hornTail = some x → s.sound.horn.queue = [] → ∃ held, exec .hornTailExpiry s =
      .next { s with now := max s.now x, sound := silent, settings := s.settings.relocked .g5 held }) ∧
    (∀ x w rest r st steps, s.sound.hornTail = some x → s.sound.horn.queue = w :: rest →
      s.sound.pattern w.pattern = some r → r.steps = st :: steps → ∃ held, exec .hornTailExpiry s = .next { s with
        now := max s.now x
        sound := { silent with horn := ⟨.playing w.pattern 0 0 (max s.now x + st.duration * 10), rest⟩ }
        settings := s.settings.relocked .g5 held })

/-- R153, R155, R156, R157, R162: PLAY by the first case of R155 that applies, QUEUE_FULL where it would only wait in a full
queue; SILENCE of a pattern, whose player takes its queue head or is IDLE, or of all; PATTERN LOAD by its checks in order,
leaving every other pattern as it is. An internal request that would wait in a full queue takes the place of the newest HOST
NORMAL pattern there, with SOUND DROPPED for that one, and is dropped itself where there is none. (A pulse whose time has come
is not running: log entry 43.) -/
def Obligations.HostPlaysSilencesAndLoads : Prop :=
  (∀ (tag : Nat) (s : State), LinkReady s → s.settings.pending = [] →
    let silences := fun (p : Nat) (u : State) => exec (.silence tag p) s = .next (replied tag (.silence p) ⟨.ok, []⟩ u)
    (∀ p, 15 < p → exec (.play tag p) s = .next (replied tag (.play p) ⟨.range, []⟩ s) ∧
      (p ≠ 255 → exec (.silence tag p) s = .next (replied tag (.silence p) ⟨.range, []⟩ s))) ∧
    (∀ p, p ≤ 15 → s.sound.pattern p = none →
      exec (.play tag p) s = .next (replied tag (.play p) ⟨.notFound, []⟩ s) ∧ silences p s) ∧
    (∀ p r st steps, p ≤ 15 → s.sound.pattern p = some r → r.steps = st :: steps →
      let line := s.sound.line r.channel
      let plays := ∃ step pass x, line.player = .playing p step pass x
      let waits := ∃ w ∈ line.queue, w.pattern = p
      let played := fun (how : Byte) (u : State) => exec (.play tag p) s = .next (replied tag (.play p) ⟨.ok, [how]⟩ u)
      let begun := s.sound.setLine r.channel { line with player := .playing p 0 0 (s.now + st.duration * 10) }
      let started := if r.channel = .bell ∧ st.level = .strike ∧ (∀ y, s.sound.pulse = some y → y ≤ s.now) then
        { begun with pulse := some (s.now + 40) } else begun
      let own : Waiting := ⟨p, r.cls, .host⟩
      let lesser := ∃ q step pass x k, line.player = .playing q step pass x ∧ s.sound.pattern q = some k ∧ k.cls = .normal
      let preempts := r.cls = .urgent ∧ lesser
      (plays ∨ waits → played 0 s) ∧
      (¬plays → ¬waits → line.player = .idle → ∃ held,
        played 1 ((s.setSound started).setSettings (s.settings.relocked .g5 held))) ∧
      (¬plays → ¬waits → preempts → ∀ q step pass x, line.player = .playing q step pass x →
        played 2 ((raise 8 q p s).setSound started)) ∧
      (¬plays → ¬waits → line.player ≠ .idle → ¬preempts → line.queue.length < 4 →
        ∃ before after, line.queue = before ++ after ∧
          played 3 (s.setSound (s.sound.setLine r.channel { line with queue := before ++ own :: after })) ∧
          (r.cls = .normal → after = []) ∧
          (r.cls = .urgent → (∀ w ∈ before, w.cls = .urgent) ∧ ∀ w, after.head? = some w → w.cls = .normal)) ∧
      (¬plays → ¬waits → line.player ≠ .idle → ¬preempts → 4 ≤ line.queue.length →
        exec (.play tag p) s = .next (replied tag (.play p) ⟨.queueFull, []⟩ s)) ∧
      (¬plays → silences p (s.setSound (s.sound.setLine r.channel
        { line with queue := line.queue.filter fun w => w.pattern != p }))) ∧
      (plays → line.queue = [] → ∃ held,
        silences p ((s.setSound (s.sound.setLine r.channel ⟨.idle, []⟩)).setSettings (s.settings.relocked .g5 held))) ∧
      (∀ w rest q first others, plays → line.queue = w :: rest → s.sound.pattern w.pattern = some q →
        q.steps = first :: others → ∃ held,
          let taken := s.sound.setLine r.channel ⟨.playing w.pattern 0 0 (s.now + first.duration * 10), rest⟩
          let begins := if r.channel = .bell ∧ first.level = .strike ∧ (∀ y, s.sound.pulse = some y → y ≤ s.now) then
            { taken with pulse := some (s.now + 40) } else taken
          silences p ((s.setSound begins).setSettings (s.settings.relocked .g5 held)))) ∧
    (∃ held, let rests := fun l : SoundLine => (⟨if l.player = .driver then .driver else .idle, []⟩ : SoundLine)
      silences 255 ((s.setSound { s.sound with
        bell := rests s.sound.bell, horn := rests s.sound.horn, chime := rests s.sound.chime
        buzzer := rests s.sound.buzzer }).setSettings (s.settings.relocked .g5 held))) ∧
    (∀ r : PatternRecord,
      let refused := fun status => exec (.patternLoad tag r) s = .next (replied tag (.patternLoad r) ⟨status, []⟩ s)
      let loads := fun p : Option Pattern => ∃ l, exec (.patternLoad tag r) s =
          .next (replied tag (.patternLoad r) ⟨.ok, []⟩ (s.setSound { s.sound with loaded := l })) ∧
        ∀ n, SoundUnit.pattern { s.sound with loaded := l } n = if n = r.number then p else s.sound.pattern n
      (15 < r.number → refused .range) ∧ (r.number < 6 → refused .fixed) ∧
      (6 ≤ r.number → r.number ≤ 15 →
        (r.steps ≠ [] → patternOf r = none → refused .range) ∧
        (r.steps = [] ∨ patternOf r ≠ none → patternInUse r.number s.sound = true → refused .inUse) ∧
        (r.steps = [] → patternInUse r.number s.sound = false → loads none) ∧
        (r.steps ≠ [] → patternOf r ≠ none → patternInUse r.number s.sound = false → loads (patternOf r))))) ∧
  ∀ (p : Nat) (r : Pattern) (s : State), s.sound.pattern p = some r →
    let line := s.sound.line r.channel
    let own : Waiting := ⟨p, r.cls, .internal⟩
    let lesser := ∃ q step pass x k, line.player = .playing q step pass x ∧ s.sound.pattern q = some k ∧ k.cls = .normal
    let displaceable := fun w : Waiting => w.origin = .host ∧ w.cls = .normal
    (∀ step pass x, line.player ≠ .playing p step pass x) → (∀ w ∈ line.queue, w.pattern ≠ p) → line.player ≠ .idle →
    ¬(r.cls = .urgent ∧ lesser) → 4 ≤ line.queue.length →
      ((∀ w ∈ line.queue, ¬displaceable w) → askFor p s = raise 7 p 0 s) ∧
      (∀ before w after, line.queue = before ++ w :: after → displaceable w → (∀ x ∈ after, ¬displaceable x) →
        ∃ front back, before ++ after = front ++ back ∧
          askFor p s = raise 7 w.pattern 1 (s.setSound (s.sound.setLine r.channel
            { line with queue := front ++ own :: back })) ∧
          (r.cls = .normal → back = []) ∧
          (r.cls = .urgent → (∀ w ∈ front, w.cls = .urgent) ∧ ∀ w, back.head? = some w → w.cls = .normal))

/-! ### Settings -/

/-- R80, R86, R165, R166, R168, R169, R170: SET by its checks in order; held back as the pending value in a LOCKED group,
effective at once in another, and no other setting changes. FREEZE locks a group; THAW unlocks one whose condition does not
hold, and every value pending in it becomes effective, with SETTINGS APPLIED. A new tram length is in the set length at once,
and a new HALT output in the HALT drive; the other blocks change at neither. (A clear point or a pass point so moved: R99,
R149.) -/
def Obligations.SettingsAreSetAndHeldBack : Prop :=
  ∀ (tag : Nat) (s : State), LinkReady s → SettingsLaw s.settings →
    let takes := fun (g : Group) (t : State) =>
      (g = .g3 →
        (t.cfg Setting.tramLength = s.cfg Setting.tramLength → t.route = s.route) ∧
        (t.cfg Setting.tramLength ≠ s.cfg Setting.tramLength →
          t.route.setLength = t.cfgN Setting.tramLength * (if s.lines.coupled then 2 else 1))) ∧
      (g = .g4 → t.cfg Setting.zoneAfter = s.cfg Setting.zoneAfter → t.route = s.route) ∧
      (g ≠ .g3 → g ≠ .g4 → t.route = s.route) ∧
      (g = .g6 →
        (t.cfg Setting.haltOutput = s.cfg Setting.haltOutput →
          t.halt = s.halt ∧ t.lines = s.lines ∧ t.traction = s.traction) ∧
        (t.cfg Setting.haltOutput ≠ s.cfg Setting.haltOutput →
          (t.lines.halting = true ↔ t.cfg Setting.haltOutput = 1 ∧ t.halt.causes.counts = true))) ∧
      (g ≠ .g6 → t.halt = s.halt ∧ t.lines = s.lines ∧ t.traction = s.traction ∧ t.sound = s.sound) ∧
      (g ≠ .g3 → t.junction = s.junction) ∧
      t.axle = s.axle ∧ t.vigilance = s.vigilance ∧ t.stop = s.stop ∧ t.pins = s.pins ∧ t.now = s.now
    (∀ n v, groupOf n = none → exec (.set tag n v) s = .next (replied tag (.set n v) ⟨.notFound, []⟩ s)) ∧
    (∀ n v g, groupOf n = some g →
      (settingAllows n v = false → exec (.set tag n v) s = .next (replied tag (.set n v) ⟨.range, []⟩ s)) ∧
      (settingAllows n v = true → s.settings.locked.get g = true → ∃ l,
        let after := s.setSettings { s.settings with pending := l }
        exec (.set tag n v) s = .next (replied tag (.set n v) ⟨.held, settingBytes after n⟩ after) ∧
        listed n l = some v ∧ ∀ m, m ≠ n → listed m l = listed m s.settings.pending) ∧
      (settingAllows n v = true → s.settings.locked.get g = false → ∃ t, exec (.set tag n v) s = .next t ∧
        Replies tag (.set n v) .ok (settingBytes t n) t ∧ t.cfg n = v ∧
        (s.settings.pending = [] → (∀ m, m ≠ n → t.cfg m = s.cfg m) ∧ t.settings.pending = []) ∧
        (g = .g0 ∨ g = .g1 ∨ g = .g2 ∨ g = .g5 → t = (s.setSettings t.settings).setHost t.host) ∧ takes g t)) ∧
    (∀ n, 6 < n → exec (.freeze tag n) s = .next (replied tag (.freeze n) ⟨.range, []⟩ s) ∧
      exec (.thaw tag n) s = .next (replied tag (.thaw n) ⟨.range, []⟩ s)) ∧
    (∀ n g, Group.ofCode n = some g →
      exec (.freeze tag n) s = .next (replied tag (.freeze n) ⟨.ok, []⟩ (s.setSettings { s.settings with
        frozen := s.settings.frozen.put g true, locked := s.settings.locked.put g true })) ∧
      (lockHeld s g = true → exec (.thaw tag n) s = .next (replied tag (.thaw n) ⟨.ok, []⟩ (s.setSettings { s.settings with
        frozen := s.settings.frozen.put g false, locked := s.settings.locked.put g true }))) ∧
      (lockHeld s g = false → s.settings.locked.get g = false → exec (.thaw tag n) s =
        .next (replied tag (.thaw n) ⟨.ok, []⟩ (s.setSettings { s.settings with
          frozen := s.settings.frozen.put g false, locked := s.settings.locked.put g false }))) ∧
      (lockHeld s g = false → s.settings.locked.get g = true → g = .g3 ∨ g = .g4 ∨ g = .g6 →
        let mine := s.settings.pending.filter fun p => decide (groupOf p.1 = some g)
        ∃ t, exec (.thaw tag n) s = .next t ∧ Replies tag (.thaw n) .ok [] t ∧ takes g t ∧
          t.settings.frozen = s.settings.frozen.put g false ∧ t.settings.locked.get g = false ∧
          t.settings.pending = (s.settings.pending.filter fun p => decide (groupOf p.1 ≠ some g)) ∧
          (s.host.events = [] → mine ≠ [] → ∃ v ∈ t.host.events, v.kind = 6 ∧ v.subject = n ∧ v.value = mine.length) ∧
          ∀ m, (∀ v, (m, v) ∈ mine → mine.countP (fun p => p.1 == m) = 1 → t.cfg m = v) ∧
            ((∀ p ∈ mine, p.1 ≠ m) → t.cfg m = s.cfg m)) ∧
      (lockHeld s g = false → s.settings.locked.get g = true → g = .g0 ∨ g = .g1 ∨ g = .g2 ∨ g = .g5 →
        let mine := s.settings.pending.filter fun p => decide (groupOf p.1 = some g)
        ∃ l, let u := s.setSettings { s.settings with
            frozen := s.settings.frozen.put g false, locked := s.settings.locked.put g false, effective := l
            pending := s.settings.pending.filter fun p => decide (groupOf p.1 ≠ some g) }
          exec (.thaw tag n) s = .next (replied tag (.thaw n) ⟨.ok, []⟩
            (if mine = [] then u else raise 6 n mine.length u)) ∧
          ∀ m, (∀ v, (m, v) ∈ mine → mine.countP (fun p => p.1 == m) = 1 → u.cfg m = v) ∧
            ((∀ p ∈ mine, p.1 ≠ m) → u.cfg m = s.cfg m)))
end

