-- ==== Sys2Proof/Laws/State.lean ====
section
/-! SUPPORT. What each block setter of State does to each field: one lemma per field per update. -/

namespace Sys2Proof.Machine

variable (s : State)

@[simp] theorem State.setNow_pending (t : Nat) : (s.setNow t).pending = s.pending := rfl
@[simp] theorem State.setNow_now (t : Nat) : (s.setNow t).now = t := rfl
@[simp] theorem State.setNow_freeCount (t : Nat) : (s.setNow t).freeCount = s.freeCount := rfl
@[simp] theorem State.setNow_pins (t : Nat) : (s.setNow t).pins = s.pins := rfl
@[simp] theorem State.setNow_axle (t : Nat) : (s.setNow t).axle = s.axle := rfl
@[simp] theorem State.setNow_traction (t : Nat) : (s.setNow t).traction = s.traction := rfl
@[simp] theorem State.setNow_adhesion (t : Nat) : (s.setNow t).adhesion = s.adhesion := rfl
@[simp] theorem State.setNow_halt (t : Nat) : (s.setNow t).halt = s.halt := rfl
@[simp] theorem State.setNow_vigilance (t : Nat) : (s.setNow t).vigilance = s.vigilance := rfl
@[simp] theorem State.setNow_lines (t : Nat) : (s.setNow t).lines = s.lines := rfl
@[simp] theorem State.setNow_route (t : Nat) : (s.setNow t).route = s.route := rfl
@[simp] theorem State.setNow_junction (t : Nat) : (s.setNow t).junction = s.junction := rfl
@[simp] theorem State.setNow_stop (t : Nat) : (s.setNow t).stop = s.stop := rfl
@[simp] theorem State.setNow_sound (t : Nat) : (s.setNow t).sound = s.sound := rfl
@[simp] theorem State.setNow_settings (t : Nat) : (s.setNow t).settings = s.settings := rfl
@[simp] theorem State.setNow_host (t : Nat) : (s.setNow t).host = s.host := rfl

@[simp] theorem State.setFreeCount_pending (n : Nat) : (s.setFreeCount n).pending = s.pending := rfl
@[simp] theorem State.setFreeCount_now (n : Nat) : (s.setFreeCount n).now = s.now := rfl
@[simp] theorem State.setFreeCount_freeCount (n : Nat) : (s.setFreeCount n).freeCount = n := rfl
@[simp] theorem State.setFreeCount_pins (n : Nat) : (s.setFreeCount n).pins = s.pins := rfl
@[simp] theorem State.setFreeCount_axle (n : Nat) : (s.setFreeCount n).axle = s.axle := rfl
@[simp] theorem State.setFreeCount_traction (n : Nat) : (s.setFreeCount n).traction = s.traction := rfl
@[simp] theorem State.setFreeCount_adhesion (n : Nat) : (s.setFreeCount n).adhesion = s.adhesion := rfl
@[simp] theorem State.setFreeCount_halt (n : Nat) : (s.setFreeCount n).halt = s.halt := rfl
@[simp] theorem State.setFreeCount_vigilance (n : Nat) : (s.setFreeCount n).vigilance = s.vigilance := rfl
@[simp] theorem State.setFreeCount_lines (n : Nat) : (s.setFreeCount n).lines = s.lines := rfl
@[simp] theorem State.setFreeCount_route (n : Nat) : (s.setFreeCount n).route = s.route := rfl
@[simp] theorem State.setFreeCount_junction (n : Nat) : (s.setFreeCount n).junction = s.junction := rfl
@[simp] theorem State.setFreeCount_stop (n : Nat) : (s.setFreeCount n).stop = s.stop := rfl
@[simp] theorem State.setFreeCount_sound (n : Nat) : (s.setFreeCount n).sound = s.sound := rfl
@[simp] theorem State.setFreeCount_settings (n : Nat) : (s.setFreeCount n).settings = s.settings := rfl
@[simp] theorem State.setFreeCount_host (n : Nat) : (s.setFreeCount n).host = s.host := rfl

@[simp] theorem State.setPins_pending (x : Pins) : (s.setPins x).pending = s.pending := rfl
@[simp] theorem State.setPins_now (x : Pins) : (s.setPins x).now = s.now := rfl
@[simp] theorem State.setPins_freeCount (x : Pins) : (s.setPins x).freeCount = s.freeCount := rfl
@[simp] theorem State.setPins_pins (x : Pins) : (s.setPins x).pins = x := rfl
@[simp] theorem State.setPins_axle (x : Pins) : (s.setPins x).axle = s.axle := rfl
@[simp] theorem State.setPins_traction (x : Pins) : (s.setPins x).traction = s.traction := rfl
@[simp] theorem State.setPins_adhesion (x : Pins) : (s.setPins x).adhesion = s.adhesion := rfl
@[simp] theorem State.setPins_halt (x : Pins) : (s.setPins x).halt = s.halt := rfl
@[simp] theorem State.setPins_vigilance (x : Pins) : (s.setPins x).vigilance = s.vigilance := rfl
@[simp] theorem State.setPins_lines (x : Pins) : (s.setPins x).lines = s.lines := rfl
@[simp] theorem State.setPins_route (x : Pins) : (s.setPins x).route = s.route := rfl
@[simp] theorem State.setPins_junction (x : Pins) : (s.setPins x).junction = s.junction := rfl
@[simp] theorem State.setPins_stop (x : Pins) : (s.setPins x).stop = s.stop := rfl
@[simp] theorem State.setPins_sound (x : Pins) : (s.setPins x).sound = s.sound := rfl
@[simp] theorem State.setPins_settings (x : Pins) : (s.setPins x).settings = s.settings := rfl
@[simp] theorem State.setPins_host (x : Pins) : (s.setPins x).host = s.host := rfl

@[simp] theorem State.setAxle_pending (x : AxleUnit) : (s.setAxle x).pending = s.pending := rfl
@[simp] theorem State.setAxle_now (x : AxleUnit) : (s.setAxle x).now = s.now := rfl
@[simp] theorem State.setAxle_freeCount (x : AxleUnit) : (s.setAxle x).freeCount = s.freeCount := rfl
@[simp] theorem State.setAxle_pins (x : AxleUnit) : (s.setAxle x).pins = s.pins := rfl
@[simp] theorem State.setAxle_axle (x : AxleUnit) : (s.setAxle x).axle = x := rfl
@[simp] theorem State.setAxle_traction (x : AxleUnit) : (s.setAxle x).traction = s.traction := rfl
@[simp] theorem State.setAxle_adhesion (x : AxleUnit) : (s.setAxle x).adhesion = s.adhesion := rfl
@[simp] theorem State.setAxle_halt (x : AxleUnit) : (s.setAxle x).halt = s.halt := rfl
@[simp] theorem State.setAxle_vigilance (x : AxleUnit) : (s.setAxle x).vigilance = s.vigilance := rfl
@[simp] theorem State.setAxle_lines (x : AxleUnit) : (s.setAxle x).lines = s.lines := rfl
@[simp] theorem State.setAxle_route (x : AxleUnit) : (s.setAxle x).route = s.route := rfl
@[simp] theorem State.setAxle_junction (x : AxleUnit) : (s.setAxle x).junction = s.junction := rfl
@[simp] theorem State.setAxle_stop (x : AxleUnit) : (s.setAxle x).stop = s.stop := rfl
@[simp] theorem State.setAxle_sound (x : AxleUnit) : (s.setAxle x).sound = s.sound := rfl
@[simp] theorem State.setAxle_settings (x : AxleUnit) : (s.setAxle x).settings = s.settings := rfl
@[simp] theorem State.setAxle_host (x : AxleUnit) : (s.setAxle x).host = s.host := rfl

@[simp] theorem State.setTraction_pending (x : Traction) : (s.setTraction x).pending = s.pending := rfl
@[simp] theorem State.setTraction_now (x : Traction) : (s.setTraction x).now = s.now := rfl
@[simp] theorem State.setTraction_freeCount (x : Traction) : (s.setTraction x).freeCount = s.freeCount := rfl
@[simp] theorem State.setTraction_pins (x : Traction) : (s.setTraction x).pins = s.pins := rfl
@[simp] theorem State.setTraction_axle (x : Traction) : (s.setTraction x).axle = s.axle := rfl
@[simp] theorem State.setTraction_traction (x : Traction) : (s.setTraction x).traction = x := rfl
@[simp] theorem State.setTraction_adhesion (x : Traction) : (s.setTraction x).adhesion = s.adhesion := rfl
@[simp] theorem State.setTraction_halt (x : Traction) : (s.setTraction x).halt = s.halt := rfl
@[simp] theorem State.setTraction_vigilance (x : Traction) : (s.setTraction x).vigilance = s.vigilance := rfl
@[simp] theorem State.setTraction_lines (x : Traction) : (s.setTraction x).lines = s.lines := rfl
@[simp] theorem State.setTraction_route (x : Traction) : (s.setTraction x).route = s.route := rfl
@[simp] theorem State.setTraction_junction (x : Traction) : (s.setTraction x).junction = s.junction := rfl
@[simp] theorem State.setTraction_stop (x : Traction) : (s.setTraction x).stop = s.stop := rfl
@[simp] theorem State.setTraction_sound (x : Traction) : (s.setTraction x).sound = s.sound := rfl
@[simp] theorem State.setTraction_settings (x : Traction) : (s.setTraction x).settings = s.settings := rfl
@[simp] theorem State.setTraction_host (x : Traction) : (s.setTraction x).host = s.host := rfl

@[simp] theorem State.setAdhesion_pending (x : Adhesion) : (s.setAdhesion x).pending = s.pending := rfl
@[simp] theorem State.setAdhesion_now (x : Adhesion) : (s.setAdhesion x).now = s.now := rfl
@[simp] theorem State.setAdhesion_freeCount (x : Adhesion) : (s.setAdhesion x).freeCount = s.freeCount := rfl
@[simp] theorem State.setAdhesion_pins (x : Adhesion) : (s.setAdhesion x).pins = s.pins := rfl
@[simp] theorem State.setAdhesion_axle (x : Adhesion) : (s.setAdhesion x).axle = s.axle := rfl
@[simp] theorem State.setAdhesion_traction (x : Adhesion) : (s.setAdhesion x).traction = s.traction := rfl
@[simp] theorem State.setAdhesion_adhesion (x : Adhesion) : (s.setAdhesion x).adhesion = x := rfl
@[simp] theorem State.setAdhesion_halt (x : Adhesion) : (s.setAdhesion x).halt = s.halt := rfl
@[simp] theorem State.setAdhesion_vigilance (x : Adhesion) : (s.setAdhesion x).vigilance = s.vigilance := rfl
@[simp] theorem State.setAdhesion_lines (x : Adhesion) : (s.setAdhesion x).lines = s.lines := rfl
@[simp] theorem State.setAdhesion_route (x : Adhesion) : (s.setAdhesion x).route = s.route := rfl
@[simp] theorem State.setAdhesion_junction (x : Adhesion) : (s.setAdhesion x).junction = s.junction := rfl
@[simp] theorem State.setAdhesion_stop (x : Adhesion) : (s.setAdhesion x).stop = s.stop := rfl
@[simp] theorem State.setAdhesion_sound (x : Adhesion) : (s.setAdhesion x).sound = s.sound := rfl
@[simp] theorem State.setAdhesion_settings (x : Adhesion) : (s.setAdhesion x).settings = s.settings := rfl
@[simp] theorem State.setAdhesion_host (x : Adhesion) : (s.setAdhesion x).host = s.host := rfl

@[simp] theorem State.setHalt_pending (x : HaltLatch) : (s.setHalt x).pending = s.pending := rfl
@[simp] theorem State.setHalt_now (x : HaltLatch) : (s.setHalt x).now = s.now := rfl
@[simp] theorem State.setHalt_freeCount (x : HaltLatch) : (s.setHalt x).freeCount = s.freeCount := rfl
@[simp] theorem State.setHalt_pins (x : HaltLatch) : (s.setHalt x).pins = s.pins := rfl
@[simp] theorem State.setHalt_axle (x : HaltLatch) : (s.setHalt x).axle = s.axle := rfl
@[simp] theorem State.setHalt_traction (x : HaltLatch) : (s.setHalt x).traction = s.traction := rfl
@[simp] theorem State.setHalt_adhesion (x : HaltLatch) : (s.setHalt x).adhesion = s.adhesion := rfl
@[simp] theorem State.setHalt_halt (x : HaltLatch) : (s.setHalt x).halt = x := rfl
@[simp] theorem State.setHalt_vigilance (x : HaltLatch) : (s.setHalt x).vigilance = s.vigilance := rfl
@[simp] theorem State.setHalt_lines (x : HaltLatch) : (s.setHalt x).lines = s.lines := rfl
@[simp] theorem State.setHalt_route (x : HaltLatch) : (s.setHalt x).route = s.route := rfl
@[simp] theorem State.setHalt_junction (x : HaltLatch) : (s.setHalt x).junction = s.junction := rfl
@[simp] theorem State.setHalt_stop (x : HaltLatch) : (s.setHalt x).stop = s.stop := rfl
@[simp] theorem State.setHalt_sound (x : HaltLatch) : (s.setHalt x).sound = s.sound := rfl
@[simp] theorem State.setHalt_settings (x : HaltLatch) : (s.setHalt x).settings = s.settings := rfl
@[simp] theorem State.setHalt_host (x : HaltLatch) : (s.setHalt x).host = s.host := rfl

@[simp] theorem State.setVigilance_pending (x : Vigilance) : (s.setVigilance x).pending = s.pending := rfl
@[simp] theorem State.setVigilance_now (x : Vigilance) : (s.setVigilance x).now = s.now := rfl
@[simp] theorem State.setVigilance_freeCount (x : Vigilance) : (s.setVigilance x).freeCount = s.freeCount := rfl
@[simp] theorem State.setVigilance_pins (x : Vigilance) : (s.setVigilance x).pins = s.pins := rfl
@[simp] theorem State.setVigilance_axle (x : Vigilance) : (s.setVigilance x).axle = s.axle := rfl
@[simp] theorem State.setVigilance_traction (x : Vigilance) : (s.setVigilance x).traction = s.traction := rfl
@[simp] theorem State.setVigilance_adhesion (x : Vigilance) : (s.setVigilance x).adhesion = s.adhesion := rfl
@[simp] theorem State.setVigilance_halt (x : Vigilance) : (s.setVigilance x).halt = s.halt := rfl
@[simp] theorem State.setVigilance_vigilance (x : Vigilance) : (s.setVigilance x).vigilance = x := rfl
@[simp] theorem State.setVigilance_lines (x : Vigilance) : (s.setVigilance x).lines = s.lines := rfl
@[simp] theorem State.setVigilance_route (x : Vigilance) : (s.setVigilance x).route = s.route := rfl
@[simp] theorem State.setVigilance_junction (x : Vigilance) : (s.setVigilance x).junction = s.junction := rfl
@[simp] theorem State.setVigilance_stop (x : Vigilance) : (s.setVigilance x).stop = s.stop := rfl
@[simp] theorem State.setVigilance_sound (x : Vigilance) : (s.setVigilance x).sound = s.sound := rfl
@[simp] theorem State.setVigilance_settings (x : Vigilance) : (s.setVigilance x).settings = s.settings := rfl
@[simp] theorem State.setVigilance_host (x : Vigilance) : (s.setVigilance x).host = s.host := rfl

@[simp] theorem State.setLines_pending (x : TrainLines) : (s.setLines x).pending = s.pending := rfl
@[simp] theorem State.setLines_now (x : TrainLines) : (s.setLines x).now = s.now := rfl
@[simp] theorem State.setLines_freeCount (x : TrainLines) : (s.setLines x).freeCount = s.freeCount := rfl
@[simp] theorem State.setLines_pins (x : TrainLines) : (s.setLines x).pins = s.pins := rfl
@[simp] theorem State.setLines_axle (x : TrainLines) : (s.setLines x).axle = s.axle := rfl
@[simp] theorem State.setLines_traction (x : TrainLines) : (s.setLines x).traction = s.traction := rfl
@[simp] theorem State.setLines_adhesion (x : TrainLines) : (s.setLines x).adhesion = s.adhesion := rfl
@[simp] theorem State.setLines_halt (x : TrainLines) : (s.setLines x).halt = s.halt := rfl
@[simp] theorem State.setLines_vigilance (x : TrainLines) : (s.setLines x).vigilance = s.vigilance := rfl
@[simp] theorem State.setLines_lines (x : TrainLines) : (s.setLines x).lines = x := rfl
@[simp] theorem State.setLines_route (x : TrainLines) : (s.setLines x).route = s.route := rfl
@[simp] theorem State.setLines_junction (x : TrainLines) : (s.setLines x).junction = s.junction := rfl
@[simp] theorem State.setLines_stop (x : TrainLines) : (s.setLines x).stop = s.stop := rfl
@[simp] theorem State.setLines_sound (x : TrainLines) : (s.setLines x).sound = s.sound := rfl
@[simp] theorem State.setLines_settings (x : TrainLines) : (s.setLines x).settings = s.settings := rfl
@[simp] theorem State.setLines_host (x : TrainLines) : (s.setLines x).host = s.host := rfl

@[simp] theorem State.setRoute_pending (x : RouteEngine) : (s.setRoute x).pending = s.pending := rfl
@[simp] theorem State.setRoute_now (x : RouteEngine) : (s.setRoute x).now = s.now := rfl
@[simp] theorem State.setRoute_freeCount (x : RouteEngine) : (s.setRoute x).freeCount = s.freeCount := rfl
@[simp] theorem State.setRoute_pins (x : RouteEngine) : (s.setRoute x).pins = s.pins := rfl
@[simp] theorem State.setRoute_axle (x : RouteEngine) : (s.setRoute x).axle = s.axle := rfl
@[simp] theorem State.setRoute_traction (x : RouteEngine) : (s.setRoute x).traction = s.traction := rfl
@[simp] theorem State.setRoute_adhesion (x : RouteEngine) : (s.setRoute x).adhesion = s.adhesion := rfl
@[simp] theorem State.setRoute_halt (x : RouteEngine) : (s.setRoute x).halt = s.halt := rfl
@[simp] theorem State.setRoute_vigilance (x : RouteEngine) : (s.setRoute x).vigilance = s.vigilance := rfl
@[simp] theorem State.setRoute_lines (x : RouteEngine) : (s.setRoute x).lines = s.lines := rfl
@[simp] theorem State.setRoute_route (x : RouteEngine) : (s.setRoute x).route = x := rfl
@[simp] theorem State.setRoute_junction (x : RouteEngine) : (s.setRoute x).junction = s.junction := rfl
@[simp] theorem State.setRoute_stop (x : RouteEngine) : (s.setRoute x).stop = s.stop := rfl
@[simp] theorem State.setRoute_sound (x : RouteEngine) : (s.setRoute x).sound = s.sound := rfl
@[simp] theorem State.setRoute_settings (x : RouteEngine) : (s.setRoute x).settings = s.settings := rfl
@[simp] theorem State.setRoute_host (x : RouteEngine) : (s.setRoute x).host = s.host := rfl

@[simp] theorem State.setJunction_pending (x : JunctionUnit) : (s.setJunction x).pending = s.pending := rfl
@[simp] theorem State.setJunction_now (x : JunctionUnit) : (s.setJunction x).now = s.now := rfl
@[simp] theorem State.setJunction_freeCount (x : JunctionUnit) : (s.setJunction x).freeCount = s.freeCount := rfl
@[simp] theorem State.setJunction_pins (x : JunctionUnit) : (s.setJunction x).pins = s.pins := rfl
@[simp] theorem State.setJunction_axle (x : JunctionUnit) : (s.setJunction x).axle = s.axle := rfl
@[simp] theorem State.setJunction_traction (x : JunctionUnit) : (s.setJunction x).traction = s.traction := rfl
@[simp] theorem State.setJunction_adhesion (x : JunctionUnit) : (s.setJunction x).adhesion = s.adhesion := rfl
@[simp] theorem State.setJunction_halt (x : JunctionUnit) : (s.setJunction x).halt = s.halt := rfl
@[simp] theorem State.setJunction_vigilance (x : JunctionUnit) : (s.setJunction x).vigilance = s.vigilance := rfl
@[simp] theorem State.setJunction_lines (x : JunctionUnit) : (s.setJunction x).lines = s.lines := rfl
@[simp] theorem State.setJunction_route (x : JunctionUnit) : (s.setJunction x).route = s.route := rfl
@[simp] theorem State.setJunction_junction (x : JunctionUnit) : (s.setJunction x).junction = x := rfl
@[simp] theorem State.setJunction_stop (x : JunctionUnit) : (s.setJunction x).stop = s.stop := rfl
@[simp] theorem State.setJunction_sound (x : JunctionUnit) : (s.setJunction x).sound = s.sound := rfl
@[simp] theorem State.setJunction_settings (x : JunctionUnit) : (s.setJunction x).settings = s.settings := rfl
@[simp] theorem State.setJunction_host (x : JunctionUnit) : (s.setJunction x).host = s.host := rfl

@[simp] theorem State.setStop_pending (x : StopUnit) : (s.setStop x).pending = s.pending := rfl
@[simp] theorem State.setStop_now (x : StopUnit) : (s.setStop x).now = s.now := rfl
@[simp] theorem State.setStop_freeCount (x : StopUnit) : (s.setStop x).freeCount = s.freeCount := rfl
@[simp] theorem State.setStop_pins (x : StopUnit) : (s.setStop x).pins = s.pins := rfl
@[simp] theorem State.setStop_axle (x : StopUnit) : (s.setStop x).axle = s.axle := rfl
@[simp] theorem State.setStop_traction (x : StopUnit) : (s.setStop x).traction = s.traction := rfl
@[simp] theorem State.setStop_adhesion (x : StopUnit) : (s.setStop x).adhesion = s.adhesion := rfl
@[simp] theorem State.setStop_halt (x : StopUnit) : (s.setStop x).halt = s.halt := rfl
@[simp] theorem State.setStop_vigilance (x : StopUnit) : (s.setStop x).vigilance = s.vigilance := rfl
@[simp] theorem State.setStop_lines (x : StopUnit) : (s.setStop x).lines = s.lines := rfl
@[simp] theorem State.setStop_route (x : StopUnit) : (s.setStop x).route = s.route := rfl
@[simp] theorem State.setStop_junction (x : StopUnit) : (s.setStop x).junction = s.junction := rfl
@[simp] theorem State.setStop_stop (x : StopUnit) : (s.setStop x).stop = x := rfl
@[simp] theorem State.setStop_sound (x : StopUnit) : (s.setStop x).sound = s.sound := rfl
@[simp] theorem State.setStop_settings (x : StopUnit) : (s.setStop x).settings = s.settings := rfl
@[simp] theorem State.setStop_host (x : StopUnit) : (s.setStop x).host = s.host := rfl

@[simp] theorem State.setSound_pending (x : SoundUnit) : (s.setSound x).pending = s.pending := rfl
@[simp] theorem State.setSound_now (x : SoundUnit) : (s.setSound x).now = s.now := rfl
@[simp] theorem State.setSound_freeCount (x : SoundUnit) : (s.setSound x).freeCount = s.freeCount := rfl
@[simp] theorem State.setSound_pins (x : SoundUnit) : (s.setSound x).pins = s.pins := rfl
@[simp] theorem State.setSound_axle (x : SoundUnit) : (s.setSound x).axle = s.axle := rfl
@[simp] theorem State.setSound_traction (x : SoundUnit) : (s.setSound x).traction = s.traction := rfl
@[simp] theorem State.setSound_adhesion (x : SoundUnit) : (s.setSound x).adhesion = s.adhesion := rfl
@[simp] theorem State.setSound_halt (x : SoundUnit) : (s.setSound x).halt = s.halt := rfl
@[simp] theorem State.setSound_vigilance (x : SoundUnit) : (s.setSound x).vigilance = s.vigilance := rfl
@[simp] theorem State.setSound_lines (x : SoundUnit) : (s.setSound x).lines = s.lines := rfl
@[simp] theorem State.setSound_route (x : SoundUnit) : (s.setSound x).route = s.route := rfl
@[simp] theorem State.setSound_junction (x : SoundUnit) : (s.setSound x).junction = s.junction := rfl
@[simp] theorem State.setSound_stop (x : SoundUnit) : (s.setSound x).stop = s.stop := rfl
@[simp] theorem State.setSound_sound (x : SoundUnit) : (s.setSound x).sound = x := rfl
@[simp] theorem State.setSound_settings (x : SoundUnit) : (s.setSound x).settings = s.settings := rfl
@[simp] theorem State.setSound_host (x : SoundUnit) : (s.setSound x).host = s.host := rfl

@[simp] theorem State.setSettings_pending (x : SettingsStore) : (s.setSettings x).pending = s.pending := rfl
@[simp] theorem State.setSettings_now (x : SettingsStore) : (s.setSettings x).now = s.now := rfl
@[simp] theorem State.setSettings_freeCount (x : SettingsStore) : (s.setSettings x).freeCount = s.freeCount := rfl
@[simp] theorem State.setSettings_pins (x : SettingsStore) : (s.setSettings x).pins = s.pins := rfl
@[simp] theorem State.setSettings_axle (x : SettingsStore) : (s.setSettings x).axle = s.axle := rfl
@[simp] theorem State.setSettings_traction (x : SettingsStore) : (s.setSettings x).traction = s.traction := rfl
@[simp] theorem State.setSettings_adhesion (x : SettingsStore) : (s.setSettings x).adhesion = s.adhesion := rfl
@[simp] theorem State.setSettings_halt (x : SettingsStore) : (s.setSettings x).halt = s.halt := rfl
@[simp] theorem State.setSettings_vigilance (x : SettingsStore) : (s.setSettings x).vigilance = s.vigilance := rfl
@[simp] theorem State.setSettings_lines (x : SettingsStore) : (s.setSettings x).lines = s.lines := rfl
@[simp] theorem State.setSettings_route (x : SettingsStore) : (s.setSettings x).route = s.route := rfl
@[simp] theorem State.setSettings_junction (x : SettingsStore) : (s.setSettings x).junction = s.junction := rfl
@[simp] theorem State.setSettings_stop (x : SettingsStore) : (s.setSettings x).stop = s.stop := rfl
@[simp] theorem State.setSettings_sound (x : SettingsStore) : (s.setSettings x).sound = s.sound := rfl
@[simp] theorem State.setSettings_settings (x : SettingsStore) : (s.setSettings x).settings = x := rfl
@[simp] theorem State.setSettings_host (x : SettingsStore) : (s.setSettings x).host = s.host := rfl

@[simp] theorem State.setHost_pending (x : HostLink) : (s.setHost x).pending = s.pending := rfl
@[simp] theorem State.setHost_now (x : HostLink) : (s.setHost x).now = s.now := rfl
@[simp] theorem State.setHost_freeCount (x : HostLink) : (s.setHost x).freeCount = s.freeCount := rfl
@[simp] theorem State.setHost_pins (x : HostLink) : (s.setHost x).pins = s.pins := rfl
@[simp] theorem State.setHost_axle (x : HostLink) : (s.setHost x).axle = s.axle := rfl
@[simp] theorem State.setHost_traction (x : HostLink) : (s.setHost x).traction = s.traction := rfl
@[simp] theorem State.setHost_adhesion (x : HostLink) : (s.setHost x).adhesion = s.adhesion := rfl
@[simp] theorem State.setHost_halt (x : HostLink) : (s.setHost x).halt = s.halt := rfl
@[simp] theorem State.setHost_vigilance (x : HostLink) : (s.setHost x).vigilance = s.vigilance := rfl
@[simp] theorem State.setHost_lines (x : HostLink) : (s.setHost x).lines = s.lines := rfl
@[simp] theorem State.setHost_route (x : HostLink) : (s.setHost x).route = s.route := rfl
@[simp] theorem State.setHost_junction (x : HostLink) : (s.setHost x).junction = s.junction := rfl
@[simp] theorem State.setHost_stop (x : HostLink) : (s.setHost x).stop = s.stop := rfl
@[simp] theorem State.setHost_sound (x : HostLink) : (s.setHost x).sound = s.sound := rfl
@[simp] theorem State.setHost_settings (x : HostLink) : (s.setHost x).settings = s.settings := rfl
@[simp] theorem State.setHost_host (x : HostLink) : (s.setHost x).host = x := rfl

@[simp] theorem State.setPending_pending (l : List Instr) : (s.setPending l).pending = l := rfl
@[simp] theorem State.setPending_now (l : List Instr) : (s.setPending l).now = s.now := rfl
@[simp] theorem State.setPending_freeCount (l : List Instr) : (s.setPending l).freeCount = s.freeCount := rfl
@[simp] theorem State.setPending_pins (l : List Instr) : (s.setPending l).pins = s.pins := rfl
@[simp] theorem State.setPending_axle (l : List Instr) : (s.setPending l).axle = s.axle := rfl
@[simp] theorem State.setPending_traction (l : List Instr) : (s.setPending l).traction = s.traction := rfl
@[simp] theorem State.setPending_adhesion (l : List Instr) : (s.setPending l).adhesion = s.adhesion := rfl
@[simp] theorem State.setPending_halt (l : List Instr) : (s.setPending l).halt = s.halt := rfl
@[simp] theorem State.setPending_vigilance (l : List Instr) : (s.setPending l).vigilance = s.vigilance := rfl
@[simp] theorem State.setPending_lines (l : List Instr) : (s.setPending l).lines = s.lines := rfl
@[simp] theorem State.setPending_route (l : List Instr) : (s.setPending l).route = s.route := rfl
@[simp] theorem State.setPending_junction (l : List Instr) : (s.setPending l).junction = s.junction := rfl
@[simp] theorem State.setPending_stop (l : List Instr) : (s.setPending l).stop = s.stop := rfl
@[simp] theorem State.setPending_sound (l : List Instr) : (s.setPending l).sound = s.sound := rfl
@[simp] theorem State.setPending_settings (l : List Instr) : (s.setPending l).settings = s.settings := rfl
@[simp] theorem State.setPending_host (l : List Instr) : (s.setPending l).host = s.host := rfl

end Sys2Proof.Machine
end

