-- ==== Sys2Proof/Laws/Walk.lean ====
section
/-! SUPPORT. Walks: the primitive changes of state an operation is made of. `At P s` says that P holds of s; a walk says that
P is kept by the primitives of a level, and each operation of that level then keeps P. An invariant is a P about the blocks a
level writes; a frame is a P about the blocks it does not write. -/

namespace Sys2Proof.Machine

/-- P holds of s. -/
def At (P : State → Prop) (s : State) : Prop := P s

/-- The primitives of the settings store and the event set. -/
structure StoreWalk (P : State → Prop) : Prop where
  raise : ∀ {s k j v}, At P s → At P (raise k j v s)
  lock : ∀ {s g b}, At P s → At P (judgeLock g b s)

/-- The primitives of the sound unit. -/
structure SoundWalk (P : State → Prop) : Prop extends StoreWalk P where
  sound : ∀ {s u}, (SoundLaw s.sound → SoundLaw u) → At P s → At P (s.setSound u)

/-- The traction fields the laws speak of are the same. -/
def Traction.keeps (a b : Traction) : Prop :=
  b.state = a.state ∧ b.effort = a.effort ∧ b.overspeed = a.overspeed ∧ b.lastH = a.lastH

/-- The primitives of the halt latch, the power gate and the train lines. -/
structure HaltWalk (P : State → Prop) : Prop extends SoundWalk P where
  outputs : ∀ {s t}, s.traction.keeps t → At P s → At P (s.setTraction t)
  inhibit : ∀ {s}, At P s → At P (enterInhibited s)
  full : ∀ {s}, At P s → At P (s.setTraction { s.traction with effort := -1000 })
  effortHeld : ∀ {s b}, At P s → At P (s.setSettings { s.settings with effortHeld := b })
  start : ∀ {s}, s.traction.state = .startHeld → At P s → At P (s.setTraction { s.traction with state := .running })
  lines : ∀ {s l}, l.role = s.lines.role → (LineLaw s.lines → LineLaw l) → At P s → At P (s.setLines l)
  ack : ∀ {s x}, At P s → At P (s.setHalt { s.halt with ackRun := x })
  latch : ∀ {s r}, s.halt.latch = none → At P s →
    At P (enterHalted (s.setHalt { s.halt with latch := some r, ackRun := none }))
  causes : ∀ {s c}, (c.any = true → s.halt.causes.any = true ∨ s.halt.latch.isSome = true) → At P s →
    At P (s.setHalt { s.halt with causes := c })

/-- The halt walk with the release of the latch, which a pass and HALT_RELEASED alone bring: what keeps a set latch is a halt walk
and no release walk. -/
structure ReleaseWalk (P : State → Prop) : Prop extends HaltWalk P where
  release : ∀ {s}, s.halt.causes.any = false → s.halt.latch.isSome = true → At P s →
    At P ((s.setHalt { s.halt with latch := none, ackRun := none }).setTraction { s.traction with state := .inhibited })

/-- The primitives of the route engine, with the release of SAND. -/
structure RouteWalk (P : State → Prop) : Prop where
  route : ∀ {s r}, r.sandInhibit = s.route.sandInhibit → (RouteLaw s.route → RouteLaw r) → At P s → At P (s.setRoute r)
  sand : ∀ {s}, At P s → At P (releaseSand s)
  inhibited : ∀ {s b}, (b = true → sandAsserted s = false) → At P s → At P (s.setRoute { s.route with sandInhibit := b })

/-- The primitives of the junction unit. -/
structure JunctionWalk (P : State → Prop) : Prop extends HaltWalk P, RouteWalk P where
  junction : ∀ {s u},
    (s.junction.signalQueue.length ≤ Config.maxSignals → u.signalQueue.length ≤ Config.maxSignals) → At P s →
    At P (s.setJunction u)

/-- The primitives of the stop-request unit. -/
structure StopWalk (P : State → Prop) : Prop extends SoundWalk P, RouteWalk P where
  stop : ∀ {s u}, At P s → At P (s.setStop u)

/-- The primitives of the vigilance monitor. -/
structure VigilWalk (P : State → Prop) : Prop extends HaltWalk P where
  vigil : ∀ {s v}, VigilLaw v → At P s → At P (s.setVigilance v)

/-- The primitives of a change of role. -/
structure RoleWalk (P : State → Prop) : Prop extends JunctionWalk P, StopWalk P, VigilWalk P where
  role : ∀ {s r c}, (LineLaw s.lines → LineLaw { s.lines with role := r, coupled := c }) → At P s →
    At P (s.setLines { s.lines with role := r, coupled := c })

/-- The primitives of the axle unit. -/
structure AxleWalk (P : State → Prop) : Prop extends RoleWalk P where
  axle : ∀ {s x}, x.standstill = s.axle.standstill → At P s → At P (s.setAxle x)
  moving : ∀ {s}, At P s → At P (s.setAxle { s.axle with standstill := false })
  stopped : ∀ {s}, sandAsserted s = false → At P s → At P (s.setAxle { s.axle with standstill := true })
  flagged : ∀ {s f}, At P s → At P (s.setHalt { s.halt with latch := s.halt.latch.map f })

/-- The primitives of the effort chain and of the adhesion section. `move` takes stages 3 and 4 as one: E moves on the demand
gated before the overspeed and rollback judgements, under the settings `st` the pass began with. -/
structure ChainWalk (P : State → Prop) : Prop extends ReleaseWalk P where
  sense : ∀ {s x}, At P s → At P (s.setAxle { s.axle with sense := x })
  bogies : ∀ {s x}, x.sand = s.adhesion.sand → At P s → At P (s.setAdhesion x)
  sandOn : ∀ {s t}, s.axle.standstill = false → s.route.sandInhibit = false → At P s →
    At P (s.setAdhesion { s.adhesion with sand := .on t })
  sandEnd : ∀ {s x}, (∀ t, x ≠ .on t) → At P s → At P (s.setAdhesion { s.adhesion with sand := x })
  free : ∀ {s n}, At P s → At P (s.setFreeCount n)
  exit : ∀ {s}, s.traction.state = .inhibited → At P s → At P (s.setTraction { s.traction with state := .running })
  hold : ∀ {s}, s.traction.state = .inhibited → At P s → At P (s.setTraction { s.traction with state := .startHeld })
  handle : ∀ {s t}, t.state = s.traction.state → t.effort = s.traction.effort → t.overspeed = s.traction.overspeed →
    -1000 ≤ t.lastH ∧ t.lastH ≤ 1000 → At P s → At P (s.setTraction t)
  move : ∀ {s₀ s₁ s h}, At P s₀ → At P s₁ → (RangeLaw s₁.traction → -1000 ≤ h ∧ h ≤ 1000) → At P s →
    At P (moveEffort s₀.settings (gateDemand h s) (judgeRollback s₀.settings (judgeOverspeed s₀.settings s)))

/-- The primitives that bring a command: its time, its pins, its place in the queue. -/
structure OuterWalk (P : State → Prop) : Prop where
  clock : ∀ {s t}, At P s → At P (s.setNow t)
  pins : ∀ {s x}, At P s → At P (s.setPins x)

/-- The primitives of the host link that leave the event set alone. -/
structure LinkWalk (P : State → Prop) : Prop where
  link : ∀ {s h}, h.events = s.host.events → h.incomplete = s.host.incomplete →
    (s.host.queue.length ≤ Config.maxRequests → h.queue.length ≤ Config.maxRequests) → At P s → At P (s.setHost h)

/-- The primitives of every command. -/
structure WholeWalk (P : State → Prop) : Prop extends AxleWalk P, ChainWalk P, OuterWalk P, LinkWalk P where
  pending : ∀ {s l}, At P s → At P (s.setPending l)
  settings : ∀ {s st}, (SettingsLaw s.settings → SettingsLaw st) → At P s → At P (s.setSettings st)
  events : ∀ {s n}, At P s → At P (s.setHost { s.host with
    events := s.host.events.drop n
    incomplete := s.host.incomplete && !(s.host.events.drop n).isEmpty })
  blocks : ∀ {s}, At P s → At P (resetBlocks s)
  restarted : ∀ {s}, At P s → At P (s.setHost s.host.afterFull)
  fresh : ∀ {s}, At P s → At P (s.setHost .atReset)

end Sys2Proof.Machine
end

