-- ==== Sys2Proof/Laws/SoundOps.lean ====
section
/-! SUPPORT. The operations of the sound unit keep what a sound walk keeps. -/

namespace Sys2Proof.Machine

variable {P : State → Prop} {s : State}

@[simp] theorem raise_at (W : StoreWalk P) {k j v} (h : At P s) : At P (raise k j v s) := W.raise h
@[simp] theorem judgeLock_at (W : StoreWalk P) {g b} (h : At P s) : At P (judgeLock g b s) := W.lock h
@[simp] theorem SoundWalk.store (W : SoundWalk P) : StoreWalk P := W.toStoreWalk

theorem SoundUnit.line_setLine (u : SoundUnit) (c d : SoundChannel) (l : SoundLine) :
    (u.setLine c l).line d = if d = c then l else u.line d := by
  cases c <;> cases d <;> rfl

/-- A channel's line replaced by one whose queue fits, or is no longer than the one before. -/
theorem SoundLaw.setLine {u : SoundUnit} {c : SoundChannel} {l : SoundLine}
    (h : l.queue.length ≤ Config.maxWaiting ∨ l.queue.length ≤ (u.line c).queue.length) :
    SoundLaw u → SoundLaw (u.setLine c l) := by
  intro hu d
  rw [SoundUnit.line_setLine]
  split
  · have := hu c; omega
  · exact hu d

/-- What a walk keeps when one channel's line is replaced. -/
theorem SoundWalk.line (W : SoundWalk P) {c : SoundChannel} {l : SoundLine}
    (hl : l.queue.length ≤ Config.maxWaiting ∨ l.queue.length ≤ (s.sound.line c).queue.length) (h : At P s) :
    At P (s.setSound (s.sound.setLine c l)) := W.sound (SoundLaw.setLine hl) h

@[simp] theorem judgeSound_at (W : SoundWalk P) (h : At P s) : At P (judgeSound s) := W.lock h

@[simp] theorem strike_at (W : SoundWalk P) (h : At P s) : At P (strike s) := by
  unfold strike; split
  · exact h
  · exact W.sound id h

@[simp] theorem enterStep_at (W : SoundWalk P) {c p st i j t} (h : At P s) : At P (enterStep c p st i j t s) := by
  unfold enterStep; dsimp only; split
  · exact strike_at W (W.line (.inr (Nat.le_refl _)) h)
  · exact W.line (.inr (Nat.le_refl _)) h

@[simp] theorem takePattern_at (W : SoundWalk P) {c p} (h : At P s) : At P (takePattern c p s) := by
  unfold takePattern; split <;> simp [*]

@[simp] theorem leavePlayer_at (W : SoundWalk P) {c} (h : At P s) : At P (leavePlayer c s) := by
  unfold leavePlayer; split
  · exact judgeSound_at W (W.line (.inl (by simp)) h)
  next w rest e => exact judgeSound_at W (takePattern_at W (W.line (.inr (by simp [e])) h))

theorem joinQueue_length (w : Waiting) (q : List Waiting) : (joinQueue w q).length = q.length + 1 := by
  unfold joinQueue; split
  · have := congrArg List.length (List.takeWhile_append_dropWhile (p := fun x : Waiting => x.cls == .urgent) (l := q))
    simp only [List.length_append] at this
    simp; omega
  · simp

/-- A displaced entry leaves a queue one shorter. -/
theorem displaceNewest_length {q rest : List Waiting} {gone : Waiting} (h : displaceNewest q = some (gone, rest)) :
    rest.length + 1 = q.length := by
  unfold displaceNewest at h; split at h
  next w e =>
    cases h
    have hw := List.find?_some e
    have hm := List.mem_of_find?_eq_some e
    have := List.length_eraseP_of_mem hm hw
    have : 0 < q.reverse.length := List.length_pos_of_mem hm
    simp at *; omega
  · cases h

@[simp] theorem queueRequest_at (W : SoundWalk P) {c w} (h : At P s) : At P (queueRequest c w s).1 := by
  unfold queueRequest; dsimp only; split
  next hlt => exact W.line (.inl (by rw [joinQueue_length]; exact hlt)) h
  next hge =>
    split
    · exact h
    next gone rest e =>
      exact W.raise (W.line (.inr (by rw [joinQueue_length, displaceNewest_length e])) h)
    · exact W.raise h

@[simp] theorem requestPattern_at (W : SoundWalk P) {p o} (h : At P s) : At P (requestPattern p o s).1 := by
  unfold requestPattern; split
  · exact h
  · dsimp only; split
    · exact h
    · split
      · exact W.line (.inr (by simp)) h
      · split
        · simp [*]
        · split
          · exact takePattern_at W (W.raise h)
          · exact queueRequest_at W h
        · simp [*]

@[simp] theorem askFor_at (W : SoundWalk P) {p} (h : At P s) : At P (askFor p s) := requestPattern_at W h

@[simp] theorem silencePattern_at (W : SoundWalk P) {p} (h : At P s) : At P (silencePattern p s) := by
  unfold silencePattern; split
  · exact h
  · dsimp only; split
    · exact leavePlayer_at W h
    · exact W.line (.inr (List.length_filter_le _ _)) h

theorem SoundLine.silenced_queue (l : SoundLine) : l.silenced.queue = [] := by
  unfold SoundLine.silenced; split <;> rfl

@[simp] theorem silenceAll_at (W : SoundWalk P) (h : At P s) : At P (silenceAll s) :=
  judgeSound_at W (W.sound (fun _ c => by cases c <;> simp [SoundUnit.line, SoundLine.silenced_queue]) h)

@[simp] theorem driverTakes_at (W : SoundWalk P) {c v} (h : At P s) : At P (driverTakes c v s) := by
  unfold driverTakes; dsimp only; split
  · exact judgeSound_at W (W.line (.inr (Nat.le_refl _)) (W.raise h))
  · exact judgeSound_at W (W.line (.inr (Nat.le_refl _)) h)

@[simp] theorem releaseBell_at (W : SoundWalk P) (h : At P s) : At P (releaseBell s) := by
  unfold releaseBell; split
  · exact leavePlayer_at W (W.sound id h)
  · exact h

@[simp] theorem endHorn_at (W : SoundWalk P) (h : At P s) : At P (endHorn s) := leavePlayer_at W (W.sound id h)

@[simp] theorem releaseControls_at (W : SoundWalk P) (h : At P s) : At P (releaseControls s) := by
  unfold releaseControls; dsimp only; split <;> simp [*]

end Sys2Proof.Machine
end

