-- ==== Sys2Proof/Laws/Store.lean ====
section
/-! SUPPORT. What the shared operations can do: raise writes the event set, the lock judgement the settings and the event
set. -/

namespace Sys2Proof.Machine

variable {P : State → Prop} {s : State}

/-- Either way, P is kept. -/
theorem ite_at {c : Prop} [Decidable c] {a b : State} (ha : c → At P a) (hb : ¬c → At P b) : At P (if c then a else b) := by
  split
  · exact ha ‹_›
  · exact hb ‹_›

/-- `judgeLock` changes the settings and the host link alone. -/
theorem judgeLock_eq (g : Group) (b : Bool) (s : State) :
    judgeLock g b s = (s.setSettings (judgeLock g b s).settings).setHost (judgeLock g b s).host := by
  unfold judgeLock applyPending raise
  dsimp only
  repeat' split
  all_goals rfl

/-- A judged group is LOCKED exactly while its condition holds or it is frozen; the other groups stay (R165). -/
@[simp] theorem judgeLock_locked (g : Group) (b : Bool) (s : State) :
    (judgeLock g b s).settings.locked = s.settings.locked.put g (b || s.settings.frozen.get g) := by
  unfold judgeLock applyPending raise
  dsimp only
  repeat' split
  all_goals rfl

@[simp] theorem judgeLock_frozen (g : Group) (b : Bool) (s : State) :
    (judgeLock g b s).settings.frozen = s.settings.frozen := by
  unfold judgeLock applyPending raise
  dsimp only
  repeat' split
  all_goals rfl

@[simp] theorem judgeLock_effortHeld (g : Group) (b : Bool) (s : State) :
    (judgeLock g b s).settings.effortHeld = s.settings.effortHeld := by
  unfold judgeLock applyPending raise
  dsimp only
  repeat' split
  all_goals rfl

/-- The pending and the effective values a judged group leaves: those of a group that unlocks are set, one after another, and
wait no more; otherwise all stay (R168). -/
theorem judgeLock_values (g : Group) (b : Bool) (s : State) :
    let opens := s.settings.locked.get g && !(b || s.settings.frozen.get g)
    let mine := s.settings.pending.filter fun p => settingGroup p.1 == g.code
    (judgeLock g b s).settings.pending =
      (if opens then s.settings.pending.filter fun p => settingGroup p.1 != g.code else s.settings.pending) ∧
    (judgeLock g b s).settings.effective =
      (if opens then mine.foldl (fun l p => listSet p.1 p.2 l) s.settings.effective else s.settings.effective) := by
  unfold judgeLock applyPending raise
  dsimp only
  repeat' split
  all_goals exact ⟨rfl, rfl⟩

/-- A value set is the value listed, and every other stays. -/
theorem listed_listSet (m n : Nat) (v : Int) (l : List (Nat × Int)) :
    listed m (listSet n v l) = if m = n then some v else listed m l := by
  induction l with
  | nil => simp [listSet, listed, eq_comm]
  | cons p l ih =>
    obtain ⟨k, w⟩ := p
    unfold listSet
    split
    · simp [listed, eq_comm]
    · split
      · rename_i e
        subst e
        by_cases h : m = n
        · simp [listed, h]
        · simp [listed, h, Ne.symm h]
      · simp only [listed, ih]; split <;> split <;> simp_all

/-- Values set one after another, each number once, are the values listed before those that were there. -/
theorem listed_foldl_listSet (m : Nat) (mine acc : List (Nat × Int)) (once : (mine.map (·.1)).Nodup) :
    listed m (mine.foldl (fun l p => listSet p.1 p.2 l) acc) = (listed m mine).or (listed m acc) := by
  induction mine generalizing acc with
  | nil => simp [listed]
  | cons p l ih =>
    obtain ⟨k, w⟩ := p
    obtain ⟨hk, hl⟩ := List.nodup_cons.1 once
    have absent : ∀ l : List (Nat × Int), k ∉ l.map (·.1) → listed k l = none := by
      intro l; induction l with
      | nil => intro _; rfl
      | cons q l ih => intro h; simp only [List.map_cons, List.mem_cons, not_or] at h; simp [listed, Ne.symm h.1, ih h.2]
    simp only [List.foldl_cons, ih _ hl, listed_listSet, listed]
    split
    · subst_vars; simp [absent l hk]
    · rename_i h; simp [Ne.symm h]

/-- A property of the other blocks is kept by a store walk. -/
theorem StoreWalk.other (hs : ∀ s st, P s → P (s.setSettings st)) (hh : ∀ s h, P s → P (s.setHost h)) : StoreWalk P where
  raise := fun {s k j v} h => by exact hh _ _ h
  lock := fun {s g b} h => by rw [At, judgeLock_eq]; exact hh _ _ (hs _ _ h)

end Sys2Proof.Machine
end

