-- ==== Sys2Proof/Laws/HaltOps.lean ====
section
/-! SUPPORT. The operations of the halt latch and the train lines keep what a halt walk keeps. -/

namespace Sys2Proof.Machine

variable {P : State → Prop} {s : State}

/-- `askFor` leaves the halt latch alone. -/
@[simp] theorem askFor_halt (p : Nat) (s : State) : (askFor p s).halt = s.halt :=
  askFor_at (P := fun t => t.halt = s.halt) (p := p)
    { StoreWalk.other (fun _ _ h => h) (fun _ _ h => h) with sound := fun _ h => h } rfl

theorem Traction.keeps_rfl (a : Traction) : a.keeps a := ⟨rfl, rfl, rfl, rfl⟩

theorem writeLines_keeps (t : Traction) : t.keeps (writeLines t) := by
  unfold writeLines; split <;> exact ⟨rfl, rfl, rfl, rfl⟩

theorem shareEffort_at (W : HaltWalk P) (h : At P s) : At P (shareEffort s) := W.outputs ⟨rfl, rfl, rfl, rfl⟩ h

theorem judgeEffort_at (W : HaltWalk P) (h : At P s) : At P (judgeEffort s) := W.lock (W.effortHeld h)

theorem breachBraking_at (W : HaltWalk P) (h : At P s) : At P (breachBraking s) :=
  judgeEffort_at W (W.outputs (writeLines_keeps _) (shareEffort_at W (W.full h)))

theorem setLatch_at (W : HaltWalk P) {c} (hl : s.halt.latch = none) (h : At P s) : At P (setLatch c s) :=
  askFor_at W.toSoundWalk (W.raise (W.lines rfl id (W.latch hl h)))

/-- The record the latch takes where it sets (R62). -/
theorem setLatch_record (c : Cause) (s : State) :
    (setLatch c s).halt.latch = some ⟨c, s.now, s.route.distance, s.axle.refSpeed, s.axle.standstill⟩ := by
  unfold setLatch; rw [askFor_halt]
  unfold enterHalted; rfl

/-- The latch is set once `setLatch` has run. -/
theorem setLatch_isSome (c : Cause) (s : State) : (setLatch c s).halt.latch.isSome = true := by rw [setLatch_record]; rfl

theorem joinCauses_at (W : HaltWalk P) {cs} (h : At P s) : At P (joinCauses cs s) := by
  unfold joinCauses; split
  · exact h
  next first more e =>
    dsimp only
    have hl : At P (if s.halt.latch.isNone then setLatch first s else s) ∧
        (if s.halt.latch.isNone then setLatch first s else s).halt.latch.isSome = true := by
      split
      next hn => exact ⟨setLatch_at W (by simpa using hn) h, setLatch_isSome _ _⟩
      next hn => exact ⟨h, by simpa [Option.isSome_iff_ne_none] using hn⟩
    have := W.causes (c := (first :: more).foldl (fun x c => x.put c true)
      (if s.halt.latch.isNone then setLatch first s else s).halt.causes) (fun _ => .inr hl.2) hl.1
    split
    · exact breachBraking_at W this
    · exact this

/-- Putting a cause out makes no cause present. -/
theorem Causes.any_put_false (c : Causes) (x : Cause) (h : (c.put x false).any = true) : c.any = true := by
  rcases c with ⟨a0, a1, a2, a3, a4, a5, a6, a7⟩
  cases x <;> simp_all [Causes.any, Causes.put, Causes.has, Cause.descending] <;> tauto

theorem Causes.any_drop (cs : List Cause) (c : Causes) (h : (cs.foldl (fun x c => x.put c false) c).any = true) :
    c.any = true := by
  induction cs generalizing c with
  | nil => exact h
  | cons x l ih => exact Causes.any_put_false c x (ih _ h)

theorem dropCauses_at (W : HaltWalk P) {cs} (h : At P s) : At P (dropCauses cs s) :=
  W.causes (fun hc => .inl (Causes.any_drop cs _ hc)) h

theorem senseHalt_at (W : HaltWalk P) (h : At P s) : At P (senseHalt s) := by
  unfold senseHalt; split
  · exact joinCauses_at W h
  · exact dropCauses_at W h

theorem judgeDrive_at (W : HaltWalk P) (h : At P s) : At P (judgeDrive s) := by
  unfold judgeDrive; dsimp only; split
  · exact h
  · split
    · exact W.lines rfl id h
    · exact senseHalt_at W (W.lines rfl id h)

theorem addCauses_at (W : HaltWalk P) {cs} (h : At P s) : At P (addCauses cs s) := judgeDrive_at W (joinCauses_at W h)

theorem removeCauses_at (W : HaltWalk P) {cs} (h : At P s) : At P (removeCauses cs s) :=
  judgeDrive_at W (dropCauses_at W h)

/-- The latch is released only with no cause present (R66). -/
theorem releaseLatch_at (W : ReleaseWalk P) (hc : s.halt.causes.any = false) (h : At P s) : At P (releaseLatch s) := by
  unfold releaseLatch; split
  · exact h
  next r e => exact silencePattern_at W.toSoundWalk (W.raise (W.release hc (by simp [e]) h))

theorem deliverStart_at (W : HaltWalk P) (h : At P s) : At P (deliverStart s) := by
  unfold deliverStart; split
  next hs => exact W.start hs.1 h
  · exact h

theorem startPulse_at (W : HaltWalk P) (h : At P s) : At P (startPulse s) := by
  unfold startPulse; dsimp only; split
  · exact deliverStart_at W h
  · exact W.lines rfl id (deliverStart_at W h)

end Sys2Proof.Machine
end

