-- ==== Sys2Proof/Laws/RouteOps.lean ====
section
/-! SUPPORT. The operations of the route engine keep what a route walk keeps, and RouteLaw among it. -/

namespace Sys2Proof.Machine

variable {P : State → Prop} {s : State}

/-! ### Changes of an entry that leave its place in the table -/

/-- What RouteLaw reads of an entry is the same. -/
structure Entry.SamePlan (a b : Entry) : Prop where
  tag : b.tag = a.tag
  key : b.body.key = a.body.key
  ordered : b.body.ordered = a.body.ordered
  given : b.body.given = a.body.given

theorem Entry.SamePlan.rfl' (a : Entry) : a.SamePlan a := ⟨rfl, rfl, rfl, rfl⟩

theorem EntryLaw.of_same {a b : Entry} (h : a.SamePlan b) (la : EntryLaw a) : EntryLaw b where
  tagged := by rw [h.tag]; exact la.tagged
  ordered := by rw [h.ordered]; exact la.ordered
  fits := by rw [h.given]; exact la.fits

/-- A junction's marks, fix and nothing else that RouteLaw reads. -/
def JunctionEntry.SamePlan (a b : JunctionEntry) : Prop :=
  b.markA = a.markA ∧ b.markE = a.markE ∧ b.markC = a.markC ∧ b.markX = a.markX ∧ b.fix = a.fix

theorem Entry.onJunction_same {f : JunctionEntry → JunctionEntry} (hf : ∀ j, JunctionEntry.SamePlan j (f j)) (e : Entry) :
    e.SamePlan (e.onJunction f) := by
  unfold Entry.onJunction; split
  next j h =>
    obtain ⟨h1, h2, h3, h4, h5⟩ := hf j
    constructor <;> simp [h, EntryBody.key, EntryBody.ordered, EntryBody.given, h1, h2, h3, h4, h5]
  · exact .rfl' e

theorem Entry.onSignal_same {f : SignalEntry → SignalEntry} (hf : ∀ g, (f g).callIn = g.callIn ∧ (f g).callOff = g.callOff)
    (e : Entry) : e.SamePlan (e.onSignal f) := by
  unfold Entry.onSignal; split
  next g h =>
    obtain ⟨h1, h2⟩ := hf g
    constructor <;> simp [h, EntryBody.key, EntryBody.ordered, EntryBody.given, h1, h2]
  · exact .rfl' e

theorem Entry.onStop_same {f : StopEntry → StopEntry} (hf : ∀ p, (f p).approach = p.approach ∧ (f p).stopMark = p.stopMark)
    (e : Entry) : e.SamePlan (e.onStop f) := by
  unfold Entry.onStop; split
  next p h =>
    obtain ⟨h1, h2⟩ := hf p
    constructor <;> simp [h, EntryBody.key, EntryBody.ordered, EntryBody.given, h1, h2]
  · exact .rfl' e

theorem Entry.onRestriction_same {f : RestrictionEntry → RestrictionEntry}
    (hf : ∀ r, (f r).start = r.start ∧ (f r).finish = r.finish) (e : Entry) : e.SamePlan (e.onRestriction f) := by
  unfold Entry.onRestriction; split
  next r h =>
    obtain ⟨h1, h2⟩ := hf r
    constructor <;> simp [h, EntryBody.key, EntryBody.ordered, EntryBody.given, h1, h2]
  · exact .rfl' e

theorem clearRestriction_same (n d : Nat) (e : Entry) : e.SamePlan (clearRestriction n d e) := by
  unfold clearRestriction; split
  next r h =>
    split
    · constructor <;> simp [h, EntryBody.key, EntryBody.ordered, EntryBody.given] <;> split <;> simp
    · exact .rfl' e
  · exact .rfl' e

theorem crossRestriction_marks (m : Nat) (r : RestrictionEntry) :
    (crossRestriction m r).start = r.start ∧ (crossRestriction m r).finish = r.finish := by
  unfold crossRestriction; split <;> exact ⟨rfl, rfl⟩

/-! ### RouteLaw under the changes of the engine -/

/-- A table whose entries keep their plans is as lawful. -/
theorem RouteLaw.map {r : RouteEngine} {f : Entry → Entry} (hf : ∀ e, Entry.SamePlan e (f e)) (h : RouteLaw r) :
    RouteLaw { r with table := r.table.map f } where
  distance := h.distance
  residue := h.residue
  room := by simpa using h.room
  entries := by
    intro e he
    simp only [List.mem_map] at he
    obtain ⟨a, ha, rfl⟩ := he
    exact (h.entries a ha).of_same (hf a)
  tags := by
    have : (r.table.map f).map (·.tag) = r.table.map (·.tag) := by
      rw [List.map_map]; exact List.map_congr_left fun a _ => (hf a).tag
    rw [this]; exact h.tags
  sorted := by
    simp only [List.pairwise_map]
    exact h.sorted.imp fun {a b} hab => by rw [(hf a).key, (hf b).key]; exact hab
  inactive := fun ha => by rw [h.inactive ha]; rfl

/-- A table with some entries gone is as lawful. -/
theorem RouteLaw.filter {r : RouteEngine} {p : Entry → Bool} (h : RouteLaw r) :
    RouteLaw { r with table := r.table.filter p } where
  distance := h.distance
  residue := h.residue
  room := Nat.le_trans (List.length_filter_le _ _) h.room
  entries := fun e he => h.entries e (List.mem_of_mem_filter he)
  tags := h.tags.sublist (List.filter_sublist.map _)
  sorted := h.sorted.sublist List.filter_sublist
  inactive := fun ha => by rw [h.inactive ha]; rfl

theorem RouteLaw.move {r : RouteEngine} {d x : Nat} (hd : d ≤ Config.maxDistance) (hx : x < Config.unitsPerDm)
    (h : RouteLaw r) : RouteLaw { r with distance := d, residue := x } :=
  { h with distance := hd, residue := hx }

theorem mapEntry_same {tag : Nat} {f : Entry → Entry} (hf : ∀ e, Entry.SamePlan e (f e)) (e : Entry) :
    e.SamePlan (if e.tag = tag then f e else e) := by
  split
  · exact hf e
  · exact .rfl' e

/-! ### Operations -/

theorem changeEntry_at (W : RouteWalk P) {tag f} (hf : ∀ e, Entry.SamePlan e (f e)) (h : At P s) :
    At P (changeEntry tag f s) := W.route rfl (RouteLaw.map (mapEntry_same hf)) h

/-- A junction entry changed but for its marks and fix. -/
theorem changeJunction_at (W : RouteWalk P) {tag f} (hf : ∀ j, JunctionEntry.SamePlan j (f j)) (h : At P s) :
    At P (changeEntry tag (Entry.onJunction f) s) := changeEntry_at W (Entry.onJunction_same hf) h

theorem changeSignal_at (W : RouteWalk P) {tag f} (hf : ∀ g, (f g).callIn = g.callIn ∧ (f g).callOff = g.callOff)
    (h : At P s) : At P (changeEntry tag (Entry.onSignal f) s) := changeEntry_at W (Entry.onSignal_same hf) h

theorem formCeiling_at (W : RouteWalk P) (h : At P s) : At P (formCeiling s) := W.route rfl (fun l => { l with }) h

theorem releaseSand_off (s : State) : sandAsserted (releaseSand s) = false := by
  unfold releaseSand sandAsserted; cases e : s.adhesion.sand <;> simp [e]

theorem judgeInhibit_at (W : RouteWalk P) (h : At P s) : At P (judgeInhibit s) := by
  unfold judgeInhibit; dsimp only
  split
  next ho => exact W.inhibited (fun _ => releaseSand_off s) (W.sand h)
  next ho => exact W.inhibited (fun hb => absurd hb ho) h

theorem retire_at (W : RouteWalk P) (h : At P s) : At P (retire s) := W.route rfl RouteLaw.filter h

theorem settleRoute_at (W : RouteWalk P) (h : At P s) : At P (settleRoute s) :=
  judgeInhibit_at W (formCeiling_at W (retire_at W h))

theorem settleAfter_at (W : RouteWalk P) {l} (h : At P s) : At P (settleAfter l s) := by
  unfold settleAfter; split
  · exact h
  · exact settleRoute_at W h

theorem refreshSetLength_at (W : RouteWalk P) (h : At P s) : At P (refreshSetLength s) := by
  unfold refreshSetLength; dsimp only
  generalize s.cfgN Setting.tramLength * (if s.lines.coupled = true then 2 else 1) = n
  split
  · exact h
  · refine settleAfter_at W (W.route rfl (fun l => ?_) h)
    exact { RouteLaw.map (clearRestriction_same n s.route.distance) l with }

/-- What `settleDistance` answers lies within the route's limits (R84, R85). -/
theorem settleDistance_fits (d r : Nat) (t : Int) :
    (settleDistance d r t).1 ≤ Config.maxDistance ∧ (settleDistance d r t).2 < Config.unitsPerDm := by
  unfold settleDistance; dsimp only
  split
  · exact ⟨by decide, by decide⟩
  · split
    · exact ⟨Nat.le_refl _, by decide⟩
    · constructor
      · simp only; omega
      · have : (0 : Int) < (Config.unitsPerDm : Nat) := by decide
        have h2 := Int.emod_lt_of_pos ((d : Int) * (Config.unitsPerDm : Nat) + r + t) this
        have h1 := Int.emod_nonneg ((d : Int) * (Config.unitsPerDm : Nat) + r + t) (Int.ne_of_gt this)
        simp only; omega

end Sys2Proof.Machine
end

