-- ==== Sys2Proof/Laws/JunctionOps.lean ====
section
/-! SUPPORT. The operations of the junction unit keep what a junction walk keeps. -/

namespace Sys2Proof.Machine

variable {P : State → Prop} {s : State}

@[simp] theorem JunctionUnit.setSlot_signalQueue (u : JunctionUnit) (i : SlotId) (x : Slot) :
    (u.setSlot i x).signalQueue = u.signalQueue := by cases i <;> rfl

theorem onSlot_at (W : JunctionWalk P) {i f} (h : At P s) : At P (onSlot i f s) := W.junction (by simp) h

theorem takeUpRoute_at (W : JunctionWalk P) {old} (h : At P s) : At P (takeUpRoute old s) := by
  unfold takeUpRoute; dsimp only
  split
  · split
    · exact h
    · exact W.junction id h
  · split
    · exact refreshSetLength_at W.toRouteWalk h
    · exact refreshSetLength_at W.toRouteWalk (W.junction id h)

theorem judgeRoute_at (W : JunctionWalk P) (h : At P s) : At P (judgeRoute s) := takeUpRoute_at W (W.lock h)

theorem beginTurn_at (W : JunctionWalk P) {r} (h : At P s) : At P (beginTurn r s) := by
  unfold beginTurn; split
  · exact h
  next t entry e =>
    dsimp only
    refine W.junction id ?_
    have h1 : At P (match r.slot? with
      | some i => onSlot i (fun x => { x with waiting := false }) s
      | none => s) := by
      split
      · exact onSlot_at W h
      · exact h
    split
    · exact changeJunction_at W.toRouteWalk (fun _ => ⟨rfl, rfl, rfl, rfl, rfl⟩) h1
    · exact h1

theorem tryGrant_at (W : JunctionWalk P) (h : At P s) : At P (tryGrant s) := by
  unfold tryGrant; split
  · split
    · exact beginTurn_at W (W.junction id h)
    · split
      · exact beginTurn_at W (W.junction id h)
      · exact h
  · exact h

theorem endTurn_at (W : JunctionWalk P) (h : At P s) : At P (endTurn s) := tryGrant_at W (W.junction id h)

theorem raiseRequest_at (W : JunctionWalk P) {i} (h : At P s) : At P (raiseRequest i s) := tryGrant_at W (onSlot_at W h)

theorem startAsking_at (W : JunctionWalk P) {i} (h : At P s) : At P (startAsking i s) := raiseRequest_at W (onSlot_at W h)

theorem startAskingFor_at (W : JunctionWalk P) {tag} (h : At P s) : At P (startAskingFor tag s) := by
  unfold startAskingFor; split
  · exact startAsking_at W h
  · exact h

theorem stopAskingFor_at (W : JunctionWalk P) {tag} (h : At P s) : At P (stopAskingFor tag s) := by
  unfold stopAskingFor; split
  · exact onSlot_at W h
  · exact h

theorem takeSlot_at (W : JunctionWalk P) {tag} (h : At P s) : At P (takeSlot tag s) := by
  unfold takeSlot; split
  · exact h
  · split
    · split
      · exact h
      · dsimp only; split
        · exact startAsking_at W (onSlot_at W h)
        · exact onSlot_at W h
    · exact h

/-- An operation that keeps P, folded over a list, keeps P. -/
theorem foldl_at {α : Type} {f : State → α → State} (hf : ∀ {s} a, At P s → At P (f s a)) (l : List α) (h : At P s) :
    At P (l.foldl f s) := by
  induction l generalizing s with
  | nil => exact h
  | cons a l ih => exact ih (hf a h)

theorem serveWaiting_at (W : JunctionWalk P) (h : At P s) : At P (serveWaiting s) :=
  foldl_at (fun _ h => takeSlot_at W h) _ h

theorem vacate_at (W : JunctionWalk P) {tag x} (h : At P s) : At P (vacate tag x s) := by
  unfold vacate; split
  · exact W.junction id (onSlot_at W h)
  · exact h

theorem judgeJunctionCauses_at (W : HaltWalk P) (h : At P s) : At P (judgeJunctionCauses s) :=
  removeCauses_at W (addCauses_at W h)

theorem judgeWarning_at (W : SoundWalk P) {b} (h : At P s) : At P (judgeWarning b s) := by
  unfold judgeWarning; split
  · exact silencePattern_at W h
  · exact h

theorem enterJunction_at (W : JunctionWalk P) {tag st} (h : At P s) : At P (enterJunction tag st s) :=
  judgeWarning_at W.toSoundWalk (judgeJunctionCauses_at W.toHaltWalk
    (changeJunction_at W.toRouteWalk (fun _ => ⟨rfl, rfl, rfl, rfl, rfl⟩) h))

theorem crossA_at (W : JunctionWalk P) {tag j} (h : At P s) : At P (crossA tag j s) := by
  unfold crossA; split
  · exact formCeiling_at W.toRouteWalk (judgeRoute_at W (takeSlot_at W (enterJunction_at W h)))
  · exact h

theorem crossE_at (W : JunctionWalk P) {tag j} (h : At P s) : At P (crossE tag j s) := by
  unfold crossE; split
  · exact W.raise (askFor_at W.toSoundWalk (enterJunction_at W h))
  · exact h

theorem crossC_at (W : JunctionWalk P) {tag j} (h : At P s) : At P (crossC tag j s) := by
  unfold crossC; split
  · exact formCeiling_at W.toRouteWalk (W.raise (enterJunction_at W (stopAskingFor_at W h)))
  · exact h

theorem crossX_at (W : JunctionWalk P) {tag j} (h : At P s) : At P (crossX tag j s) := by
  unfold crossX; split
  · exact judgeRoute_at W (serveWaiting_at W (vacate_at W (enterJunction_at W h)))
  · exact h

theorem crossJunction_at (W : JunctionWalk P) {tag m j} (h : At P s) : At P (crossJunction tag m j s) := by
  unfold crossJunction; split
  · exact crossA_at W h
  · exact crossE_at W h
  · exact crossC_at W h
  · exact crossX_at W h
  · exact h

/-- The two parts of the signal queue make it up. -/
theorem splitSignals_length (u : JunctionUnit) :
    (splitSignals u).1.length + (splitSignals u).2.length = u.signalQueue.length := by
  unfold splitSignals; split
  · simp; omega
  · simp

/-- A PRIORITY CLEAR that takes a call's place makes the queue no longer. -/
theorem putClear_length {item : SignalItem} {waiting : List SignalItem}
    (h : (waiting.any fun i => i.tag == item.tag && !i.clear) = true) :
    (putClear item waiting).length ≤ waiting.length := by
  unfold putClear; dsimp only
  generalize hp : (fun i : SignalItem => i.tag != item.tag || i.clear) = p
  have hn : waiting.dropWhile p ≠ [] := by
    intro hd
    obtain ⟨x, hx, hc⟩ := List.any_eq_true.1 h
    have := List.dropWhile_eq_nil_iff.1 hd x hx
    subst hp; simp at this hc; simp_all
  have hl := congrArg List.length (List.takeWhile_append_dropWhile (p := p) (l := waiting))
  cases hd : waiting.dropWhile p with
  | nil => exact absurd hd hn
  | cons x l =>
    have hx : p x = false := by
      have := List.head_dropWhile_not p hn
      simpa [hd] using this
    have hf := List.length_filter_le p l
    rw [hd] at hl
    simp [hx] at hl ⊢; omega

theorem offerSignal_at (W : JunctionWalk P) {item} (h : At P s) : At P (offerSignal item s) := by
  have hl := splitSignals_length s.junction
  unfold offerSignal; dsimp only
  split
  · exact h
  · split
    next hc =>
      have := putClear_length (Bool.and_eq_true_iff.1 hc).2
      exact tryGrant_at W (W.junction (by simp; omega) h)
    · split
      next hlt => exact tryGrant_at W (W.junction (by simp; omega) h)
      · split
        · exact W.raise h
        · exact h

theorem crossCallIn_at (W : JunctionWalk P) {tag g} (h : At P s) : At P (crossCallIn tag g s) := by
  unfold crossCallIn; split
  · exact judgeRoute_at W (offerSignal_at W (changeSignal_at W.toRouteWalk (fun _ => ⟨rfl, rfl⟩) h))
  · exact h

theorem crossCallOff_at (W : JunctionWalk P) {tag g} (h : At P s) : At P (crossCallOff tag g s) := by
  unfold crossCallOff; split
  · have h1 := changeSignal_at (tag := tag) (f := fun g => { g with state := .calledOff, timer := none })
      W.toRouteWalk (fun _ => ⟨rfl, rfl⟩) h
    dsimp only; split
    · exact judgeRoute_at W (offerSignal_at W (W.raise h1))
    · exact judgeRoute_at W (offerSignal_at W h1)
  · exact h

theorem crossSignal_at (W : JunctionWalk P) {tag m g} (h : At P s) : At P (crossSignal tag m g s) := by
  unfold crossSignal; split
  · exact crossCallIn_at W h
  · exact crossCallOff_at W h
  · exact h

/-- The empty table is lawful. -/
theorem RouteLaw.emptied {r : RouteEngine} (h : RouteLaw r) : RouteLaw { r with table := [] } where
  distance := h.distance
  residue := h.residue
  room := Nat.zero_le _
  entries := fun _ he => absurd he List.not_mem_nil
  tags := List.nodup_nil
  sorted := List.Pairwise.nil
  inactive := fun _ => rfl

theorem emptyTable_at (W : JunctionWalk P) (h : At P s) : At P (emptyTable s) :=
  W.junction id (W.route rfl RouteLaw.emptied h)

theorem afterEmptying_at (W : JunctionWalk P) {b} (h : At P s) : At P (afterEmptying b s) :=
  judgeInhibit_at W.toRouteWalk (formCeiling_at W.toRouteWalk (judgeRoute_at W
    (judgeWarning_at W.toSoundWalk (judgeJunctionCauses_at W.toHaltWalk h))))

end Sys2Proof.Machine
end

