-- ==== Sys2Proof/Laws/StopOps.lean ====
section
/-! SUPPORT. The operations of the stop-request unit and of the sweep of marks keep what a walk of their level keeps. -/

namespace Sys2Proof.Machine

variable {P : State → Prop} {s : State}

/-! ### Stop entries -/

theorem enterStop_at (R : RouteWalk P) {tag st} (h : At P s) : At P (enterStop tag st s) :=
  changeEntry_at R (Entry.onStop_same fun _ => ⟨rfl, rfl⟩) h

theorem crossApproach_at (W : SoundWalk P) (R : RouteWalk P) {tag p} (h : At P s) : At P (crossApproach tag p s) := by
  unfold crossApproach; split
  · split
    · exact enterStop_at R h
    · exact askFor_at W (enterStop_at R h)
  · exact h

theorem crossPass_at (W : StoreWalk P) (R : RouteWalk P) {tag p} (h : At P s) : At P (crossPass tag p s) := by
  unfold crossPass; split
  · dsimp only; split
    · exact W.raise (enterStop_at R h)
    · exact enterStop_at R h
  · exact h

theorem crossStop_at (W : SoundWalk P) (R : RouteWalk P) {tag m p} (h : At P s) : At P (crossStop tag m p s) := by
  unfold crossStop; split
  · exact crossApproach_at W R h
  · exact crossPass_at W.toStoreWalk R h
  · exact h

theorem bumpCrossed_at (R : RouteWalk P) {tag} (h : At P s) : At P (bumpCrossed tag s) :=
  changeEntry_at R (fun _ => ⟨rfl, rfl, rfl, rfl⟩) h

theorem sweepPassPoints_at (W : StoreWalk P) (R : RouteWalk P) (n : Nat) (h : At P s) : At P (sweepPassPoints n s) := by
  induction n generalizing s with
  | zero => exact h
  | succ n ih =>
    unfold sweepPassPoints; split
    · exact ih (crossPass_at W R (bumpCrossed_at R h))
    · exact h

theorem takeUpStops_at (W : StoreWalk P) (R : RouteWalk P) {old} (h : At P s) : At P (takeUpStops old s) := by
  unfold takeUpStops; split
  · exact h
  · exact settleAfter_at R (sweepPassPoints_at W R _ h)

theorem judgeStops_at (W : StoreWalk P) (R : RouteWalk P) (h : At P s) : At P (judgeStops s) :=
  takeUpStops_at W R (W.lock h)

theorem serveEntry_at (W : StoreWalk P) (R : RouteWalk P) {e} (h : At P s) : At P (serveEntry s e) := by
  unfold serveEntry; split
  · split
    · exact W.raise (enterStop_at R h)
    · exact h
  · exact h

theorem serveStops_at (W : StoreWalk P) (R : RouteWalk P) (h : At P s) : At P (serveStops s) := by
  unfold serveStops; split
  · exact settleAfter_at R (foldl_at (fun _ h => serveEntry_at W R h) _ h)
  · exact h

theorem announceEntry_at (W : SoundWalk P) (R : RouteWalk P) {e} (h : At P s) : At P (announceEntry s e) := by
  unfold announceEntry; split
  · split
    · exact askFor_at W (enterStop_at R h)
    · exact h
  · exact h

/-! ### The latch and the scan -/

theorem setStopLatch_at (W : StopWalk P) {x a} (h : At P s) : At P (setStopLatch x a s) := by
  unfold setStopLatch; dsimp only
  exact judgeStops_at W.toStoreWalk W.toRouteWalk (foldl_at (fun _ h => announceEntry_at W.toSoundWalk W.toRouteWalk h) _
    (W.raise (askFor_at W.toSoundWalk (W.stop h))))

theorem pressWhileLatched_at (W : StopWalk P) {r a} (h : At P s) : At P (pressWhileLatched r a s) := by
  unfold pressWhileLatched; dsimp only; split
  · exact askFor_at W.toSoundWalk (W.stop h)
  · exact W.stop h

theorem trigger_at (W : StopWalk P) {x a} (h : At P s) : At P (trigger x a s) := by
  unfold trigger; split
  · exact h
  · split
    · exact setStopLatch_at W h
    · exact pressWhileLatched_at W h

theorem clearStopLatch_at (W : StopWalk P) (h : At P s) : At P (clearStopLatch s) := by
  unfold clearStopLatch; split
  · exact judgeStops_at W.toStoreWalk W.toRouteWalk (W.stop h)
  · exact h

theorem visitChannel_at (W : StopWalk P) {st rs i} (h : At P s) : At P (visitChannel st rs s i) := by
  unfold visitChannel; split
  · exact h
  · exact h
  next b _ _ =>
    dsimp only
    generalize judgeButton st s.now (kindOf st i) b (rs.getD i 0) = j
    have h0 : At P (s.setStop { s.stop with buttons := s.stop.buttons.set i { j.button with scannedAs := some (kindOf st i) } }) :=
      W.stop h
    have h1 : ∀ t, At P t → At P (if j.faulted = true then raise 13 i (rs.getD i 0 : Nat) t else t) := fun t ht => by
      split
      · exact W.raise ht
      · exact ht
    have h2 : ∀ t, At P t → At P (if j.confirmed = true then
        trigger (.button i) (decide (s.cfg (Setting.accessible i) = 1)) t else t) := fun t ht => by
      split
      · exact trigger_at W ht
      · exact ht
    split
    · exact W.raise (h2 _ (h1 _ h0))
    · exact h2 _ (h1 _ h0)

theorem judgeScanMode_at (W : StopWalk P) {st} (h : At P s) : At P (judgeScanMode st s) := by
  unfold judgeScanMode; dsimp only; split
  · exact W.stop h
  · split <;> exact W.stop h

theorem scanButtons_at (W : StopWalk P) {rs} (h : At P s) : At P (scanButtons rs s) :=
  judgeScanMode_at W (foldl_at (fun _ h => visitChannel_at W h) _ (W.stop h))

/-! ### The sweep, the speed sample's part, the position fix -/

theorem crossMark_at (W : JunctionWalk P) {e} (h : At P s) : At P (crossMark e s) := by
  have hb : At P (bumpCrossed e.tag s) := bumpCrossed_at W.toRouteWalk h
  unfold crossMark; dsimp only; split
  · exact crossJunction_at W hb
  · exact crossSignal_at W hb
  · exact crossStop_at W.toSoundWalk W.toRouteWalk hb
  · exact changeEntry_at W.toRouteWalk (Entry.onRestriction_same fun r => crossRestriction_marks _ r) hb

theorem sweepMarks_at (W : JunctionWalk P) (n : Nat) (h : At P s) : At P (sweepMarks n s) := by
  induction n generalizing s with
  | zero => exact h
  | succ n ih =>
    unfold sweepMarks; split
    · exact ih (crossMark_at W h)
    · exact h

theorem sweep_at (W : JunctionWalk P) (h : At P s) : At P (sweep s) := sweepMarks_at W _ h

theorem endRoute_at (R : RouteWalk P) (h : At P s) : At P (endRoute s) :=
  settleRoute_at R (R.route rfl (RouteLaw.map (clearRestriction_same _ _)) h)

theorem moveTo_at (W : JunctionWalk P) {d r}
    (hd : RouteLaw s.route → d ≤ Config.maxDistance ∧ r < Config.unitsPerDm) (h : At P s) : At P (moveTo d r s) := by
  have h1 : At P (s.setRoute { s.route with distance := d, residue := r }) :=
    W.route rfl (fun l => l.move (hd l).1 (hd l).2) h
  unfold moveTo; dsimp only; split
  · exact sweep_at W h1
  · exact h1

theorem routeSample_at (W : JunctionWalk P) (h : At P s) : At P (routeSample s) := by
  unfold routeSample; dsimp only; split
  · exact endRoute_at W.toRouteWalk (moveTo_at W (fun _ => settleDistance_fits _ _ _) h)
  · exact endRoute_at W.toRouteWalk h

/-- A lawful junction entry's fix lies within the route's limits. -/
theorem RouteLaw.fix_fits {tag f} (l : RouteLaw s.route) (e : ((junctionOf s tag).bind fun j => j.fix) = some f) :
    f ≤ Config.maxDistance := by
  simp only [junctionOf, findEntry, Option.bind_eq_some_iff] at e
  obtain ⟨j, ⟨x, hx, hj⟩, hf⟩ := e
  have law := l.entries x (List.mem_of_find?_eq_some hx)
  unfold Entry.junction? at hj
  split at hj
  next k hk =>
    cases hj
    have ho := law.ordered
    have hm := law.fits j.markC (by simp [hk, EntryBody.given])
    simp [hk, EntryBody.ordered, hf] at ho
    omega
  · cases hj

theorem positionFix_at (W : JunctionWalk P) {tag} (h : At P s) : At P (positionFix tag s) := by
  unfold positionFix; split
  · exact h
  next f e =>
    dsimp only; split
    · exact endRoute_at W.toRouteWalk (moveTo_at W (fun l => ⟨l.fix_fits e, by decide⟩) h)
    · exact W.raise h

end Sys2Proof.Machine
end

