-- ==== Sys2Proof/Laws/AxleOps.lean ====
section
/-! SUPPORT. The operations of the vigilance monitor, of the role and of the axle unit keep what a walk of their level
keeps. -/

namespace Sys2Proof.Machine

variable {P : State → Prop} {s : State}

/-! ### Vigilance -/

theorem vigilTo_at (W : VigilWalk P) {st t} (hv : VigilLaw ⟨st, t⟩) (h : At P s) : At P (vigilTo st t s) := W.vigil hv h

theorem vigilOff_at (W : VigilWalk P) (h : At P s) : At P (vigilTo .off none s) := vigilTo_at W (by simp [VigilLaw]) h

theorem enterHeld_at (W : VigilWalk P) (h : At P s) : At P (enterHeld s) := vigilTo_at W (by simp [VigilLaw]) h

theorem enterReleased_at (W : VigilWalk P) (h : At P s) : At P (enterReleased s) := vigilTo_at W (by simp [VigilLaw]) h

theorem enterWarnReleased_at (W : VigilWalk P) (h : At P s) : At P (enterWarnReleased s) :=
  W.raise (askFor_at W.toSoundWalk (vigilTo_at W (by simp [VigilLaw]) h))

theorem enterWarnHeld_at (W : VigilWalk P) (h : At P s) : At P (enterWarnHeld s) :=
  W.raise (askFor_at W.toSoundWalk (vigilTo_at W (by simp [VigilLaw]) h))

theorem enterTripped_at (W : VigilWalk P) (h : At P s) : At P (enterTripped s) :=
  addCauses_at W.toHaltWalk (vigilTo_at W (by simp [VigilLaw]) h)

theorem judgeVigilance_at (W : VigilWalk P) (h : At P s) : At P (judgeVigilance s) := by
  unfold judgeVigilance; split
  · split
    · split
      · exact enterHeld_at W h
      · exact enterReleased_at W h
    · exact h
  · split
    · exact h
    · exact vigilOff_at W h
    · exact vigilOff_at W h
    · exact silencePattern_at W.toSoundWalk (vigilOff_at W h)
    · exact silencePattern_at W.toSoundWalk (vigilOff_at W h)
    · split
      · exact h
      · exact silencePattern_at W.toSoundWalk (removeCauses_at W.toHaltWalk (vigilOff_at W h))

theorem vigilPressed_at (W : VigilWalk P) (h : At P s) : At P (vigilPressed s) := by
  unfold vigilPressed; split
  · exact h
  · exact h
  · exact enterHeld_at W h
  · exact enterHeld_at W (silencePattern_at W.toSoundWalk h)
  · exact enterHeld_at W (silencePattern_at W.toSoundWalk h)
  · have hc := silencePattern_at (p := 4) W.toSoundWalk (removeCauses_at (cs := [.vigilance]) W.toHaltWalk h)
    dsimp only; split
    · exact enterHeld_at W hc
    · exact vigilOff_at W hc

theorem vigilLifted_at (W : VigilWalk P) (h : At P s) : At P (vigilLifted s) := by
  unfold vigilLifted; split
  · exact enterReleased_at W h
  · exact h

/-! ### The role -/

/-- `releaseControls` leaves the train lines alone. -/
@[simp] theorem releaseControls_lines (s : State) : (releaseControls s).lines = s.lines :=
  releaseControls_at (P := fun t => t.lines = s.lines)
    { StoreWalk.other (fun _ _ h => h) (fun _ _ h => h) with sound := fun _ h => h } rfl

theorem leaveLead_lines (s : State) :
    (leaveLead s).lines = { s.lines with demandDrive := none, tlFwdDrive := false, tlRevDrive := false } := by
  unfold leaveLead; rw [releaseControls_lines]; rfl

theorem leaveLead_at (W : RoleWalk P) (h : At P s) : At P (leaveLead s) :=
  releaseControls_at W.toSoundWalk (W.outputs ⟨rfl, rfl, rfl, rfl⟩ (W.lines rfl (by simp [LineLaw]) h))

theorem leaveTrail_at (W : RoleWalk P) (h : At P s) : At P (leaveTrail s) :=
  tryGrant_at W.toJunctionWalk (removeCauses_at W.toHaltWalk (W.outputs ⟨rfl, rfl, rfl, rfl⟩ h))

theorem enterTrail_at (W : RoleWalk P) (h : At P s) : At P (enterTrail s) := by
  unfold enterTrail; split
  · exact h
  · exact W.junction id h
  · exact W.junction id h

/-- A change of role keeps the lines with the LEAD: a lead that leaves has withdrawn its drives. -/
theorem LineLaw.change {r : Role} {c : Bool} (l : LineLaw s.lines) (hr : ¬(s.lines.role = .lead ∧ r ≠ .lead)) :
    LineLaw { s.lines with role := r, coupled := c } := by
  intro hd
  by_contra hn
  exact hr ⟨l hd, hn⟩

theorem changeRole_at (W : RoleWalk P) {r c} (h : At P s) : At P (changeRole r c s) := by
  have h2 : At P (((if s.lines.role = .lead ∧ r ≠ .lead then leaveLead s else s).setLines
      { (if s.lines.role = .lead ∧ r ≠ .lead then leaveLead s else s).lines with role := r, coupled := c })) := by
    split
    · exact W.role (by rw [leaveLead_lines]; simp [LineLaw]) (leaveLead_at W h)
    next hr => exact W.role (fun l => l.change hr) h
  unfold changeRole; dsimp only
  refine judgeVigilance_at W.toVigilWalk (refreshSetLength_at W.toRouteWalk (W.inhibit (ite_at (fun _ => enterTrail_at W ?_) fun _ => ?_)))
  all_goals exact ite_at (fun _ => leaveTrail_at W (W.ack h2)) fun _ => W.ack h2

theorem sampleRole_at (W : RoleWalk P) (h : At P s) : At P (sampleRole s) := by
  unfold sampleRole; dsimp only; split
  · exact h
  · exact changeRole_at W h

/-! ### The axle unit -/

@[simp] theorem AxleUnit.setChannel_standstill (u : AxleUnit) (i : AxleId) (c : AxleChannel) :
    (u.setChannel i c).standstill = u.standstill := by cases i <;> rfl

@[simp] theorem AxleChannel.judged_state (st : ChannelState) (c : AxleChannel) : (c.judged st).state = st := rfl
@[simp] theorem AxleChannel.judged_shown (st : ChannelState) (c : AxleChannel) :
    (c.judged st).shown = { c.shown with state := st } := rfl
@[simp] theorem AxleChannel.judged_count (st : ChannelState) (c : AxleChannel) : (c.judged st).count = c.count := rfl
@[simp] theorem AxleChannel.judged_speed (st : ChannelState) (c : AxleChannel) : (c.judged st).speed = c.speed := rfl
@[simp] theorem AxleChannel.judged_ring (st : ChannelState) (c : AxleChannel) : (c.judged st).ring = c.ring := rfl
@[simp] theorem AxleChannel.judged_agreement (st : ChannelState) (c : AxleChannel) :
    (c.judged st).agreement = c.agreement := rfl

theorem onChannel_at (W : AxleWalk P) {i f} (h : At P s) : At P (onChannel i f s) := W.axle (by simp) h

theorem takePhaseError_at (W : AxleWalk P) {i} (h : At P s) : At P (takePhaseError i s) := by
  unfold takePhaseError; dsimp only; split
  · exact W.raise (onChannel_at W (onChannel_at W h))
  · exact onChannel_at W h

theorem takeEdge_at (W : AxleWalk P) {i a b} (h : At P s) : At P (takeEdge i a b s) := by
  unfold takeEdge; dsimp only; split
  · exact takePhaseError_at W (onChannel_at W h)
  · exact onChannel_at W h

theorem sampleChannels_at (W : AxleWalk P) (h : At P s) : At P (sampleChannels s) := W.axle rfl h

theorem suspectSlower_at (W : AxleWalk P) (h : At P s) : At P (suspectSlower s) :=
  W.raise (W.axle rfl (onChannel_at W h))

theorem judgeDisagreement_at (W : AxleWalk P) (h : At P s) : At P (judgeDisagreement s) := by
  unfold judgeDisagreement; dsimp only; split
  · split
    · exact suspectSlower_at W h
    · exact W.axle rfl h
  · exact W.axle rfl h

theorem returnToOk_at (W : AxleWalk P) {r} (h : At P s) : At P (returnToOk r s) := onChannel_at W h

theorem judgeAgreement_at (W : AxleWalk P) {r} (h : At P s) : At P (judgeAgreement r s) := by
  unfold judgeAgreement; dsimp only; split
  · split
    · exact returnToOk_at W h
    · exact onChannel_at W h
  · exact onChannel_at W h

theorem reportSource_at (W : AxleWalk P) {b a v} (h : At P s) : At P (reportSource b a v s) := by
  have h1 : At P (if (a.isDegraded && !b.isDegraded) = true then raise 11 a.motor v s else s) := by
    split
    · exact W.raise h
    · exact h
  unfold reportSource; dsimp only; split
  · exact addCauses_at W.toHaltWalk (W.raise h1)
  · split
    · exact removeCauses_at W.toHaltWalk h1
    · exact h1

theorem selectReference_at (W : AxleWalk P) (h : At P s) : At P (selectReference s) := reportSource_at W (W.axle rfl h)


theorem judgeStandstillGroups_at (W : AxleWalk P) (h : At P s) : At P (judgeStandstillGroups s) := by
  have h1 : At P (judgeLock .g6 (!s.axle.standstill) (judgeLock .g1 (!s.axle.standstill)
      (judgeLock .g0 (!s.axle.standstill) s))) := W.lock (W.lock (W.lock h))
  unfold judgeStandstillGroups; dsimp only; split
  · exact h1
  · exact judgeDrive_at W.toHaltWalk h1

theorem setStandstill_at (W : AxleWalk P) (h : At P s) : At P (setStandstill s) :=
  sampleRole_at W.toRoleWalk (judgeStandstillGroups_at W (serveStops_at W.toStoreWalk W.toRouteWalk
    (judgeVigilance_at W.toVigilWalk (removeCauses_at W.toHaltWalk (W.flagged (W.stopped (releaseSand_off s) (W.sand h)))))))

theorem clearStandstill_at (W : AxleWalk P) (h : At P s) : At P (clearStandstill s) :=
  judgeStandstillGroups_at W (judgeVigilance_at W.toVigilWalk (W.ack (W.flagged (W.moving h))))

theorem judgeStandstill_at (W : AxleWalk P) (h : At P s) : At P (judgeStandstill s) := by
  unfold judgeStandstill; split
  · exact h
  · split
    · dsimp only; split
      · exact setStandstill_at W (W.axle rfl h)
      · exact W.axle rfl h
    · dsimp only; split
      · exact clearStandstill_at W (W.axle rfl h)
      · exact W.axle rfl h

theorem stampSample_at (W : AxleWalk P) {a b} (h : At P s) :
    At P (s.setAxle { s.axle with lastSample := a, sampleDue := b }) := W.axle rfl h

theorem speedSample_at (W : AxleWalk P) (h : At P s) : At P (speedSample s) := by
  unfold speedSample; dsimp only
  refine stampSample_at W (routeSample_at W.toJunctionWalk (ite_at (fun _ => sampleRole_at W.toRoleWalk ?_) fun _ => ?_))
  all_goals exact judgeStandstill_at W (judgeAgreement_at W (judgeAgreement_at W (selectReference_at W
    (judgeDisagreement_at W (sampleChannels_at W h)))))

theorem resetChannel_at (W : AxleWalk P) {i} (h : At P s) : At P (resetChannel i s) := by
  unfold resetChannel; dsimp only; split
  · exact onChannel_at W h
  · exact onChannel_at W h
  · exact W.axle rfl (onChannel_at W h)
  · exact W.axle rfl (onChannel_at W h)

end Sys2Proof.Machine
end

