-- ==== Sys2Proof/Laws/ChainOps.lean ====
section
/-! SUPPORT. The adhesion step and the pass of the effort chain keep what a chain walk keeps. -/

namespace Sys2Proof.Machine

variable {P : State → Prop} {s : State}

/-! ### The adhesion step -/

@[simp] theorem Adhesion.setBogie_sand (x : Adhesion) (i : Bogie) (b : BogieState) :
    (x.setBogie i b).sand = x.sand := by cases i <;> rfl

theorem raiseAdhesionFault_at (W : ChainWalk P) {st i x} (h : At P s) : At P (raiseAdhesionFault st i x s) := by
  unfold raiseAdhesionFault; dsimp only; split
  · exact W.raise (W.bogies (by simp) h)
  · exact W.raise (W.free (W.bogies (by simp) h))

theorem stepBogie_at (W : ChainWalk P) {st g i} (h : At P s) : At P (stepBogie st g i s) := by
  unfold stepBogie; dsimp only
  refine ite_at (fun _ => W.bogies (by simp) h) fun _ => ite_at (fun _ => raiseAdhesionFault_at W ?_) fun _ => ?_
  all_goals exact W.bogies (by simp) h

theorem judgeSand_at (W : ChainWalk P) {st} (h : At P s) : At P (judgeSand st s) := by
  unfold judgeSand; split
  · split
    next hw =>
      simp only [sandWanted, Bool.and_eq_true, Bool.not_eq_true'] at hw
      exact W.sandOn hw.1.2 hw.2 h
    · exact h
  · split
    · exact h
    · exact W.sandEnd (fun t => by simp) h
  · exact h

theorem adhesionStep_at (W : ChainWalk P) {st} (h : At P s) : At P (adhesionStep st s) := by
  unfold adhesionStep; dsimp only
  exact W.bogies rfl (judgeSand_at W (W.bogies rfl (stepBogie_at W (stepBogie_at W h))))

/-! ### Opening and stage 1 -/

theorem takeDirection_at (W : ChainWalk P) {st p} (h : At P s) : At P (takeDirection st p s) := by
  unfold takeDirection; dsimp only
  refine ite_at (fun _ => W.inhibit ?_) fun _ => ?_
  all_goals exact W.sense (W.outputs ⟨rfl, rfl, rfl, rfl⟩ h)

theorem judgeDirection_at (W : ChainWalk P) {st} (h : At P s) : At P (judgeDirection st s) := by
  unfold judgeDirection judgeDirectionBy; dsimp only
  refine ite_at (fun _ => W.outputs ⟨rfl, rfl, rfl, rfl⟩ h) fun _ => ite_at (fun _ => h) fun _ =>
    ite_at (fun _ => takeDirection_at W h) fun _ => W.raise (W.outputs ⟨rfl, rfl, rfl, rfl⟩ h)

theorem judgeExit_at (W : ChainWalk P) (h : At P s) : At P (judgeExit s) := by
  unfold judgeExit
  refine ite_at (fun hi => ite_at (fun _ => ?_) fun _ => W.exit hi.1 h) fun _ => h
  unfold enterStartHeld; dsimp only; split
  · exact W.hold hi.1 h
  · exact deliverStart_at W.toHaltWalk (W.lines rfl id (W.hold hi.1 h))

/-- H of a handle code lies in −1000..1000 (R30). -/
theorem handleDemand_fits {c : Nat} {h : Int} {e : Bool} (hd : handleDemand c = some (h, e)) : -1000 ≤ h ∧ h ≤ 1000 := by
  unfold handleDemand at hd
  split at hd
  · cases hd; decide
  · split at hd
    · cases hd
      have : (104 - c) * 1000 / 96 ≤ 1000 := by omega
      omega
    · split at hd
      · cases hd; decide
      · split at hd
        · cases hd
          have : (c - 151) * 1000 / 96 ≤ 1000 := by omega
          omega
        · cases hd

theorem demandOf_fits (u : Nat) : -1000 ≤ demandOf u ∧ demandOf u ≤ 1000 := by
  unfold demandOf clampInt; omega

theorem raiseHandleFault_at (W : ChainWalk P) (h : At P s) : At P (raiseHandleFault s) :=
  W.raise (W.outputs ⟨rfl, rfl, rfl, rfl⟩ h)

theorem readInvalid_at (W : ChainWalk P) (h : At P s) : At P (readInvalid s).1 := by
  unfold readInvalid; dsimp only
  refine ite_at (fun _ => raiseHandleFault_at W ?_) fun _ => ?_
  all_goals exact W.outputs ⟨rfl, rfl, rfl, rfl⟩ h

theorem readHandle_at (W : ChainWalk P) (h : At P s) : At P (readHandle s).1 := by
  unfold readHandle; split
  next hd => exact W.handle rfl rfl rfl (handleDemand_fits hd) h
  · exact readInvalid_at W h

theorem loseDemand_at (W : HaltWalk P) (h : At P s) : At P (loseDemand s) := W.raise (addCauses_at W h)

theorem readDemand_at (W : HaltWalk P) (h : At P s) : At P (readDemand s).1 := by
  unfold readDemand; split
  · exact removeCauses_at W (W.outputs ⟨rfl, rfl, rfl, rfl⟩ h)
  · dsimp only
    refine ite_at (fun _ => loseDemand_at W ?_) fun _ => ?_
    all_goals exact W.outputs ⟨rfl, rfl, rfl, rfl⟩ h

theorem noEmergency_at (W : HaltWalk P) (h : At P s) : At P (noEmergency s) := W.outputs ⟨rfl, rfl, rfl, rfl⟩ h

theorem readDemandOf_at (W : ChainWalk P) (h : At P s) : At P (readDemandOf s).1 := by
  unfold readDemandOf; split
  · exact readHandle_at W h
  · exact readDemand_at W.toHaltWalk (noEmergency_at W.toHaltWalk h)
  · exact noEmergency_at W.toHaltWalk h

/-- The stage-1 demand lies in −1000..1000, as the last valid H does. -/
theorem readDemandOf_fits (h : RangeLaw s.traction) : -1000 ≤ (readDemandOf s).2 ∧ (readDemandOf s).2 ≤ 1000 := by
  unfold readDemandOf; split
  · unfold readHandle; split
    next hd => exact handleDemand_fits hd
    · unfold readInvalid; dsimp only; split
      · exact h.lastH
      · decide
  · unfold readDemand; split
    · exact demandOf_fits _
    · simp
  · simp

theorem acknowledge_at (W : ReleaseWalk P) {x} (h : At P s) : At P (acknowledge x s) := by
  unfold acknowledge
  refine ite_at (fun hc => ?_) fun _ => W.ack h
  have hn : s.halt.causes.any = false := by
    revert hc; cases s.halt.causes.any <;> simp
  exact ite_at (fun _ => releaseLatch_at W hn h) fun _ => W.ack h

theorem judgeEmission_at (W : HaltWalk P) {x} (h : At P s) : At P (judgeEmission x s) := by
  unfold judgeEmission; dsimp only
  split
  · exact W.lines rfl id (startPulse_at W (W.lines rfl id h))
  · exact W.lines rfl id h

/-! ### The pass -/

theorem driveTrainLines_at (W : HaltWalk P) {x} (h : At P s) : At P (driveTrainLines x s) := by
  unfold driveTrainLines
  exact ite_at (fun hr => W.lines rfl (fun _ _ => hr) h) fun _ => h

theorem writeOutputs_at (W : HaltWalk P) {x} (h : At P s) : At P (writeOutputs x s) := by
  have h1 := shareEffort_at W h
  unfold writeOutputs; dsimp only
  refine driveTrainLines_at W (W.outputs ?_ h1)
  obtain ⟨a, b, c, d⟩ := writeLines_keeps (shareEffort s).traction
  exact ⟨a, b, c, d⟩

theorem stampPass_at (W : HaltWalk P) {n} (h : At P s) : At P (s.setTraction { s.traction with passDue := n }) :=
  W.outputs ⟨rfl, rfl, rfl, rfl⟩ h

theorem takeLimits_at (W : HaltWalk P) (h : At P s) : At P (takeLimits s) := W.outputs ⟨rfl, rfl, rfl, rfl⟩ h

theorem effortPass_at (W : ChainWalk P) (h : At P s) : At P (effortPass s) := by
  have h1 : At P (judgeExit (judgeDirection s.settings (takeLimits s))) :=
    judgeExit_at W (judgeDirection_at W (takeLimits_at W.toHaltWalk h))
  unfold effortPass stageOne laterStages; dsimp only
  refine stampPass_at W.toHaltWalk (writeOutputs_at W.toHaltWalk (adhesionStep_at W ?_))
  exact W.move h h1 (fun r => readDemandOf_fits r)
    (judgeEmission_at W.toHaltWalk (acknowledge_at W.toReleaseWalk (readDemandOf_at W h1)))

end Sys2Proof.Machine
end

