-- ==== Sys2Proof/Laws/Requests.lean ====
section
/-! SUPPORT. The requests of the host, the resets and the host link's working keep what a whole walk keeps. -/

namespace Sys2Proof.Machine

variable {P : State → Prop} {s : State}

/-! ### Settings -/

theorem mem_listSet {n : Nat} {v : Int} {l : List (Nat × Int)} {p : Nat × Int} (h : p ∈ listSet n v l) :
    p = (n, v) ∨ p ∈ l := by
  induction l with
  | nil => simpa [listSet] using h
  | cons a l ih =>
    unfold listSet at h
    split at h
    · simpa using h
    · split at h
      · simp only [List.mem_cons] at h ⊢; tauto
      · simp only [List.mem_cons] at h ⊢
        rcases h with h | h
        · exact .inr (.inl h)
        · rcases ih h with h | h <;> tauto

theorem SettingsLaw.setEffective {st : SettingsStore} {n : Nat} {v : Int} (hv : settingAllows n v = true)
    (h : SettingsLaw st) : SettingsLaw { st with effective := listSet n v st.effective } where
  effective := fun p hp => by
    rcases mem_listSet hp with rfl | hp
    · exact hv
    · exact h.effective p hp
  pending := h.pending
  held := h.held

theorem SettingsLaw.setPending {st : SettingsStore} {n : Nat} {v : Int} {g : Group} (hv : settingAllows n v = true)
    (hg : groupOf n = some g) (hl : st.locked.get g = true) (h : SettingsLaw st) :
    SettingsLaw { st with pending := listSet n v st.pending } where
  effective := h.effective
  pending := fun p hp => by
    rcases mem_listSet hp with rfl | hp
    · exact hv
    · exact h.pending p hp
  held := fun p hp => by
    rcases mem_listSet hp with rfl | hp
    · simpa [heldBack, hg] using hl
    · exact h.held p hp

theorem takeUp_at (W : WholeWalk P) {g old} (h : At P s) : At P (takeUp g old s) := by
  unfold takeUp; split
  · exact h
  · exact h
  · exact h
  · exact takeUpRoute_at W.toJunctionWalk h
  · exact takeUpStops_at W.toStoreWalk W.toRouteWalk h
  · exact h
  · exact ite_at (fun _ => h) fun _ => judgeDrive_at W.toHaltWalk h

theorem setFreeze_at (W : WholeWalk P) {g b} (h : At P s) : At P (setFreeze g b s) :=
  takeUp_at W (W.lock (W.settings (fun l => ⟨l.effective, l.pending, l.held⟩) h))

theorem takeValue_at (W : WholeWalk P) {g n v} (hg : groupOf n = some g) (hv : settingAllows n v = true) (h : At P s) :
    At P (takeValue g n v s) := by
  unfold takeValue; split
  next hl => exact W.settings (SettingsLaw.setPending hv hg hl) h
  · exact takeUp_at W (W.settings (SettingsLaw.setEffective hv) h)

theorem doSet_at (W : WholeWalk P) {n v} (h : At P s) : At P (doSet n v s).1 := by
  unfold doSet; split
  · exact h
  next g hg =>
    split
    next hv => exact takeValue_at W hg hv h
    · exact h

theorem doFreeze_at (W : WholeWalk P) {g} (h : At P s) : At P (doFreeze g s).1 := by
  unfold doFreeze; split
  · exact h
  · exact setFreeze_at W h

theorem doThaw_at (W : WholeWalk P) {g} (h : At P s) : At P (doThaw g s).1 := by
  unfold doThaw; split
  · exact h
  · exact setFreeze_at W h

/-! ### The route table -/

theorem RouteLaw.started {r : RouteEngine} {o : Nat} (ho : o ≤ Config.maxOrigin) (h : RouteLaw r) :
    RouteLaw { r with active := true, distance := o, residue := 0 } :=
  { h with
    distance := Nat.le_trans ho (by decide)
    residue := show 0 < Config.unitsPerDm by decide
    inactive := fun ha => by simp at ha }

theorem doRouteStart_at (W : WholeWalk P) {o} (h : At P s) : At P (doRouteStart o s).1 := by
  unfold doRouteStart; split
  · exact h
  next ho =>
    split
    · exact h
    · split
      · exact h
      · exact judgeInhibit_at W.toRouteWalk (formCeiling_at W.toRouteWalk
          (W.route rfl (fun l => l.started (by omega)) h))

theorem RouteLaw.ended {r : RouteEngine} (ht : r.table = []) (h : RouteLaw r) :
    RouteLaw { r with active := false, residue := 0 } :=
  { h with residue := show 0 < Config.unitsPerDm by decide, inactive := fun _ => ht }

theorem endJourney_at (W : WholeWalk P) (h : At P s) : At P (endJourney s) :=
  afterEmptying_at W.toJunctionWalk (W.route rfl (RouteLaw.ended rfl) (emptyTable_at W.toJunctionWalk h))

theorem doRouteEnd_at (W : WholeWalk P) (h : At P s) : At P (doRouteEnd s).1 := by
  unfold doRouteEnd; split
  · exact h
  · exact ite_at (fun _ => endJourney_at W h) fun _ => h

theorem mem_insertEntry {e x : Entry} {l : List Entry} : x ∈ insertEntry e l ↔ x = e ∨ x ∈ l := by
  induction l with
  | nil => simp [insertEntry]
  | cons a l ih =>
    unfold insertEntry; split
    · simp only [List.mem_cons, ih]; tauto
    · simp only [List.mem_cons]

theorem insertEntry_length (e : Entry) (l : List Entry) : (insertEntry e l).length = l.length + 1 := by
  induction l with
  | nil => rfl
  | cons a l ih => unfold insertEntry; split <;> simp [ih]

theorem insertEntry_tags {e : Entry} {l : List Entry} (hl : (l.map (·.tag)).Nodup) (he : e.tag ∉ l.map (·.tag)) :
    ((insertEntry e l).map (·.tag)).Nodup := by
  induction l with
  | nil => simp [insertEntry]
  | cons a l ih =>
    simp only [List.map_cons, List.nodup_cons, List.mem_cons, not_or] at hl he
    unfold insertEntry; split
    · simp only [List.map_cons, List.nodup_cons]
      refine ⟨?_, ih hl.2 he.2⟩
      simp only [List.mem_map, mem_insertEntry, not_exists, not_and]
      rintro x (rfl | hx) ht
      · exact he.1 ht
      · exact hl.1 (List.mem_map.2 ⟨x, hx, ht⟩)
    · simp only [List.map_cons, List.nodup_cons, List.mem_cons, not_or]
      exact ⟨⟨he.1, he.2⟩, hl.1, hl.2⟩

theorem insertEntry_sorted {e : Entry} {l : List Entry} (hl : l.Pairwise fun a b => a.body.key ≤ b.body.key) :
    (insertEntry e l).Pairwise fun a b => a.body.key ≤ b.body.key := by
  induction l with
  | nil => simp [insertEntry]
  | cons a l ih =>
    obtain ⟨ha, hl'⟩ := List.pairwise_cons.1 hl
    unfold insertEntry; split
    next hk =>
      refine List.pairwise_cons.2 ⟨fun b hb => ?_, ih hl'⟩
      rcases mem_insertEntry.1 hb with rfl | hb
      · exact hk
      · exact ha b hb
    next hk =>
      refine List.pairwise_cons.2 ⟨fun b hb => ?_, hl⟩
      rcases List.mem_cons.1 hb with rfl | hb
      · omega
      · have := ha b hb; omega

theorem findEntry_none {tag : Nat} {l : List Entry} (h : (findEntry tag l).isSome = false) :
    tag ∉ l.map (·.tag) := by
  simp only [findEntry, List.find?_isSome, Bool.eq_false_iff, ne_eq, not_exists, not_and] at h
  simp only [List.mem_map, not_exists, not_and]
  intro x hx ht
  exact h x hx (by simp [ht])

/-- An offered record with its fields in range has a tag and marks within the route's limits (R87, R90). -/
theorem bodyOf_fits {r : EntryRecord} {b : EntryBody} (h : bodyOf r = some b) :
    r.tag ≠ 0 ∧ ∀ m ∈ b.given, m ≤ Config.maxDistance := by
  unfold bodyOf at h
  split at h
  · cases h
  next h0 =>
    simp only [not_or, markFits, Bool.not_eq_false, Bool.and_eq_true, decide_eq_true_eq] at h0
    refine ⟨h0.1, ?_⟩
    split at h
    · split at h
      · cases h
      · split at h
        · cases h
        next h1 =>
          simp only [not_or, markFits, Bool.not_eq_false, Bool.and_eq_true, decide_eq_true_eq] at h1
          cases h; simp [EntryBody.given]; omega
    · split at h
      · cases h
      · cases h; simp [EntryBody.given]; omega
    · split at h
      · cases h
      · cases h; simp [EntryBody.given]; omega
    · split at h
      · cases h
      · cases h; simp [EntryBody.given]; omega
    · cases h

theorem RouteLaw.insert {r : RouteEngine} {e : Entry} (he : EntryLaw e) (hf : (findEntry e.tag r.table).isSome = false)
    (hr : r.table.length < Config.maxEntries) (ha : r.active = true) (h : RouteLaw r) :
    RouteLaw { r with table := insertEntry e r.table } where
  distance := h.distance
  residue := h.residue
  room := by rw [insertEntry_length]; exact hr
  entries := fun x hx => by
    rcases mem_insertEntry.1 hx with rfl | hx
    · exact he
    · exact h.entries x hx
  tags := insertEntry_tags h.tags (findEntry_none hf)
  sorted := insertEntry_sorted h.sorted
  inactive := fun hi => by simp [ha] at hi

theorem doRouteInsert_at (W : WholeWalk P) {r} (h : At P s) : At P (doRouteInsert r s).1 := by
  unfold doRouteInsert; split
  · exact h
  next ha =>
    split
    · exact h
    next body hb =>
      split
      · exact h
      next hn =>
        split
        · exact h
        next hf =>
          split
          · exact h
          next ho =>
            split
            · exact h
            · split
              · exact h
              · refine judgeInhibit_at W.toRouteWalk (formCeiling_at W.toRouteWalk (W.route rfl (fun l => ?_) h))
                exact l.insert ⟨(bodyOf_fits hb).1, by simpa using ho, (bodyOf_fits hb).2⟩ (by simpa using hf) (by omega)
                  (by simpa using ha)

theorem dropEntry_at (W : WholeWalk P) {tag} (h : At P s) : At P (dropEntry tag s) :=
  judgeInhibit_at W.toRouteWalk (formCeiling_at W.toRouteWalk (W.route rfl RouteLaw.filter h))

theorem doRouteRemove_at (W : WholeWalk P) {tag} (h : At P s) : At P (doRouteRemove tag s).1 := by
  unfold doRouteRemove; split
  · exact h
  · split
    · exact h
    · split
      · exact dropEntry_at W h
      · exact h

theorem readAt_at {i} (h : At P s) : At P (readAt i s).1 := by
  unfold readAt; split <;> exact h

theorem doRouteRead_at {a b} (h : At P s) : At P (doRouteRead a b s).1 := by
  unfold doRouteRead; split
  · exact readAt_at h
  · split
    · exact h
    · exact readAt_at h
  · exact h

/-! ### Junctions, halts, stop requests, sounds, axles -/

theorem releaseSlot_at (W : JunctionWalk P) {tag j} (h : At P s) : At P (releaseSlot tag j s) := by
  unfold releaseSlot; split
  · exact h
  · split
    · exact tryGrant_at W (W.junction id (vacate_at W h))
    · exact serveWaiting_at W (vacate_at W h)

theorem cancelJunction_at (W : JunctionWalk P) {tag n j} (h : At P s) : At P (cancelJunction tag n j s) := by
  unfold cancelJunction; dsimp only
  refine settleRoute_at W.toRouteWalk (judgeRoute_at W (releaseSlot_at W (enterJunction_at W (stopAskingFor_at W ?_))))
  exact ite_at (fun _ => addCauses_at W.toHaltWalk h) fun _ => h

theorem doJunctionCancel_at (W : WholeWalk P) {tag} (h : At P s) : At P (doJunctionCancel tag s).1 := by
  unfold doJunctionCancel; split
  · exact h
  · split
    · exact h
    next e j _ =>
      have hc : At P (cancelJunction e.tag e.crossed j s) := cancelJunction_at W.toJunctionWalk h
      unfold cancelEntry; split
      · exact h
      · split
        · exact dropEntry_at W h
        · exact h
        · exact hc
        · exact hc
        · exact hc
        · exact hc
        · exact h
        · exact h

theorem doJunctionRetry_at (W : WholeWalk P) {tag} (h : At P s) : At P (doJunctionRetry tag s).1 := by
  unfold doJunctionRetry; split
  · exact h
  · split
    · exact h
    · split
      · exact h
      · split
        · exact formCeiling_at W.toRouteWalk (startAskingFor_at W.toJunctionWalk (enterJunction_at W.toJunctionWalk
            (changeJunction_at W.toRouteWalk (fun _ => ⟨rfl, rfl, rfl, rfl, rfl⟩) h)))
        · exact h

theorem doMask_at (W : JunctionWalk P) {n} (h : At P s) : At P (doMask n s).1 := by
  unfold doMask; split
  · exact h
  · exact W.junction id h

theorem doUnmask_at (W : JunctionWalk P) {n} (h : At P s) : At P (doUnmask n s).1 := by
  unfold doUnmask; split
  · exact h
  · exact tryGrant_at W (W.junction id h)

theorem doLoopReset_at (W : JunctionWalk P) (h : At P s) : At P (doLoopReset s).1 := by
  unfold doLoopReset; split
  · exact h
  · split
    · exact tryGrant_at W (W.junction id h)
    · exact h

theorem doStopRequest_at (W : StopWalk P) {a} (h : At P s) : At P (doStopRequest a s).1 := by
  unfold doStopRequest; split
  · exact h
  · split
    · exact h
    · exact trigger_at W h

theorem doButtonRead_at {i} (h : At P s) : At P (doButtonRead i s).1 := by
  unfold doButtonRead; split <;> exact h

theorem doPlay_at (W : SoundWalk P) {p} (h : At P s) : At P (doPlay p s).1 := by
  unfold doPlay; split
  · exact h
  · split
    · exact h
    · dsimp only; split
      · exact h
      · exact requestPattern_at W h

theorem doSilence_at (W : SoundWalk P) {p} (h : At P s) : At P (doSilence p s).1 := by
  unfold doSilence; split
  · exact silenceAll_at W h
  · split
    · exact h
    · exact silencePattern_at W h

theorem doPatternLoad_at (W : SoundWalk P) {r} (h : At P s) : At P (doPatternLoad r s).1 := by
  have hr : ∀ p, At P (replacePattern r.number p s).1 := fun p => by
    unfold replacePattern; split
    · exact h
    · exact W.sound id h
  unfold doPatternLoad; split
  · exact h
  · split
    · exact h
    · split
      · exact hr _
      · split
        · exact h
        · exact hr _

theorem doAxleRead_at {i} (h : At P s) : At P (doAxleRead i s).1 := by
  unfold doAxleRead; split <;> exact h

theorem doAxleReset_at (W : AxleWalk P) {i} (h : At P s) : At P (doAxleReset i s).1 := by
  unfold doAxleReset; split
  · exact h
  · split
    · dsimp only [taken]
      exact resetChannel_at W (resetChannel_at W (resetChannel_at W (resetChannel_at W h)))
    · split
      · exact h
      · exact resetChannel_at W h

theorem doGet_at {n} (h : At P s) : At P (doGet n s).1 := by
  unfold doGet; split <;> exact h

theorem doEvents_at (W : WholeWalk P) {n} (h : At P s) : At P (doEvents n s).1 := by
  unfold doEvents; split
  · exact h
  · exact W.events h

/-! ### Resets -/

theorem enterLoopFault_at (W : JunctionWalk P) (h : At P s) : At P (enterLoopFault s) := W.raise (W.junction id h)

theorem endReset_at (W : RoleWalk P) (h : At P s) : At P (endReset s) := by
  unfold endReset; dsimp only
  refine ite_at (fun _ => ?_) fun _ => enterLoopFault_at W.toJunctionWalk ?_
  all_goals exact senseHalt_at W.toHaltWalk (sampleRole_at W h)

theorem powerUp_at (W : WholeWalk P) (h : At P s) : At P (powerUp s) :=
  endReset_at W.toRoleWalk (W.fresh (W.blocks (W.clock h)))

theorem restartFull_at (W : WholeWalk P) (h : At P s) : At P (restartFull s) :=
  endReset_at W.toRoleWalk (W.restarted (W.blocks h))

theorem RouteLaw.journey {r : RouteEngine} (h : RouteLaw r) : RouteLaw r.journey :=
  { h.emptied with distance := Nat.zero_le _, residue := show 0 < Config.unitsPerDm by decide, inactive := fun _ => rfl }

theorem restartJourney_at (W : WholeWalk P) (h : At P s) : At P (restartJourney s) := by
  unfold restartJourney; dsimp only
  refine W.stop (clearStopLatch_at W.toStopWalk (afterEmptying_at W.toJunctionWalk (W.raise (W.link rfl rfl id ?_))))
  exact W.junction (fun _ => Nat.zero_le _) (W.route rfl RouteLaw.journey h)

theorem doRestart_at (W : WholeWalk P) {a} (h : At P s) : At P (doRestart a s).1 := by
  unfold doRestart; split
  · exact h
  · split
    · exact h
    · split
      · exact restartJourney_at W h
      · split
        · exact h
        · exact restartFull_at W h

/-! ### Any request, and the link -/

/-- Every request keeps what a whole walk keeps. -/
theorem perform_at (W : WholeWalk P) {r} (h : At P s) : At P (perform r s).1 := by
  cases r
  case ident => exact h
  case status => exact h
  case events => exact doEvents_at W h
  case set => exact doSet_at W h
  case get => exact doGet_at h
  case freeze => exact doFreeze_at W h
  case thaw => exact doThaw_at W h
  case routeStart => exact doRouteStart_at W h
  case routeInsert => exact doRouteInsert_at W h
  case routeRemove => exact doRouteRemove_at W h
  case routeRead => exact doRouteRead_at h
  case routeEnd => exact doRouteEnd_at W h
  case junctionCancel => exact doJunctionCancel_at W h
  case junctionRetry => exact doJunctionRetry_at W h
  case mask => exact doMask_at W.toJunctionWalk h
  case unmask => exact doUnmask_at W.toJunctionWalk h
  case loopReset => exact doLoopReset_at W.toJunctionWalk h
  case halt => exact addCauses_at W.toHaltWalk h
  case resume => exact removeCauses_at W.toHaltWalk h
  case stopRequest => exact doStopRequest_at W.toStopWalk h
  case stopClear => exact clearStopLatch_at W.toStopWalk h
  case play => exact doPlay_at W.toSoundWalk h
  case silence => exact doSilence_at W.toSoundWalk h
  case patternLoad => exact doPatternLoad_at W.toSoundWalk h
  case axleRead => exact doAxleRead_at h
  case axleReset => exact doAxleReset_at W.toAxleWalk h
  case buttonRead => exact doButtonRead_at h
  case restart => exact doRestart_at W h
  case unknownKind => exact h
  case badLength => exact h

theorem executeHead_at (W : WholeWalk P) (h : At P s) : At P (executeHead s) := by
  unfold executeHead; split
  · exact h
  · exact W.link rfl rfl id (perform_at W h)

theorem pump_at (W : WholeWalk P) (h : At P s) : At P (pump s) := ite_at (fun _ => executeHead_at W h) fun _ => h

theorem submit_at (W : WholeWalk P) {tag r} (h : At P s) : At P (submit tag r s) := by
  unfold submit; split
  next hn => exact pump_at W (W.link rfl rfl (fun _ => by simp; omega) h)
  · split
    · exact W.link rfl rfl id h
    · exact W.link rfl rfl id h
    · exact h

theorem lineFreed_at (W : WholeWalk P) (h : At P s) : At P (lineFreed s) := by
  unfold lineFreed; split
  · exact W.link rfl rfl id h
  · exact pump_at W h

theorem endReply_at (W : WholeWalk P) (h : At P s) : At P (endReply s) := by
  unfold endReply; split
  · exact h
  · exact lineFreed_at W (W.link rfl rfl id h)
  · exact lineFreed_at W (W.link rfl rfl (fun hq => by simp; omega) h)

theorem hunt_at (W : WholeWalk P) {b} (h : At P s) : At P (hunt b s) :=
  ite_at (fun _ => W.link rfl rfl id h) fun _ => h

theorem receive_at (W : WholeWalk P) {b f} (h : At P s) : At P (receive b f s) := by
  unfold receive; split
  · exact W.link rfl rfl id h
  · split
    · exact hunt_at W h
    · split
      · exact hunt_at W (W.link rfl rfl id h)
      unfold collect; split
      · exact W.link rfl rfl id h
      · split
        · unfold frameEnds; dsimp only
          refine ite_at (fun _ => submit_at W ?_) fun _ => ?_
          all_goals exact W.link rfl rfl id h
        · exact W.link rfl rfl id h

theorem abandonFrame_at (W : WholeWalk P) (h : At P s) : At P (abandonFrame s) := by
  unfold abandonFrame; split
  · exact h
  · exact W.link rfl rfl id (W.clock h)

end Sys2Proof.Machine
end

