-- ==== Sys2Proof/Laws/Commands.lean ====
section
/-! SUPPORT. What each command can do: its next state keeps what a walk of its level keeps. The level says which blocks the
command may write; a property of the other blocks is its frame. -/

namespace Sys2Proof.Machine

variable {P : State → Prop} {s t : State}

/-- The next state of an outcome keeps P. -/
def Keeps (P : State → Prop) (r : Result) : Prop := ∀ t, r = .next t → At P t

theorem keeps_next (h : At P t) : Keeps P (.next t) := fun u e => by cases e; exact h

theorem reach_at (O : OuterWalk P) {n} (h : At P s) : At P (s.reach n) := O.clock h

theorem atExpiry_at (O : OuterWalk P) {x f} (hf : ∀ {s}, At P s → At P (f s)) (h : At P s) : At P (atExpiry x f s) := by
  unfold atExpiry; split
  · exact h
  · exact hf (O.clock h)

/-! ### Axle unit -/

theorem execEncoderEdge_keeps (W : AxleWalk P) {c a b} (h : At P s) : Keeps P (execEncoderEdge c a b s) :=
  keeps_next (ite_at (fun _ => h) fun _ => takeEdge_at W h)

theorem execPhaseErrorWindowExpiry_keeps (W : AxleWalk P) (O : OuterWalk P) {c} (h : At P s) :
    Keeps P (execPhaseErrorWindowExpiry c s) := keeps_next (atExpiry_at O (fun h => onChannel_at W h) h)

theorem execSpeedSample_keeps (W : AxleWalk P) (O : OuterWalk P) (h : At P s) : Keeps P (execSpeedSample s) :=
  keeps_next (speedSample_at W (reach_at O h))

theorem execAxleSuspect_keeps (W : AxleWalk P) (O : OuterWalk P) (h : At P s) : Keeps P (execAxleSuspect s) :=
  keeps_next (atExpiry_at O (fun h => W.axle rfl (suspectSlower_at W h)) h)

theorem execAgreementRunComplete_keeps (W : AxleWalk P) (O : OuterWalk P) {c} (h : At P s) :
    Keeps P (execAgreementRunComplete c s) := keeps_next (atExpiry_at O (fun h => returnToOk_at W h) h)

theorem execStandstillSet_keeps (W : AxleWalk P) (O : OuterWalk P) (h : At P s) : Keeps P (execStandstillSet s) :=
  keeps_next (atExpiry_at O (fun h => setStandstill_at W (W.axle rfl h)) h)

/-! ### Traction unit and doors -/

theorem execControlPeriod_keeps (W : ChainWalk P) (O : OuterWalk P) {i} (h : At P s) : Keeps P (execControlPeriod i s) :=
  keeps_next (effortPass_at W (O.pins (reach_at O h)))

theorem execDirectionSettleExpiry_keeps (W : HaltWalk P) (O : OuterWalk P) (h : At P s) :
    Keeps P (execDirectionSettleExpiry s) := keeps_next (atExpiry_at O (fun h => W.outputs ⟨rfl, rfl, rfl, rfl⟩ h) h)

theorem execHandleHoldExpiry_keeps (W : HaltWalk P) (O : OuterWalk P) (h : At P s) : Keeps P (execHandleHoldExpiry s) :=
  keeps_next (atExpiry_at O (fun h => W.lines rfl id (noEmergency_at W h)) h)

theorem execHandleFault_keeps (W : ChainWalk P) (O : OuterWalk P) (h : At P s) : Keeps P (execHandleFault s) :=
  keeps_next (ite_at (fun _ => h) fun _ => atExpiry_at O (fun h => raiseHandleFault_at W h) h)

theorem execDemandLost_keeps (W : HaltWalk P) (O : OuterWalk P) (h : At P s) : Keeps P (execDemandLost s) :=
  keeps_next (atExpiry_at O (fun h => loseDemand_at W h) h)

theorem openDoors_at (H : HaltWalk P) (W : StopWalk P) (O : OuterWalk P) (h : At P s) : At P (openDoors s) :=
  clearStopLatch_at W (serveStops_at W.toStoreWalk W.toRouteWalk (H.inhibit (O.pins h)))

theorem execDoorReleaseAsserted_keeps (H : HaltWalk P) (W : StopWalk P) (O : OuterWalk P) (h : At P s) :
    Keeps P (execDoorReleaseAsserted s) := keeps_next (ite_at (fun _ => h) fun _ => openDoors_at H W O h)

theorem execDoorReleaseReleased_keeps (O : OuterWalk P) (h : At P s) : Keeps P (execDoorReleaseReleased s) :=
  keeps_next (O.pins h)

/-! ### Adhesion section -/

theorem execAdhesionFault_keeps (W : ChainWalk P) (O : OuterWalk P) {i} (h : At P s) : Keeps P (execAdhesionFault i s) :=
  keeps_next (atExpiry_at O (fun h => raiseAdhesionFault_at W h) h)

theorem execSandRunExpiry_keeps (W : ChainWalk P) (O : OuterWalk P) (h : At P s) : Keeps P (execSandRunExpiry s) :=
  keeps_next (atExpiry_at O (fun h => W.sandEnd (fun t => by simp) h) h)

theorem execSandRestExpiry_keeps (W : ChainWalk P) (O : OuterWalk P) (h : At P s) : Keeps P (execSandRestExpiry s) :=
  keeps_next (atExpiry_at O (fun h => W.sandEnd (fun t => by simp) h) h)

/-! ### Halts, vigilance, train lines -/

theorem execHaltReleased_keeps (W : ReleaseWalk P) (O : OuterWalk P) (h : At P s) : Keeps P (execHaltReleased s) := by
  refine keeps_next ?_
  unfold atExpiry; split
  · exact h
  next n e =>
    unfold releaseAt at e
    split at e
    next hc =>
      refine releaseLatch_at W ?_ (O.clock h)
      simp only [Bool.and_eq_true, Bool.not_eq_true'] at hc
      exact hc.2
    · cases e

theorem execVigilPress_keeps (W : VigilWalk P) (O : OuterWalk P) (h : At P s) : Keeps P (execVigilPress s) :=
  keeps_next (ite_at (fun _ => h) fun _ => vigilPressed_at W (O.pins h))

theorem execVigilRelease_keeps (W : VigilWalk P) (O : OuterWalk P) (h : At P s) : Keeps P (execVigilRelease s) :=
  keeps_next (ite_at (fun _ => vigilLifted_at W (O.pins h)) fun _ => h)

theorem execHoldLimitExpiry_keeps (W : VigilWalk P) (O : OuterWalk P) (h : At P s) : Keeps P (execHoldLimitExpiry s) :=
  keeps_next (atExpiry_at O (fun h => enterWarnHeld_at W h) h)

theorem execGraceExpiry_keeps (W : VigilWalk P) (O : OuterWalk P) (h : At P s) : Keeps P (execGraceExpiry s) :=
  keeps_next (atExpiry_at O (fun h => enterWarnReleased_at W h) h)

theorem execWarnToHaltExpiry_keeps (W : VigilWalk P) (O : OuterWalk P) (h : At P s) : Keeps P (execWarnToHaltExpiry s) :=
  keeps_next (atExpiry_at O (fun h => enterTripped_at W h) h)

theorem execRepressWindowExpiry_keeps (W : VigilWalk P) (O : OuterWalk P) (h : At P s) :
    Keeps P (execRepressWindowExpiry s) := keeps_next (atExpiry_at O (fun h => enterTripped_at W h) h)

theorem execRoleInputChange_keeps (O : OuterWalk P) {a b} (h : At P s) : Keeps P (execRoleInputChange a b s) :=
  keeps_next (O.pins h)

theorem judgeWindow_at (W : RoleWalk P) (h : At P s) : At P (judgeWindow s) := by
  unfold judgeWindow; split
  · split
    · exact h
    · split
      · split
        · unfold enterConflict; dsimp only
          exact W.raise (W.lines rfl id (changeRole_at W h))
        · exact W.lines rfl id h
      · exact W.lines rfl id h
  · exact h

theorem execDemandWindowExpiry_keeps (W : RoleWalk P) (O : OuterWalk P) {n} (h : At P s) :
    Keeps P (execDemandWindowExpiry n s) :=
  keeps_next (W.lines rfl id (judgeWindow_at W (W.lines rfl id (reach_at O h))))

theorem senseLine_at (W : HaltWalk P) (h : At P s) : At P (senseLine s) := by
  unfold senseLine; split
  · exact h
  · split
    · exact senseHalt_at W (W.lines rfl id h)
    · exact senseHalt_at W h

theorem execHaltLineChange_keeps (W : HaltWalk P) (O : OuterWalk P) {a} (h : At P s) : Keeps P (execHaltLineChange a s) :=
  keeps_next (ite_at (fun _ => h) fun _ => senseLine_at W (O.pins h))

theorem execStartEmissionExpiry_keeps (W : HaltWalk P) (O : OuterWalk P) (h : At P s) :
    Keeps P (execStartEmissionExpiry s) := keeps_next (atExpiry_at O (fun h => W.lines rfl id h) h)

theorem execStartEdge_keeps (W : HaltWalk P) (h : At P s) : Keeps P (execStartEdge s) :=
  keeps_next (ite_at (fun _ => startPulse_at W h) fun _ => h)

theorem execStartRetentionExpiry_keeps (W : HaltWalk P) (O : OuterWalk P) (h : At P s) :
    Keeps P (execStartRetentionExpiry s) := keeps_next (atExpiry_at O (fun h => W.lines rfl id h) h)

/-! ### Junction unit -/

theorem execLoopOkReleased_keeps (W : JunctionWalk P) (O : OuterWalk P) {b} (h : At P s) :
    Keeps P (execLoopOkReleased b s) := by
  refine keeps_next (ite_at (fun _ => h) fun _ => ?_)
  unfold takeLoopLevel; dsimp only
  exact ite_at (fun _ => enterLoopFault_at W (O.pins h)) fun _ => O.pins h

theorem cancelSent_at (W : JunctionWalk P) (h : At P s) : At P (cancelSent s) := by
  unfold cancelSent; split
  · exact h
  · exact judgeRoute_at W (serveWaiting_at W (onSlot_at W (W.junction id h)))

theorem airtimeEnded_at (W : JunctionWalk P) {x} (h : At P s) : At P (airtimeEnded x s) := by
  unfold airtimeEnded; split
  · exact cancelSent_at W h
  · exact W.junction (fun hl => by simp; omega) h
  · exact h

theorem execTelegramAirtimeEnd_keeps (W : JunctionWalk P) (O : OuterWalk P) (h : At P s) :
    Keeps P (execTelegramAirtimeEnd s) := by
  refine keeps_next ?_
  split
  · unfold endAirtime; dsimp only
    refine ite_at (fun _ => W.junction id ?_) fun _ => endTurn_at W ?_
    all_goals exact airtimeEnded_at W (reach_at O h)
  · exact h

theorem countUnanswered_at (W : JunctionWalk P) {tag j} (h : At P s) : At P (countUnanswered tag j s) := by
  unfold countUnanswered; dsimp only
  refine ite_at (fun _ => W.raise ?_) fun _ => ?_
  all_goals exact changeJunction_at W.toRouteWalk (fun _ => ⟨rfl, rfl, rfl, rfl, rfl⟩) h

theorem judgeTurn_at (W : JunctionWalk P) {x} (h : At P s) : At P (judgeTurn x s) := by
  unfold judgeTurn; split
  · exact h
  · split
    · exact h
    · exact ite_at (fun _ => countUnanswered_at W h) fun _ => h

theorem askAgain_at (W : JunctionWalk P) {x} (h : At P s) : At P (askAgain x s) := by
  unfold askAgain; split
  · exact ite_at (fun _ => onSlot_at W h) fun _ => h
  · exact h

theorem execAnswerWindowExpiry_keeps (W : JunctionWalk P) (O : OuterWalk P) (h : At P s) :
    Keeps P (execAnswerWindowExpiry s) := by
  refine keeps_next ?_
  split
  · exact endTurn_at W (askAgain_at W (judgeTurn_at W (reach_at O h)))
  · exact h

theorem execSlotRepeatExpiry_keeps (W : JunctionWalk P) (O : OuterWalk P) {i} (h : At P s) :
    Keeps P (execSlotRepeatExpiry i s) :=
  keeps_next (atExpiry_at O (fun h => ite_at (fun _ => startAsking_at W h) fun _ => onSlot_at W h) h)

theorem execSignalRepeatExpiry_keeps (W : JunctionWalk P) (O : OuterWalk P) {i} (h : At P s) :
    Keeps P (execSignalRepeatExpiry i s) := by
  refine keeps_next ?_
  split
  · exact h
  · exact ite_at (fun _ => atExpiry_at O
      (fun h => offerSignal_at W (changeSignal_at W.toRouteWalk (fun _ => ⟨rfl, rfl⟩) h)) h) fun _ => h

theorem recordAnswer_at (W : JunctionWalk P) {tag a} (h : At P s) : At P (recordAnswer tag a s) :=
  W.junction id (changeJunction_at W.toRouteWalk (fun _ => ⟨rfl, rfl, rfl, rfl, rfl⟩) h)

theorem becomeSet_at (W : JunctionWalk P) {tag j} (h : At P s) : At P (becomeSet tag j s) :=
  positionFix_at W (W.raise (formCeiling_at W.toRouteWalk (enterJunction_at W (stopAskingFor_at W h))))

theorem becomeRefused_at (W : JunctionWalk P) {tag j} (h : At P s) : At P (becomeRefused tag j s) :=
  W.raise (formCeiling_at W.toRouteWalk (enterJunction_at W (stopAskingFor_at W h)))

theorem answerAsking_at (W : JunctionWalk P) {tag j a} (h : At P s) : At P (answerAsking tag j a s) := by
  unfold answerAsking; split
  · exact ite_at (fun _ => becomeSet_at W h) fun _ => h
  · exact h
  · exact becomeRefused_at W h

theorem loseLock_at (W : JunctionWalk P) {tag n} (h : At P s) : At P (loseLock tag n s) := by
  unfold loseLock; split
  · exact W.raise (formCeiling_at W.toRouteWalk (startAskingFor_at W (enterJunction_at W h)))
  · split
    · exact W.raise (formCeiling_at W.toRouteWalk (startAskingFor_at W (askFor_at W.toSoundWalk (enterJunction_at W h))))
    · exact W.raise (formCeiling_at W.toRouteWalk (enterJunction_at W h))

theorem takeAnswer_at (W : JunctionWalk P) {e j a} (h : At P s) : At P (takeAnswer e j a s) := by
  unfold takeAnswer; split
  · exact answerAsking_at W (recordAnswer_at W h)
  · exact answerAsking_at W (recordAnswer_at W h)
  · unfold answerSet
    exact ite_at (fun _ => recordAnswer_at W h) fun _ => loseLock_at W (recordAnswer_at W h)
  · exact h

theorem execPointAnswer_keeps (W : JunctionWalk P) {bs} (h : At P s) : Keeps P (execPointAnswer bs s) := by
  refine keeps_next ?_
  split
  · split
    · exact h
    · split
      · exact h
      · exact takeAnswer_at W h
  · exact h

theorem acknowledgeSignal_same (n : Nat) (e : Entry) : e.SamePlan (acknowledgeSignal n e) :=
  Entry.onSignal_same (fun g => by split <;> exact ⟨rfl, rfl⟩) e

theorem takeAck_at (W : JunctionWalk P) {n} (h : At P s) : At P (takeAck n s) := by
  have hl := splitSignals_length s.junction
  unfold takeAck; dsimp only
  refine judgeRoute_at W (W.junction (fun hm => ?_) (W.route rfl (RouteLaw.map (acknowledgeSignal_same n)) h))
  have := List.length_filter_le (fun i => i.clear || !(callingTags n s.route.table).contains i.tag) (splitSignals s.junction).2
  simp only [State.setRoute_junction] at hm
  simp only [List.length_append]
  omega

theorem execPriorityAck_keeps (W : JunctionWalk P) {bs} (h : At P s) : Keeps P (execPriorityAck bs s) := by
  refine keeps_next ?_
  split
  · split
    · exact h
    · exact takeAck_at W h
  · exact h

/-! ### Stop-request unit -/

theorem execScan_keeps (W : StopWalk P) (O : OuterWalk P) {rs} (h : At P s) : Keeps P (execScan rs s) := by
  unfold execScan; split
  · exact keeps_next (scanButtons_at W (reach_at O h))
  · intro t e; cases e

theorem dropPress_at (W : StopWalk P) {i} (h : At P s) : At P (dropPress i s) := by
  unfold dropPress; split
  · exact h
  · exact W.raise (W.stop h)

theorem execButtonStuck_keeps (W : StopWalk P) (O : OuterWalk P) {i} (h : At P s) : Keeps P (execButtonStuck i s) :=
  keeps_next (atExpiry_at O (fun h => dropPress_at W h) h)

theorem execStopCancel_keeps (W : StopWalk P) (h : At P s) : Keeps P (execStopCancel s) :=
  keeps_next (ite_at (fun _ => clearStopLatch_at W h) fun _ => h)

theorem execStopreqEdge_keeps (W : StopWalk P) (O : OuterWalk P) {a} (h : At P s) : Keeps P (execStopreqEdge a s) := by
  refine keeps_next (ite_at (fun _ => h) fun _ => ?_)
  unfold senseStopreq; split
  · exact O.pins h
  · exact ite_at (fun _ => trigger_at W (W.stop (O.pins h))) fun _ => W.stop (O.pins h)

/-! ### Sound unit -/

theorem execStepExpiry_keeps (W : SoundWalk P) (O : OuterWalk P) {c} (h : At P s) : Keeps P (execStepExpiry c s) := by
  refine keeps_next (atExpiry_at O (fun h => ?_) h)
  unfold stepPlayer; split
  · split
    · exact enterStep_at W h
    · exact leavePlayer_at W h
  · exact h

theorem execStrikePulseExpiry_keeps (W : SoundWalk P) (O : OuterWalk P) (h : At P s) : Keeps P (execStrikePulseExpiry s) :=
  keeps_next (atExpiry_at O (fun h => W.sound id h) h)

theorem execBellPedalPress_keeps (W : SoundWalk P) (O : OuterWalk P) (h : At P s) : Keeps P (execBellPedalPress s) :=
  keeps_next (ite_at (fun _ => h) fun _ =>
    ite_at (fun _ => strike_at W (W.sound id (driverTakes_at W (O.pins h)))) fun _ => O.pins h)

theorem execBellPedalRelease_keeps (W : SoundWalk P) (O : OuterWalk P) (h : At P s) : Keeps P (execBellPedalRelease s) :=
  keeps_next (releaseBell_at W (O.pins h))

theorem execBellIntervalExpiry_keeps (W : SoundWalk P) (O : OuterWalk P) (h : At P s) :
    Keeps P (execBellIntervalExpiry s) := keeps_next (atExpiry_at O (fun h => strike_at W (W.sound id h)) h)

theorem execHornPress_keeps (W : SoundWalk P) (O : OuterWalk P) (h : At P s) : Keeps P (execHornPress s) :=
  keeps_next (ite_at (fun _ => h) fun _ =>
    ite_at (fun _ => W.sound id (driverTakes_at W (O.pins h))) fun _ => O.pins h)

theorem execHornRelease_keeps (W : SoundWalk P) (O : OuterWalk P) (h : At P s) : Keeps P (execHornRelease s) := by
  unfold execHornRelease; dsimp only
  refine keeps_next ?_
  split
  · unfold releaseHorn; dsimp only
    exact ite_at (fun _ => endHorn_at W (O.pins h)) fun _ => W.sound id (O.pins h)
  · exact O.pins h

theorem execHornTailExpiry_keeps (W : SoundWalk P) (O : OuterWalk P) (h : At P s) : Keeps P (execHornTailExpiry s) :=
  keeps_next (atExpiry_at O (fun h => endHorn_at W h) h)

/-! ### Every command -/

theorem execFrameGapExpiry_keeps (W : LinkWalk P) (O : OuterWalk P) (h : At P s) : Keeps P (execFrameGapExpiry s) := by
  refine keeps_next ?_
  unfold abandonFrame; split
  · exact h
  · exact W.link rfl rfl id (O.clock h)

/-- The next state of any command keeps what a whole walk keeps. -/
theorem exec_keeps (W : WholeWalk P) (c : Instr) (h : At P s) : Keeps P (exec c s) := by
  have O := W.toOuterWalk
  have A := W.toAxleWalk
  have R := W.toRoleWalk
  have J := W.toJunctionWalk
  have V := W.toVigilWalk
  have H := W.toHaltWalk
  have Q := W.toStopWalk
  have S := W.toSoundWalk
  have C := W.toChainWalk
  cases c
  case powerUp => exact keeps_next (powerUp_at W h)
  case encoderEdge => exact execEncoderEdge_keeps A h
  case phaseErrorWindowExpiry => exact execPhaseErrorWindowExpiry_keeps A O h
  case speedSample => exact execSpeedSample_keeps A O h
  case axleSuspect => exact execAxleSuspect_keeps A O h
  case agreementRunComplete => exact execAgreementRunComplete_keeps A O h
  case standstillSet => exact execStandstillSet_keeps A O h
  case controlPeriod => exact execControlPeriod_keeps C O h
  case directionSettleExpiry => exact execDirectionSettleExpiry_keeps H O h
  case handleHoldExpiry => exact execHandleHoldExpiry_keeps H O h
  case handleFault => exact execHandleFault_keeps C O h
  case demandLost => exact execDemandLost_keeps H O h
  case adhesionFault => exact execAdhesionFault_keeps C O h
  case sandRunExpiry => exact execSandRunExpiry_keeps C O h
  case sandRestExpiry => exact execSandRestExpiry_keeps C O h
  case doorReleaseAsserted => exact execDoorReleaseAsserted_keeps H Q O h
  case doorReleaseReleased => exact execDoorReleaseReleased_keeps O h
  case haltReleased => exact execHaltReleased_keeps W.toReleaseWalk O h
  case vigilPress => exact execVigilPress_keeps V O h
  case vigilRelease => exact execVigilRelease_keeps V O h
  case holdLimitExpiry => exact execHoldLimitExpiry_keeps V O h
  case graceExpiry => exact execGraceExpiry_keeps V O h
  case warnToHaltExpiry => exact execWarnToHaltExpiry_keeps V O h
  case repressWindowExpiry => exact execRepressWindowExpiry_keeps V O h
  case roleInputChange => exact execRoleInputChange_keeps O h
  case demandWindowExpiry => exact execDemandWindowExpiry_keeps R O h
  case haltLineChange => exact execHaltLineChange_keeps H O h
  case startEmissionExpiry => exact execStartEmissionExpiry_keeps H O h
  case startEdge => exact execStartEdge_keeps H h
  case startRetentionExpiry => exact execStartRetentionExpiry_keeps H O h
  case loopOkReleased => exact execLoopOkReleased_keeps J O h
  case telegramAirtimeEnd => exact execTelegramAirtimeEnd_keeps J O h
  case answerWindowExpiry => exact execAnswerWindowExpiry_keeps J O h
  case slotRepeatExpiry => exact execSlotRepeatExpiry_keeps J O h
  case signalRepeatExpiry => exact execSignalRepeatExpiry_keeps J O h
  case pointAnswer => exact execPointAnswer_keeps J h
  case priorityAck => exact execPriorityAck_keeps J h
  case scan => exact execScan_keeps Q O h
  case buttonStuck => exact execButtonStuck_keeps Q O h
  case stopCancel => exact execStopCancel_keeps Q h
  case stopreqEdge => exact execStopreqEdge_keeps Q O h
  case stepExpiry => exact execStepExpiry_keeps S O h
  case strikePulseExpiry => exact execStrikePulseExpiry_keeps S O h
  case bellPedalPress => exact execBellPedalPress_keeps S O h
  case bellPedalRelease => exact execBellPedalRelease_keeps S O h
  case bellIntervalExpiry => exact execBellIntervalExpiry_keeps S O h
  case hornPress => exact execHornPress_keeps S O h
  case hornRelease => exact execHornRelease_keeps S O h
  case hornTailExpiry => exact execHornTailExpiry_keeps S O h
  case byteReceived => exact keeps_next (receive_at W h)
  case frameGapExpiry => exact keeps_next (abandonFrame_at W h)
  case replyEnd => exact keeps_next (endReply_at W h)
  all_goals exact keeps_next (submit_at W h)

end Sys2Proof.Machine
end

