-- ==== Sys2Proof/Laws/Frames.lean ====
section
/-! SUPPORT. Walks for properties that do not read the blocks a level writes: what makes a frame of each level. -/

namespace Sys2Proof.Machine

variable {P : State → Prop}

/-- Entering INHIBITED changes the traction unit alone. -/
theorem enterInhibited_eq (s : State) : enterInhibited s = s.setTraction (enterInhibited s).traction := by
  unfold enterInhibited; split <;> rfl

/-- Releasing SAND changes the adhesion section alone. -/
theorem releaseSand_eq (s : State) : releaseSand s = s.setAdhesion (releaseSand s).adhesion := by
  unfold releaseSand; split <;> rfl

/-- Judging overspeed changes the traction unit alone. -/
theorem judgeOverspeed_eq (st : SettingsStore) (s : State) :
    judgeOverspeed st s = s.setTraction (judgeOverspeed st s).traction := by
  unfold judgeOverspeed; dsimp only; repeat' split
  all_goals rfl

/-- A sound walk for a property of neither settings, events nor sounds. -/
theorem SoundWalk.other (hs : ∀ s x, P s → P (s.setSettings x)) (hh : ∀ s x, P s → P (s.setHost x))
    (hu : ∀ s x, P s → P (s.setSound x)) : SoundWalk P :=
  { StoreWalk.other hs hh with sound := fun _ h => hu _ _ h }

/-- A halt walk for a property that reads neither the traction unit nor the halt latch. -/
theorem HaltWalk.other (W : SoundWalk P) (hs : ∀ s b, P s → P (s.setSettings { s.settings with effortHeld := b }))
    (ht : ∀ s x, P s → P (s.setTraction x)) (ha : ∀ s x, P s → P (s.setHalt x))
    (hl : ∀ s l, l.role = s.lines.role → (LineLaw s.lines → LineLaw l) → P s → P (s.setLines l)) : HaltWalk P where
  toSoundWalk := W
  outputs := fun _ h => ht _ _ h
  inhibit := fun h => by rw [enterInhibited_eq]; exact ht _ _ h
  full := fun h => ht _ _ h
  effortHeld := fun h => hs _ _ h
  start := fun _ h => ht _ _ h
  lines := fun r l h => hl _ _ r l h
  ack := fun h => ha _ _ h
  latch := fun _ h => ht _ _ (ha _ _ h)
  causes := fun _ h => ha _ _ h

/-- A set latch outlives every primitive of its level but the release (R67), and keeps its record. -/
theorem HaltWalk.keepsLatch (r : LatchRecord) : HaltWalk fun s => s.halt.latch = some r where
  toSoundWalk := SoundWalk.other (fun _ _ h => h) (fun _ _ h => h) fun _ _ h => h
  outputs := fun _ h => h
  inhibit := fun h => by rw [enterInhibited_eq]; exact h
  full := fun h => h
  effortHeld := fun h => h
  start := fun _ h => h
  lines := fun _ _ h => h
  ack := fun h => h
  latch := fun hn h => by cases hn.symm.trans h
  causes := fun _ h => h

/-- A route walk for a property that reads neither the route engine nor SAND. -/
theorem RouteWalk.other (hr : ∀ s x, P s → P (s.setRoute x)) (ha : ∀ s x, P s → P (s.setAdhesion x)) : RouteWalk P where
  route := fun _ _ h => hr _ _ h
  sand := fun h => by rw [releaseSand_eq]; exact ha _ _ h
  inhibited := fun _ h => hr _ _ h

/-- A chain walk for a property that does not read the traction unit. -/
theorem ChainWalk.other (W : HaltWalk P) (ht : ∀ s x, P s → P (s.setTraction x)) (ha : ∀ s x, P s → P (s.setHalt x))
    (hx : ∀ s x, P s → P (s.setAxle { s.axle with sense := x }))
    (hb : ∀ s x, x.sand = s.adhesion.sand → P s → P (s.setAdhesion x))
    (hn : ∀ s t, s.axle.standstill = false → s.route.sandInhibit = false → P s →
      P (s.setAdhesion { s.adhesion with sand := .on t }))
    (he : ∀ s x, (∀ t, x ≠ .on t) → P s → P (s.setAdhesion { s.adhesion with sand := x }))
    (hf : ∀ s n, P s → P (s.setFreeCount n)) : ChainWalk P where
  toHaltWalk := W
  release := fun _ _ h => ht _ _ (ha _ _ h)
  sense := fun h => hx _ _ h
  bogies := fun e h => hb _ _ e h
  sandOn := fun a b h => hn _ _ a b h
  sandEnd := fun e h => he _ _ e h
  free := fun h => hf _ _ h
  exit := fun _ h => ht _ _ h
  hold := fun _ h => ht _ _ h
  handle := fun _ _ _ _ h => ht _ _ h
  move := fun {s₀ s₁ s d} _ _ _ h => by
    have h1 : At P (judgeOverspeed s₀.settings s) := by rw [judgeOverspeed_eq]; exact ht _ _ h
    have h2 : At P (judgeRollback s₀.settings (judgeOverspeed s₀.settings s)) := by
      unfold judgeRollback; exact ite_at (fun _ => addCauses_at W h1) fun _ => h1
    unfold moveEffort; dsimp only
    exact judgeEffort_at W (ht _ _ h2)

end Sys2Proof.Machine
end

