-- ==== Sys2Proof/Laws/Blocks.lean ====
section
/-! SUPPORT. Which blocks each shared operation leaves alone: one lemma for each operation and each block it does not write. -/

namespace Sys2Proof.Machine

/-! ### The settings store and the event set -/

theorem blockStore_pending (t : State) : StoreWalk (fun s => s.pending = t.pending) :=
  StoreWalk.other (fun _ _ h => h) (fun _ _ h => h)

theorem blockStore_now (t : State) : StoreWalk (fun s => s.now = t.now) :=
  StoreWalk.other (fun _ _ h => h) (fun _ _ h => h)

theorem blockStore_freeCount (t : State) : StoreWalk (fun s => s.freeCount = t.freeCount) :=
  StoreWalk.other (fun _ _ h => h) (fun _ _ h => h)

theorem blockStore_pins (t : State) : StoreWalk (fun s => s.pins = t.pins) :=
  StoreWalk.other (fun _ _ h => h) (fun _ _ h => h)

theorem blockStore_axle (t : State) : StoreWalk (fun s => s.axle = t.axle) :=
  StoreWalk.other (fun _ _ h => h) (fun _ _ h => h)

theorem blockStore_traction (t : State) : StoreWalk (fun s => s.traction = t.traction) :=
  StoreWalk.other (fun _ _ h => h) (fun _ _ h => h)

theorem blockStore_adhesion (t : State) : StoreWalk (fun s => s.adhesion = t.adhesion) :=
  StoreWalk.other (fun _ _ h => h) (fun _ _ h => h)

theorem blockStore_halt (t : State) : StoreWalk (fun s => s.halt = t.halt) :=
  StoreWalk.other (fun _ _ h => h) (fun _ _ h => h)

theorem blockStore_vigilance (t : State) : StoreWalk (fun s => s.vigilance = t.vigilance) :=
  StoreWalk.other (fun _ _ h => h) (fun _ _ h => h)

theorem blockStore_lines (t : State) : StoreWalk (fun s => s.lines = t.lines) :=
  StoreWalk.other (fun _ _ h => h) (fun _ _ h => h)

theorem blockStore_route (t : State) : StoreWalk (fun s => s.route = t.route) :=
  StoreWalk.other (fun _ _ h => h) (fun _ _ h => h)

theorem blockStore_junction (t : State) : StoreWalk (fun s => s.junction = t.junction) :=
  StoreWalk.other (fun _ _ h => h) (fun _ _ h => h)

theorem blockStore_stop (t : State) : StoreWalk (fun s => s.stop = t.stop) :=
  StoreWalk.other (fun _ _ h => h) (fun _ _ h => h)

theorem blockStore_sound (t : State) : StoreWalk (fun s => s.sound = t.sound) :=
  StoreWalk.other (fun _ _ h => h) (fun _ _ h => h)

@[simp] theorem raise_pending (k j : Nat) (v : Int) (s : State) : (raise k j v s).pending = s.pending :=
  (blockStore_pending s).raise rfl

@[simp] theorem raise_now (k j : Nat) (v : Int) (s : State) : (raise k j v s).now = s.now :=
  (blockStore_now s).raise rfl

@[simp] theorem raise_freeCount (k j : Nat) (v : Int) (s : State) : (raise k j v s).freeCount = s.freeCount :=
  (blockStore_freeCount s).raise rfl

@[simp] theorem raise_pins (k j : Nat) (v : Int) (s : State) : (raise k j v s).pins = s.pins :=
  (blockStore_pins s).raise rfl

@[simp] theorem raise_axle (k j : Nat) (v : Int) (s : State) : (raise k j v s).axle = s.axle :=
  (blockStore_axle s).raise rfl

@[simp] theorem raise_traction (k j : Nat) (v : Int) (s : State) : (raise k j v s).traction = s.traction :=
  (blockStore_traction s).raise rfl

@[simp] theorem raise_adhesion (k j : Nat) (v : Int) (s : State) : (raise k j v s).adhesion = s.adhesion :=
  (blockStore_adhesion s).raise rfl

@[simp] theorem raise_halt (k j : Nat) (v : Int) (s : State) : (raise k j v s).halt = s.halt :=
  (blockStore_halt s).raise rfl

@[simp] theorem raise_vigilance (k j : Nat) (v : Int) (s : State) : (raise k j v s).vigilance = s.vigilance :=
  (blockStore_vigilance s).raise rfl

@[simp] theorem raise_lines (k j : Nat) (v : Int) (s : State) : (raise k j v s).lines = s.lines :=
  (blockStore_lines s).raise rfl

@[simp] theorem raise_route (k j : Nat) (v : Int) (s : State) : (raise k j v s).route = s.route :=
  (blockStore_route s).raise rfl

@[simp] theorem raise_junction (k j : Nat) (v : Int) (s : State) : (raise k j v s).junction = s.junction :=
  (blockStore_junction s).raise rfl

@[simp] theorem raise_stop (k j : Nat) (v : Int) (s : State) : (raise k j v s).stop = s.stop :=
  (blockStore_stop s).raise rfl

@[simp] theorem raise_sound (k j : Nat) (v : Int) (s : State) : (raise k j v s).sound = s.sound :=
  (blockStore_sound s).raise rfl

@[simp] theorem judgeLock_pending (g : Group) (b : Bool) (s : State) : (judgeLock g b s).pending = s.pending :=
  (blockStore_pending s).lock rfl

@[simp] theorem judgeLock_now (g : Group) (b : Bool) (s : State) : (judgeLock g b s).now = s.now :=
  (blockStore_now s).lock rfl

@[simp] theorem judgeLock_freeCount (g : Group) (b : Bool) (s : State) : (judgeLock g b s).freeCount = s.freeCount :=
  (blockStore_freeCount s).lock rfl

@[simp] theorem judgeLock_pins (g : Group) (b : Bool) (s : State) : (judgeLock g b s).pins = s.pins :=
  (blockStore_pins s).lock rfl

@[simp] theorem judgeLock_axle (g : Group) (b : Bool) (s : State) : (judgeLock g b s).axle = s.axle :=
  (blockStore_axle s).lock rfl

@[simp] theorem judgeLock_traction (g : Group) (b : Bool) (s : State) : (judgeLock g b s).traction = s.traction :=
  (blockStore_traction s).lock rfl

@[simp] theorem judgeLock_adhesion (g : Group) (b : Bool) (s : State) : (judgeLock g b s).adhesion = s.adhesion :=
  (blockStore_adhesion s).lock rfl

@[simp] theorem judgeLock_halt (g : Group) (b : Bool) (s : State) : (judgeLock g b s).halt = s.halt :=
  (blockStore_halt s).lock rfl

@[simp] theorem judgeLock_vigilance (g : Group) (b : Bool) (s : State) : (judgeLock g b s).vigilance = s.vigilance :=
  (blockStore_vigilance s).lock rfl

@[simp] theorem judgeLock_lines (g : Group) (b : Bool) (s : State) : (judgeLock g b s).lines = s.lines :=
  (blockStore_lines s).lock rfl

@[simp] theorem judgeLock_route (g : Group) (b : Bool) (s : State) : (judgeLock g b s).route = s.route :=
  (blockStore_route s).lock rfl

@[simp] theorem judgeLock_junction (g : Group) (b : Bool) (s : State) : (judgeLock g b s).junction = s.junction :=
  (blockStore_junction s).lock rfl

@[simp] theorem judgeLock_stop (g : Group) (b : Bool) (s : State) : (judgeLock g b s).stop = s.stop :=
  (blockStore_stop s).lock rfl

@[simp] theorem judgeLock_sound (g : Group) (b : Bool) (s : State) : (judgeLock g b s).sound = s.sound :=
  (blockStore_sound s).lock rfl


/-! ### The sound unit -/

theorem blockSound_pending (t : State) : SoundWalk (fun s => s.pending = t.pending) :=
  SoundWalk.other (fun _ _ h => h) (fun _ _ h => h) (fun _ _ h => h)

theorem blockSound_now (t : State) : SoundWalk (fun s => s.now = t.now) :=
  SoundWalk.other (fun _ _ h => h) (fun _ _ h => h) (fun _ _ h => h)

theorem blockSound_freeCount (t : State) : SoundWalk (fun s => s.freeCount = t.freeCount) :=
  SoundWalk.other (fun _ _ h => h) (fun _ _ h => h) (fun _ _ h => h)

theorem blockSound_pins (t : State) : SoundWalk (fun s => s.pins = t.pins) :=
  SoundWalk.other (fun _ _ h => h) (fun _ _ h => h) (fun _ _ h => h)

theorem blockSound_axle (t : State) : SoundWalk (fun s => s.axle = t.axle) :=
  SoundWalk.other (fun _ _ h => h) (fun _ _ h => h) (fun _ _ h => h)

theorem blockSound_traction (t : State) : SoundWalk (fun s => s.traction = t.traction) :=
  SoundWalk.other (fun _ _ h => h) (fun _ _ h => h) (fun _ _ h => h)

theorem blockSound_adhesion (t : State) : SoundWalk (fun s => s.adhesion = t.adhesion) :=
  SoundWalk.other (fun _ _ h => h) (fun _ _ h => h) (fun _ _ h => h)

theorem blockSound_halt (t : State) : SoundWalk (fun s => s.halt = t.halt) :=
  SoundWalk.other (fun _ _ h => h) (fun _ _ h => h) (fun _ _ h => h)

theorem blockSound_vigilance (t : State) : SoundWalk (fun s => s.vigilance = t.vigilance) :=
  SoundWalk.other (fun _ _ h => h) (fun _ _ h => h) (fun _ _ h => h)

theorem blockSound_lines (t : State) : SoundWalk (fun s => s.lines = t.lines) :=
  SoundWalk.other (fun _ _ h => h) (fun _ _ h => h) (fun _ _ h => h)

theorem blockSound_route (t : State) : SoundWalk (fun s => s.route = t.route) :=
  SoundWalk.other (fun _ _ h => h) (fun _ _ h => h) (fun _ _ h => h)

theorem blockSound_junction (t : State) : SoundWalk (fun s => s.junction = t.junction) :=
  SoundWalk.other (fun _ _ h => h) (fun _ _ h => h) (fun _ _ h => h)

theorem blockSound_stop (t : State) : SoundWalk (fun s => s.stop = t.stop) :=
  SoundWalk.other (fun _ _ h => h) (fun _ _ h => h) (fun _ _ h => h)

@[simp] theorem judgeSound_pending (s : State) : (judgeSound s).pending = s.pending :=
  judgeSound_at (blockSound_pending s) rfl

@[simp] theorem judgeSound_now (s : State) : (judgeSound s).now = s.now :=
  judgeSound_at (blockSound_now s) rfl

@[simp] theorem judgeSound_freeCount (s : State) : (judgeSound s).freeCount = s.freeCount :=
  judgeSound_at (blockSound_freeCount s) rfl

@[simp] theorem judgeSound_pins (s : State) : (judgeSound s).pins = s.pins :=
  judgeSound_at (blockSound_pins s) rfl

@[simp] theorem judgeSound_axle (s : State) : (judgeSound s).axle = s.axle :=
  judgeSound_at (blockSound_axle s) rfl

@[simp] theorem judgeSound_traction (s : State) : (judgeSound s).traction = s.traction :=
  judgeSound_at (blockSound_traction s) rfl

@[simp] theorem judgeSound_adhesion (s : State) : (judgeSound s).adhesion = s.adhesion :=
  judgeSound_at (blockSound_adhesion s) rfl

@[simp] theorem judgeSound_halt (s : State) : (judgeSound s).halt = s.halt :=
  judgeSound_at (blockSound_halt s) rfl

@[simp] theorem judgeSound_vigilance (s : State) : (judgeSound s).vigilance = s.vigilance :=
  judgeSound_at (blockSound_vigilance s) rfl

@[simp] theorem judgeSound_lines (s : State) : (judgeSound s).lines = s.lines :=
  judgeSound_at (blockSound_lines s) rfl

@[simp] theorem judgeSound_route (s : State) : (judgeSound s).route = s.route :=
  judgeSound_at (blockSound_route s) rfl

@[simp] theorem judgeSound_junction (s : State) : (judgeSound s).junction = s.junction :=
  judgeSound_at (blockSound_junction s) rfl

@[simp] theorem judgeSound_stop (s : State) : (judgeSound s).stop = s.stop :=
  judgeSound_at (blockSound_stop s) rfl

@[simp] theorem strike_pending (s : State) : (strike s).pending = s.pending :=
  strike_at (blockSound_pending s) rfl

@[simp] theorem strike_now (s : State) : (strike s).now = s.now :=
  strike_at (blockSound_now s) rfl

@[simp] theorem strike_freeCount (s : State) : (strike s).freeCount = s.freeCount :=
  strike_at (blockSound_freeCount s) rfl

@[simp] theorem strike_pins (s : State) : (strike s).pins = s.pins :=
  strike_at (blockSound_pins s) rfl

@[simp] theorem strike_axle (s : State) : (strike s).axle = s.axle :=
  strike_at (blockSound_axle s) rfl

@[simp] theorem strike_traction (s : State) : (strike s).traction = s.traction :=
  strike_at (blockSound_traction s) rfl

@[simp] theorem strike_adhesion (s : State) : (strike s).adhesion = s.adhesion :=
  strike_at (blockSound_adhesion s) rfl

@[simp] theorem strike_halt (s : State) : (strike s).halt = s.halt :=
  strike_at (blockSound_halt s) rfl

@[simp] theorem strike_vigilance (s : State) : (strike s).vigilance = s.vigilance :=
  strike_at (blockSound_vigilance s) rfl

@[simp] theorem strike_lines (s : State) : (strike s).lines = s.lines :=
  strike_at (blockSound_lines s) rfl

@[simp] theorem strike_route (s : State) : (strike s).route = s.route :=
  strike_at (blockSound_route s) rfl

@[simp] theorem strike_junction (s : State) : (strike s).junction = s.junction :=
  strike_at (blockSound_junction s) rfl

@[simp] theorem strike_stop (s : State) : (strike s).stop = s.stop :=
  strike_at (blockSound_stop s) rfl

@[simp] theorem takePattern_pending (c : SoundChannel) (p : Nat) (s : State) : (takePattern c p s).pending = s.pending :=
  takePattern_at (blockSound_pending s) rfl

@[simp] theorem takePattern_now (c : SoundChannel) (p : Nat) (s : State) : (takePattern c p s).now = s.now :=
  takePattern_at (blockSound_now s) rfl

@[simp] theorem takePattern_freeCount (c : SoundChannel) (p : Nat) (s : State) : (takePattern c p s).freeCount = s.freeCount :=
  takePattern_at (blockSound_freeCount s) rfl

@[simp] theorem takePattern_pins (c : SoundChannel) (p : Nat) (s : State) : (takePattern c p s).pins = s.pins :=
  takePattern_at (blockSound_pins s) rfl

@[simp] theorem takePattern_axle (c : SoundChannel) (p : Nat) (s : State) : (takePattern c p s).axle = s.axle :=
  takePattern_at (blockSound_axle s) rfl

@[simp] theorem takePattern_traction (c : SoundChannel) (p : Nat) (s : State) : (takePattern c p s).traction = s.traction :=
  takePattern_at (blockSound_traction s) rfl

@[simp] theorem takePattern_adhesion (c : SoundChannel) (p : Nat) (s : State) : (takePattern c p s).adhesion = s.adhesion :=
  takePattern_at (blockSound_adhesion s) rfl

@[simp] theorem takePattern_halt (c : SoundChannel) (p : Nat) (s : State) : (takePattern c p s).halt = s.halt :=
  takePattern_at (blockSound_halt s) rfl

@[simp] theorem takePattern_vigilance (c : SoundChannel) (p : Nat) (s : State) : (takePattern c p s).vigilance = s.vigilance :=
  takePattern_at (blockSound_vigilance s) rfl

@[simp] theorem takePattern_lines (c : SoundChannel) (p : Nat) (s : State) : (takePattern c p s).lines = s.lines :=
  takePattern_at (blockSound_lines s) rfl

@[simp] theorem takePattern_route (c : SoundChannel) (p : Nat) (s : State) : (takePattern c p s).route = s.route :=
  takePattern_at (blockSound_route s) rfl

@[simp] theorem takePattern_junction (c : SoundChannel) (p : Nat) (s : State) : (takePattern c p s).junction = s.junction :=
  takePattern_at (blockSound_junction s) rfl

@[simp] theorem takePattern_stop (c : SoundChannel) (p : Nat) (s : State) : (takePattern c p s).stop = s.stop :=
  takePattern_at (blockSound_stop s) rfl

@[simp] theorem leavePlayer_pending (c : SoundChannel) (s : State) : (leavePlayer c s).pending = s.pending :=
  leavePlayer_at (blockSound_pending s) rfl

@[simp] theorem leavePlayer_now (c : SoundChannel) (s : State) : (leavePlayer c s).now = s.now :=
  leavePlayer_at (blockSound_now s) rfl

@[simp] theorem leavePlayer_freeCount (c : SoundChannel) (s : State) : (leavePlayer c s).freeCount = s.freeCount :=
  leavePlayer_at (blockSound_freeCount s) rfl

@[simp] theorem leavePlayer_pins (c : SoundChannel) (s : State) : (leavePlayer c s).pins = s.pins :=
  leavePlayer_at (blockSound_pins s) rfl

@[simp] theorem leavePlayer_axle (c : SoundChannel) (s : State) : (leavePlayer c s).axle = s.axle :=
  leavePlayer_at (blockSound_axle s) rfl

@[simp] theorem leavePlayer_traction (c : SoundChannel) (s : State) : (leavePlayer c s).traction = s.traction :=
  leavePlayer_at (blockSound_traction s) rfl

@[simp] theorem leavePlayer_adhesion (c : SoundChannel) (s : State) : (leavePlayer c s).adhesion = s.adhesion :=
  leavePlayer_at (blockSound_adhesion s) rfl

@[simp] theorem leavePlayer_halt (c : SoundChannel) (s : State) : (leavePlayer c s).halt = s.halt :=
  leavePlayer_at (blockSound_halt s) rfl

@[simp] theorem leavePlayer_vigilance (c : SoundChannel) (s : State) : (leavePlayer c s).vigilance = s.vigilance :=
  leavePlayer_at (blockSound_vigilance s) rfl

@[simp] theorem leavePlayer_lines (c : SoundChannel) (s : State) : (leavePlayer c s).lines = s.lines :=
  leavePlayer_at (blockSound_lines s) rfl

@[simp] theorem leavePlayer_route (c : SoundChannel) (s : State) : (leavePlayer c s).route = s.route :=
  leavePlayer_at (blockSound_route s) rfl

@[simp] theorem leavePlayer_junction (c : SoundChannel) (s : State) : (leavePlayer c s).junction = s.junction :=
  leavePlayer_at (blockSound_junction s) rfl

@[simp] theorem leavePlayer_stop (c : SoundChannel) (s : State) : (leavePlayer c s).stop = s.stop :=
  leavePlayer_at (blockSound_stop s) rfl

@[simp] theorem askFor_pending (p : Nat) (s : State) : (askFor p s).pending = s.pending :=
  askFor_at (blockSound_pending s) rfl

@[simp] theorem askFor_now (p : Nat) (s : State) : (askFor p s).now = s.now :=
  askFor_at (blockSound_now s) rfl

@[simp] theorem askFor_freeCount (p : Nat) (s : State) : (askFor p s).freeCount = s.freeCount :=
  askFor_at (blockSound_freeCount s) rfl

@[simp] theorem askFor_pins (p : Nat) (s : State) : (askFor p s).pins = s.pins :=
  askFor_at (blockSound_pins s) rfl

@[simp] theorem askFor_axle (p : Nat) (s : State) : (askFor p s).axle = s.axle :=
  askFor_at (blockSound_axle s) rfl

@[simp] theorem askFor_traction (p : Nat) (s : State) : (askFor p s).traction = s.traction :=
  askFor_at (blockSound_traction s) rfl

@[simp] theorem askFor_adhesion (p : Nat) (s : State) : (askFor p s).adhesion = s.adhesion :=
  askFor_at (blockSound_adhesion s) rfl

@[simp] theorem askFor_vigilance (p : Nat) (s : State) : (askFor p s).vigilance = s.vigilance :=
  askFor_at (blockSound_vigilance s) rfl

@[simp] theorem askFor_lines (p : Nat) (s : State) : (askFor p s).lines = s.lines :=
  askFor_at (blockSound_lines s) rfl

@[simp] theorem askFor_route (p : Nat) (s : State) : (askFor p s).route = s.route :=
  askFor_at (blockSound_route s) rfl

@[simp] theorem askFor_junction (p : Nat) (s : State) : (askFor p s).junction = s.junction :=
  askFor_at (blockSound_junction s) rfl

@[simp] theorem askFor_stop (p : Nat) (s : State) : (askFor p s).stop = s.stop :=
  askFor_at (blockSound_stop s) rfl

@[simp] theorem silencePattern_pending (p : Nat) (s : State) : (silencePattern p s).pending = s.pending :=
  silencePattern_at (blockSound_pending s) rfl

@[simp] theorem silencePattern_now (p : Nat) (s : State) : (silencePattern p s).now = s.now :=
  silencePattern_at (blockSound_now s) rfl

@[simp] theorem silencePattern_freeCount (p : Nat) (s : State) : (silencePattern p s).freeCount = s.freeCount :=
  silencePattern_at (blockSound_freeCount s) rfl

@[simp] theorem silencePattern_pins (p : Nat) (s : State) : (silencePattern p s).pins = s.pins :=
  silencePattern_at (blockSound_pins s) rfl

@[simp] theorem silencePattern_axle (p : Nat) (s : State) : (silencePattern p s).axle = s.axle :=
  silencePattern_at (blockSound_axle s) rfl

@[simp] theorem silencePattern_traction (p : Nat) (s : State) : (silencePattern p s).traction = s.traction :=
  silencePattern_at (blockSound_traction s) rfl

@[simp] theorem silencePattern_adhesion (p : Nat) (s : State) : (silencePattern p s).adhesion = s.adhesion :=
  silencePattern_at (blockSound_adhesion s) rfl

@[simp] theorem silencePattern_halt (p : Nat) (s : State) : (silencePattern p s).halt = s.halt :=
  silencePattern_at (blockSound_halt s) rfl

@[simp] theorem silencePattern_vigilance (p : Nat) (s : State) : (silencePattern p s).vigilance = s.vigilance :=
  silencePattern_at (blockSound_vigilance s) rfl

@[simp] theorem silencePattern_lines (p : Nat) (s : State) : (silencePattern p s).lines = s.lines :=
  silencePattern_at (blockSound_lines s) rfl

@[simp] theorem silencePattern_route (p : Nat) (s : State) : (silencePattern p s).route = s.route :=
  silencePattern_at (blockSound_route s) rfl

@[simp] theorem silencePattern_junction (p : Nat) (s : State) : (silencePattern p s).junction = s.junction :=
  silencePattern_at (blockSound_junction s) rfl

@[simp] theorem silencePattern_stop (p : Nat) (s : State) : (silencePattern p s).stop = s.stop :=
  silencePattern_at (blockSound_stop s) rfl

@[simp] theorem silenceAll_pending (s : State) : (silenceAll s).pending = s.pending :=
  silenceAll_at (blockSound_pending s) rfl

@[simp] theorem silenceAll_now (s : State) : (silenceAll s).now = s.now :=
  silenceAll_at (blockSound_now s) rfl

@[simp] theorem silenceAll_freeCount (s : State) : (silenceAll s).freeCount = s.freeCount :=
  silenceAll_at (blockSound_freeCount s) rfl

@[simp] theorem silenceAll_pins (s : State) : (silenceAll s).pins = s.pins :=
  silenceAll_at (blockSound_pins s) rfl

@[simp] theorem silenceAll_axle (s : State) : (silenceAll s).axle = s.axle :=
  silenceAll_at (blockSound_axle s) rfl

@[simp] theorem silenceAll_traction (s : State) : (silenceAll s).traction = s.traction :=
  silenceAll_at (blockSound_traction s) rfl

@[simp] theorem silenceAll_adhesion (s : State) : (silenceAll s).adhesion = s.adhesion :=
  silenceAll_at (blockSound_adhesion s) rfl

@[simp] theorem silenceAll_halt (s : State) : (silenceAll s).halt = s.halt :=
  silenceAll_at (blockSound_halt s) rfl

@[simp] theorem silenceAll_vigilance (s : State) : (silenceAll s).vigilance = s.vigilance :=
  silenceAll_at (blockSound_vigilance s) rfl

@[simp] theorem silenceAll_lines (s : State) : (silenceAll s).lines = s.lines :=
  silenceAll_at (blockSound_lines s) rfl

@[simp] theorem silenceAll_route (s : State) : (silenceAll s).route = s.route :=
  silenceAll_at (blockSound_route s) rfl

@[simp] theorem silenceAll_junction (s : State) : (silenceAll s).junction = s.junction :=
  silenceAll_at (blockSound_junction s) rfl

@[simp] theorem silenceAll_stop (s : State) : (silenceAll s).stop = s.stop :=
  silenceAll_at (blockSound_stop s) rfl

@[simp] theorem driverTakes_pending (c : SoundChannel) (v : Int) (s : State) : (driverTakes c v s).pending = s.pending :=
  driverTakes_at (blockSound_pending s) rfl

@[simp] theorem driverTakes_now (c : SoundChannel) (v : Int) (s : State) : (driverTakes c v s).now = s.now :=
  driverTakes_at (blockSound_now s) rfl

@[simp] theorem driverTakes_freeCount (c : SoundChannel) (v : Int) (s : State) : (driverTakes c v s).freeCount = s.freeCount :=
  driverTakes_at (blockSound_freeCount s) rfl

@[simp] theorem driverTakes_pins (c : SoundChannel) (v : Int) (s : State) : (driverTakes c v s).pins = s.pins :=
  driverTakes_at (blockSound_pins s) rfl

@[simp] theorem driverTakes_axle (c : SoundChannel) (v : Int) (s : State) : (driverTakes c v s).axle = s.axle :=
  driverTakes_at (blockSound_axle s) rfl

@[simp] theorem driverTakes_traction (c : SoundChannel) (v : Int) (s : State) : (driverTakes c v s).traction = s.traction :=
  driverTakes_at (blockSound_traction s) rfl

@[simp] theorem driverTakes_adhesion (c : SoundChannel) (v : Int) (s : State) : (driverTakes c v s).adhesion = s.adhesion :=
  driverTakes_at (blockSound_adhesion s) rfl

@[simp] theorem driverTakes_halt (c : SoundChannel) (v : Int) (s : State) : (driverTakes c v s).halt = s.halt :=
  driverTakes_at (blockSound_halt s) rfl

@[simp] theorem driverTakes_vigilance (c : SoundChannel) (v : Int) (s : State) : (driverTakes c v s).vigilance = s.vigilance :=
  driverTakes_at (blockSound_vigilance s) rfl

@[simp] theorem driverTakes_lines (c : SoundChannel) (v : Int) (s : State) : (driverTakes c v s).lines = s.lines :=
  driverTakes_at (blockSound_lines s) rfl

@[simp] theorem driverTakes_route (c : SoundChannel) (v : Int) (s : State) : (driverTakes c v s).route = s.route :=
  driverTakes_at (blockSound_route s) rfl

@[simp] theorem driverTakes_junction (c : SoundChannel) (v : Int) (s : State) : (driverTakes c v s).junction = s.junction :=
  driverTakes_at (blockSound_junction s) rfl

@[simp] theorem driverTakes_stop (c : SoundChannel) (v : Int) (s : State) : (driverTakes c v s).stop = s.stop :=
  driverTakes_at (blockSound_stop s) rfl

@[simp] theorem releaseBell_pending (s : State) : (releaseBell s).pending = s.pending :=
  releaseBell_at (blockSound_pending s) rfl

@[simp] theorem releaseBell_now (s : State) : (releaseBell s).now = s.now :=
  releaseBell_at (blockSound_now s) rfl

@[simp] theorem releaseBell_freeCount (s : State) : (releaseBell s).freeCount = s.freeCount :=
  releaseBell_at (blockSound_freeCount s) rfl

@[simp] theorem releaseBell_pins (s : State) : (releaseBell s).pins = s.pins :=
  releaseBell_at (blockSound_pins s) rfl

@[simp] theorem releaseBell_axle (s : State) : (releaseBell s).axle = s.axle :=
  releaseBell_at (blockSound_axle s) rfl

@[simp] theorem releaseBell_traction (s : State) : (releaseBell s).traction = s.traction :=
  releaseBell_at (blockSound_traction s) rfl

@[simp] theorem releaseBell_adhesion (s : State) : (releaseBell s).adhesion = s.adhesion :=
  releaseBell_at (blockSound_adhesion s) rfl

@[simp] theorem releaseBell_halt (s : State) : (releaseBell s).halt = s.halt :=
  releaseBell_at (blockSound_halt s) rfl

@[simp] theorem releaseBell_vigilance (s : State) : (releaseBell s).vigilance = s.vigilance :=
  releaseBell_at (blockSound_vigilance s) rfl

@[simp] theorem releaseBell_lines (s : State) : (releaseBell s).lines = s.lines :=
  releaseBell_at (blockSound_lines s) rfl

@[simp] theorem releaseBell_route (s : State) : (releaseBell s).route = s.route :=
  releaseBell_at (blockSound_route s) rfl

@[simp] theorem releaseBell_junction (s : State) : (releaseBell s).junction = s.junction :=
  releaseBell_at (blockSound_junction s) rfl

@[simp] theorem releaseBell_stop (s : State) : (releaseBell s).stop = s.stop :=
  releaseBell_at (blockSound_stop s) rfl

@[simp] theorem endHorn_pending (s : State) : (endHorn s).pending = s.pending :=
  endHorn_at (blockSound_pending s) rfl

@[simp] theorem endHorn_now (s : State) : (endHorn s).now = s.now :=
  endHorn_at (blockSound_now s) rfl

@[simp] theorem endHorn_freeCount (s : State) : (endHorn s).freeCount = s.freeCount :=
  endHorn_at (blockSound_freeCount s) rfl

@[simp] theorem endHorn_pins (s : State) : (endHorn s).pins = s.pins :=
  endHorn_at (blockSound_pins s) rfl

@[simp] theorem endHorn_axle (s : State) : (endHorn s).axle = s.axle :=
  endHorn_at (blockSound_axle s) rfl

@[simp] theorem endHorn_traction (s : State) : (endHorn s).traction = s.traction :=
  endHorn_at (blockSound_traction s) rfl

@[simp] theorem endHorn_adhesion (s : State) : (endHorn s).adhesion = s.adhesion :=
  endHorn_at (blockSound_adhesion s) rfl

@[simp] theorem endHorn_halt (s : State) : (endHorn s).halt = s.halt :=
  endHorn_at (blockSound_halt s) rfl

@[simp] theorem endHorn_vigilance (s : State) : (endHorn s).vigilance = s.vigilance :=
  endHorn_at (blockSound_vigilance s) rfl

@[simp] theorem endHorn_lines (s : State) : (endHorn s).lines = s.lines :=
  endHorn_at (blockSound_lines s) rfl

@[simp] theorem endHorn_route (s : State) : (endHorn s).route = s.route :=
  endHorn_at (blockSound_route s) rfl

@[simp] theorem endHorn_junction (s : State) : (endHorn s).junction = s.junction :=
  endHorn_at (blockSound_junction s) rfl

@[simp] theorem endHorn_stop (s : State) : (endHorn s).stop = s.stop :=
  endHorn_at (blockSound_stop s) rfl

@[simp] theorem releaseControls_pending (s : State) : (releaseControls s).pending = s.pending :=
  releaseControls_at (blockSound_pending s) rfl

@[simp] theorem releaseControls_now (s : State) : (releaseControls s).now = s.now :=
  releaseControls_at (blockSound_now s) rfl

@[simp] theorem releaseControls_freeCount (s : State) : (releaseControls s).freeCount = s.freeCount :=
  releaseControls_at (blockSound_freeCount s) rfl

@[simp] theorem releaseControls_pins (s : State) : (releaseControls s).pins = s.pins :=
  releaseControls_at (blockSound_pins s) rfl

@[simp] theorem releaseControls_axle (s : State) : (releaseControls s).axle = s.axle :=
  releaseControls_at (blockSound_axle s) rfl

@[simp] theorem releaseControls_traction (s : State) : (releaseControls s).traction = s.traction :=
  releaseControls_at (blockSound_traction s) rfl

@[simp] theorem releaseControls_adhesion (s : State) : (releaseControls s).adhesion = s.adhesion :=
  releaseControls_at (blockSound_adhesion s) rfl

@[simp] theorem releaseControls_halt (s : State) : (releaseControls s).halt = s.halt :=
  releaseControls_at (blockSound_halt s) rfl

@[simp] theorem releaseControls_vigilance (s : State) : (releaseControls s).vigilance = s.vigilance :=
  releaseControls_at (blockSound_vigilance s) rfl

@[simp] theorem releaseControls_route (s : State) : (releaseControls s).route = s.route :=
  releaseControls_at (blockSound_route s) rfl

@[simp] theorem releaseControls_junction (s : State) : (releaseControls s).junction = s.junction :=
  releaseControls_at (blockSound_junction s) rfl

@[simp] theorem releaseControls_stop (s : State) : (releaseControls s).stop = s.stop :=
  releaseControls_at (blockSound_stop s) rfl


/-! ### The halt latch and the train lines -/

theorem blockHalt_pending (t : State) : HaltWalk (fun s => s.pending = t.pending) :=
  HaltWalk.other (.other (fun _ _ h => h) (fun _ _ h => h) (fun _ _ h => h)) (fun _ _ h => h) (fun _ _ h => h) (fun _ _ h => h) (fun _ _ _ _ h => h)

theorem blockHalt_now (t : State) : HaltWalk (fun s => s.now = t.now) :=
  HaltWalk.other (.other (fun _ _ h => h) (fun _ _ h => h) (fun _ _ h => h)) (fun _ _ h => h) (fun _ _ h => h) (fun _ _ h => h) (fun _ _ _ _ h => h)

theorem blockHalt_freeCount (t : State) : HaltWalk (fun s => s.freeCount = t.freeCount) :=
  HaltWalk.other (.other (fun _ _ h => h) (fun _ _ h => h) (fun _ _ h => h)) (fun _ _ h => h) (fun _ _ h => h) (fun _ _ h => h) (fun _ _ _ _ h => h)

theorem blockHalt_pins (t : State) : HaltWalk (fun s => s.pins = t.pins) :=
  HaltWalk.other (.other (fun _ _ h => h) (fun _ _ h => h) (fun _ _ h => h)) (fun _ _ h => h) (fun _ _ h => h) (fun _ _ h => h) (fun _ _ _ _ h => h)

theorem blockHalt_axle (t : State) : HaltWalk (fun s => s.axle = t.axle) :=
  HaltWalk.other (.other (fun _ _ h => h) (fun _ _ h => h) (fun _ _ h => h)) (fun _ _ h => h) (fun _ _ h => h) (fun _ _ h => h) (fun _ _ _ _ h => h)

theorem blockHalt_adhesion (t : State) : HaltWalk (fun s => s.adhesion = t.adhesion) :=
  HaltWalk.other (.other (fun _ _ h => h) (fun _ _ h => h) (fun _ _ h => h)) (fun _ _ h => h) (fun _ _ h => h) (fun _ _ h => h) (fun _ _ _ _ h => h)

theorem blockHalt_vigilance (t : State) : HaltWalk (fun s => s.vigilance = t.vigilance) :=
  HaltWalk.other (.other (fun _ _ h => h) (fun _ _ h => h) (fun _ _ h => h)) (fun _ _ h => h) (fun _ _ h => h) (fun _ _ h => h) (fun _ _ _ _ h => h)

theorem blockHalt_route (t : State) : HaltWalk (fun s => s.route = t.route) :=
  HaltWalk.other (.other (fun _ _ h => h) (fun _ _ h => h) (fun _ _ h => h)) (fun _ _ h => h) (fun _ _ h => h) (fun _ _ h => h) (fun _ _ _ _ h => h)

theorem blockHalt_junction (t : State) : HaltWalk (fun s => s.junction = t.junction) :=
  HaltWalk.other (.other (fun _ _ h => h) (fun _ _ h => h) (fun _ _ h => h)) (fun _ _ h => h) (fun _ _ h => h) (fun _ _ h => h) (fun _ _ _ _ h => h)

theorem blockHalt_stop (t : State) : HaltWalk (fun s => s.stop = t.stop) :=
  HaltWalk.other (.other (fun _ _ h => h) (fun _ _ h => h) (fun _ _ h => h)) (fun _ _ h => h) (fun _ _ h => h) (fun _ _ h => h) (fun _ _ _ _ h => h)

theorem blockHalt_lines_role (t : State) : HaltWalk (fun s => s.lines.role = t.lines.role) :=
  HaltWalk.other (.other (fun _ _ h => h) (fun _ _ h => h) (fun _ _ h => h)) (fun _ _ h => h) (fun _ _ h => h) (fun _ _ h => h) (fun _ _ r _ h => r.trans h)

@[simp] theorem judgeEffort_pending (s : State) : (judgeEffort s).pending = s.pending :=
  judgeEffort_at (blockHalt_pending s) rfl

@[simp] theorem judgeEffort_now (s : State) : (judgeEffort s).now = s.now :=
  judgeEffort_at (blockHalt_now s) rfl

@[simp] theorem judgeEffort_freeCount (s : State) : (judgeEffort s).freeCount = s.freeCount :=
  judgeEffort_at (blockHalt_freeCount s) rfl

@[simp] theorem judgeEffort_pins (s : State) : (judgeEffort s).pins = s.pins :=
  judgeEffort_at (blockHalt_pins s) rfl

@[simp] theorem judgeEffort_axle (s : State) : (judgeEffort s).axle = s.axle :=
  judgeEffort_at (blockHalt_axle s) rfl

@[simp] theorem judgeEffort_adhesion (s : State) : (judgeEffort s).adhesion = s.adhesion :=
  judgeEffort_at (blockHalt_adhesion s) rfl

@[simp] theorem judgeEffort_vigilance (s : State) : (judgeEffort s).vigilance = s.vigilance :=
  judgeEffort_at (blockHalt_vigilance s) rfl

@[simp] theorem judgeEffort_route (s : State) : (judgeEffort s).route = s.route :=
  judgeEffort_at (blockHalt_route s) rfl

@[simp] theorem judgeEffort_junction (s : State) : (judgeEffort s).junction = s.junction :=
  judgeEffort_at (blockHalt_junction s) rfl

@[simp] theorem judgeEffort_stop (s : State) : (judgeEffort s).stop = s.stop :=
  judgeEffort_at (blockHalt_stop s) rfl

@[simp] theorem judgeEffort_lines_role (s : State) : (judgeEffort s).lines.role = s.lines.role :=
  judgeEffort_at (blockHalt_lines_role s) rfl

@[simp] theorem joinCauses_pending (cs : List Cause) (s : State) : (joinCauses cs s).pending = s.pending :=
  joinCauses_at (blockHalt_pending s) rfl

@[simp] theorem joinCauses_now (cs : List Cause) (s : State) : (joinCauses cs s).now = s.now :=
  joinCauses_at (blockHalt_now s) rfl

@[simp] theorem joinCauses_freeCount (cs : List Cause) (s : State) : (joinCauses cs s).freeCount = s.freeCount :=
  joinCauses_at (blockHalt_freeCount s) rfl

@[simp] theorem joinCauses_pins (cs : List Cause) (s : State) : (joinCauses cs s).pins = s.pins :=
  joinCauses_at (blockHalt_pins s) rfl

@[simp] theorem joinCauses_axle (cs : List Cause) (s : State) : (joinCauses cs s).axle = s.axle :=
  joinCauses_at (blockHalt_axle s) rfl

@[simp] theorem joinCauses_adhesion (cs : List Cause) (s : State) : (joinCauses cs s).adhesion = s.adhesion :=
  joinCauses_at (blockHalt_adhesion s) rfl

@[simp] theorem joinCauses_vigilance (cs : List Cause) (s : State) : (joinCauses cs s).vigilance = s.vigilance :=
  joinCauses_at (blockHalt_vigilance s) rfl

@[simp] theorem joinCauses_route (cs : List Cause) (s : State) : (joinCauses cs s).route = s.route :=
  joinCauses_at (blockHalt_route s) rfl

@[simp] theorem joinCauses_junction (cs : List Cause) (s : State) : (joinCauses cs s).junction = s.junction :=
  joinCauses_at (blockHalt_junction s) rfl

@[simp] theorem joinCauses_stop (cs : List Cause) (s : State) : (joinCauses cs s).stop = s.stop :=
  joinCauses_at (blockHalt_stop s) rfl

@[simp] theorem joinCauses_lines_role (cs : List Cause) (s : State) : (joinCauses cs s).lines.role = s.lines.role :=
  joinCauses_at (blockHalt_lines_role s) rfl

@[simp] theorem dropCauses_pending (cs : List Cause) (s : State) : (dropCauses cs s).pending = s.pending :=
  dropCauses_at (blockHalt_pending s) rfl

@[simp] theorem dropCauses_now (cs : List Cause) (s : State) : (dropCauses cs s).now = s.now :=
  dropCauses_at (blockHalt_now s) rfl

@[simp] theorem dropCauses_freeCount (cs : List Cause) (s : State) : (dropCauses cs s).freeCount = s.freeCount :=
  dropCauses_at (blockHalt_freeCount s) rfl

@[simp] theorem dropCauses_pins (cs : List Cause) (s : State) : (dropCauses cs s).pins = s.pins :=
  dropCauses_at (blockHalt_pins s) rfl

@[simp] theorem dropCauses_axle (cs : List Cause) (s : State) : (dropCauses cs s).axle = s.axle :=
  dropCauses_at (blockHalt_axle s) rfl

@[simp] theorem dropCauses_adhesion (cs : List Cause) (s : State) : (dropCauses cs s).adhesion = s.adhesion :=
  dropCauses_at (blockHalt_adhesion s) rfl

@[simp] theorem dropCauses_vigilance (cs : List Cause) (s : State) : (dropCauses cs s).vigilance = s.vigilance :=
  dropCauses_at (blockHalt_vigilance s) rfl

@[simp] theorem dropCauses_route (cs : List Cause) (s : State) : (dropCauses cs s).route = s.route :=
  dropCauses_at (blockHalt_route s) rfl

@[simp] theorem dropCauses_junction (cs : List Cause) (s : State) : (dropCauses cs s).junction = s.junction :=
  dropCauses_at (blockHalt_junction s) rfl

@[simp] theorem dropCauses_stop (cs : List Cause) (s : State) : (dropCauses cs s).stop = s.stop :=
  dropCauses_at (blockHalt_stop s) rfl

@[simp] theorem dropCauses_lines_role (cs : List Cause) (s : State) : (dropCauses cs s).lines.role = s.lines.role :=
  dropCauses_at (blockHalt_lines_role s) rfl

@[simp] theorem senseHalt_pending (s : State) : (senseHalt s).pending = s.pending :=
  senseHalt_at (blockHalt_pending s) rfl

@[simp] theorem senseHalt_now (s : State) : (senseHalt s).now = s.now :=
  senseHalt_at (blockHalt_now s) rfl

@[simp] theorem senseHalt_freeCount (s : State) : (senseHalt s).freeCount = s.freeCount :=
  senseHalt_at (blockHalt_freeCount s) rfl

@[simp] theorem senseHalt_pins (s : State) : (senseHalt s).pins = s.pins :=
  senseHalt_at (blockHalt_pins s) rfl

@[simp] theorem senseHalt_axle (s : State) : (senseHalt s).axle = s.axle :=
  senseHalt_at (blockHalt_axle s) rfl

@[simp] theorem senseHalt_adhesion (s : State) : (senseHalt s).adhesion = s.adhesion :=
  senseHalt_at (blockHalt_adhesion s) rfl

@[simp] theorem senseHalt_vigilance (s : State) : (senseHalt s).vigilance = s.vigilance :=
  senseHalt_at (blockHalt_vigilance s) rfl

@[simp] theorem senseHalt_route (s : State) : (senseHalt s).route = s.route :=
  senseHalt_at (blockHalt_route s) rfl

@[simp] theorem senseHalt_junction (s : State) : (senseHalt s).junction = s.junction :=
  senseHalt_at (blockHalt_junction s) rfl

@[simp] theorem senseHalt_stop (s : State) : (senseHalt s).stop = s.stop :=
  senseHalt_at (blockHalt_stop s) rfl

@[simp] theorem senseHalt_lines_role (s : State) : (senseHalt s).lines.role = s.lines.role :=
  senseHalt_at (blockHalt_lines_role s) rfl

@[simp] theorem judgeDrive_pending (s : State) : (judgeDrive s).pending = s.pending :=
  judgeDrive_at (blockHalt_pending s) rfl

@[simp] theorem judgeDrive_now (s : State) : (judgeDrive s).now = s.now :=
  judgeDrive_at (blockHalt_now s) rfl

@[simp] theorem judgeDrive_freeCount (s : State) : (judgeDrive s).freeCount = s.freeCount :=
  judgeDrive_at (blockHalt_freeCount s) rfl

@[simp] theorem judgeDrive_pins (s : State) : (judgeDrive s).pins = s.pins :=
  judgeDrive_at (blockHalt_pins s) rfl

@[simp] theorem judgeDrive_axle (s : State) : (judgeDrive s).axle = s.axle :=
  judgeDrive_at (blockHalt_axle s) rfl

@[simp] theorem judgeDrive_adhesion (s : State) : (judgeDrive s).adhesion = s.adhesion :=
  judgeDrive_at (blockHalt_adhesion s) rfl

@[simp] theorem judgeDrive_vigilance (s : State) : (judgeDrive s).vigilance = s.vigilance :=
  judgeDrive_at (blockHalt_vigilance s) rfl

@[simp] theorem judgeDrive_route (s : State) : (judgeDrive s).route = s.route :=
  judgeDrive_at (blockHalt_route s) rfl

@[simp] theorem judgeDrive_junction (s : State) : (judgeDrive s).junction = s.junction :=
  judgeDrive_at (blockHalt_junction s) rfl

@[simp] theorem judgeDrive_stop (s : State) : (judgeDrive s).stop = s.stop :=
  judgeDrive_at (blockHalt_stop s) rfl

@[simp] theorem judgeDrive_lines_role (s : State) : (judgeDrive s).lines.role = s.lines.role :=
  judgeDrive_at (blockHalt_lines_role s) rfl

@[simp] theorem addCauses_pending (cs : List Cause) (s : State) : (addCauses cs s).pending = s.pending :=
  addCauses_at (blockHalt_pending s) rfl

@[simp] theorem addCauses_now (cs : List Cause) (s : State) : (addCauses cs s).now = s.now :=
  addCauses_at (blockHalt_now s) rfl

@[simp] theorem addCauses_freeCount (cs : List Cause) (s : State) : (addCauses cs s).freeCount = s.freeCount :=
  addCauses_at (blockHalt_freeCount s) rfl

@[simp] theorem addCauses_pins (cs : List Cause) (s : State) : (addCauses cs s).pins = s.pins :=
  addCauses_at (blockHalt_pins s) rfl

@[simp] theorem addCauses_axle (cs : List Cause) (s : State) : (addCauses cs s).axle = s.axle :=
  addCauses_at (blockHalt_axle s) rfl

@[simp] theorem addCauses_adhesion (cs : List Cause) (s : State) : (addCauses cs s).adhesion = s.adhesion :=
  addCauses_at (blockHalt_adhesion s) rfl

@[simp] theorem addCauses_vigilance (cs : List Cause) (s : State) : (addCauses cs s).vigilance = s.vigilance :=
  addCauses_at (blockHalt_vigilance s) rfl

@[simp] theorem addCauses_route (cs : List Cause) (s : State) : (addCauses cs s).route = s.route :=
  addCauses_at (blockHalt_route s) rfl

@[simp] theorem addCauses_junction (cs : List Cause) (s : State) : (addCauses cs s).junction = s.junction :=
  addCauses_at (blockHalt_junction s) rfl

@[simp] theorem addCauses_stop (cs : List Cause) (s : State) : (addCauses cs s).stop = s.stop :=
  addCauses_at (blockHalt_stop s) rfl

@[simp] theorem addCauses_lines_role (cs : List Cause) (s : State) : (addCauses cs s).lines.role = s.lines.role :=
  addCauses_at (blockHalt_lines_role s) rfl

@[simp] theorem removeCauses_pending (cs : List Cause) (s : State) : (removeCauses cs s).pending = s.pending :=
  removeCauses_at (blockHalt_pending s) rfl

@[simp] theorem removeCauses_now (cs : List Cause) (s : State) : (removeCauses cs s).now = s.now :=
  removeCauses_at (blockHalt_now s) rfl

@[simp] theorem removeCauses_freeCount (cs : List Cause) (s : State) : (removeCauses cs s).freeCount = s.freeCount :=
  removeCauses_at (blockHalt_freeCount s) rfl

@[simp] theorem removeCauses_pins (cs : List Cause) (s : State) : (removeCauses cs s).pins = s.pins :=
  removeCauses_at (blockHalt_pins s) rfl

@[simp] theorem removeCauses_axle (cs : List Cause) (s : State) : (removeCauses cs s).axle = s.axle :=
  removeCauses_at (blockHalt_axle s) rfl

@[simp] theorem removeCauses_adhesion (cs : List Cause) (s : State) : (removeCauses cs s).adhesion = s.adhesion :=
  removeCauses_at (blockHalt_adhesion s) rfl

@[simp] theorem removeCauses_vigilance (cs : List Cause) (s : State) : (removeCauses cs s).vigilance = s.vigilance :=
  removeCauses_at (blockHalt_vigilance s) rfl

@[simp] theorem removeCauses_route (cs : List Cause) (s : State) : (removeCauses cs s).route = s.route :=
  removeCauses_at (blockHalt_route s) rfl

@[simp] theorem removeCauses_junction (cs : List Cause) (s : State) : (removeCauses cs s).junction = s.junction :=
  removeCauses_at (blockHalt_junction s) rfl

@[simp] theorem removeCauses_stop (cs : List Cause) (s : State) : (removeCauses cs s).stop = s.stop :=
  removeCauses_at (blockHalt_stop s) rfl

@[simp] theorem removeCauses_lines_role (cs : List Cause) (s : State) : (removeCauses cs s).lines.role = s.lines.role :=
  removeCauses_at (blockHalt_lines_role s) rfl

@[simp] theorem startPulse_pending (s : State) : (startPulse s).pending = s.pending :=
  startPulse_at (blockHalt_pending s) rfl

@[simp] theorem startPulse_now (s : State) : (startPulse s).now = s.now :=
  startPulse_at (blockHalt_now s) rfl

@[simp] theorem startPulse_freeCount (s : State) : (startPulse s).freeCount = s.freeCount :=
  startPulse_at (blockHalt_freeCount s) rfl

@[simp] theorem startPulse_pins (s : State) : (startPulse s).pins = s.pins :=
  startPulse_at (blockHalt_pins s) rfl

@[simp] theorem startPulse_axle (s : State) : (startPulse s).axle = s.axle :=
  startPulse_at (blockHalt_axle s) rfl

@[simp] theorem startPulse_adhesion (s : State) : (startPulse s).adhesion = s.adhesion :=
  startPulse_at (blockHalt_adhesion s) rfl

@[simp] theorem startPulse_vigilance (s : State) : (startPulse s).vigilance = s.vigilance :=
  startPulse_at (blockHalt_vigilance s) rfl

@[simp] theorem startPulse_route (s : State) : (startPulse s).route = s.route :=
  startPulse_at (blockHalt_route s) rfl

@[simp] theorem startPulse_junction (s : State) : (startPulse s).junction = s.junction :=
  startPulse_at (blockHalt_junction s) rfl

@[simp] theorem startPulse_stop (s : State) : (startPulse s).stop = s.stop :=
  startPulse_at (blockHalt_stop s) rfl

@[simp] theorem startPulse_lines_role (s : State) : (startPulse s).lines.role = s.lines.role :=
  startPulse_at (blockHalt_lines_role s) rfl

@[simp] theorem acknowledge_pending (x : Int) (s : State) : (acknowledge x s).pending = s.pending :=
  acknowledge_at { blockHalt_pending s with release := fun _ _ h => h } rfl

@[simp] theorem acknowledge_now (x : Int) (s : State) : (acknowledge x s).now = s.now :=
  acknowledge_at { blockHalt_now s with release := fun _ _ h => h } rfl

@[simp] theorem acknowledge_freeCount (x : Int) (s : State) : (acknowledge x s).freeCount = s.freeCount :=
  acknowledge_at { blockHalt_freeCount s with release := fun _ _ h => h } rfl

@[simp] theorem acknowledge_pins (x : Int) (s : State) : (acknowledge x s).pins = s.pins :=
  acknowledge_at { blockHalt_pins s with release := fun _ _ h => h } rfl

@[simp] theorem acknowledge_axle (x : Int) (s : State) : (acknowledge x s).axle = s.axle :=
  acknowledge_at { blockHalt_axle s with release := fun _ _ h => h } rfl

@[simp] theorem acknowledge_adhesion (x : Int) (s : State) : (acknowledge x s).adhesion = s.adhesion :=
  acknowledge_at { blockHalt_adhesion s with release := fun _ _ h => h } rfl

@[simp] theorem acknowledge_vigilance (x : Int) (s : State) : (acknowledge x s).vigilance = s.vigilance :=
  acknowledge_at { blockHalt_vigilance s with release := fun _ _ h => h } rfl

@[simp] theorem acknowledge_route (x : Int) (s : State) : (acknowledge x s).route = s.route :=
  acknowledge_at { blockHalt_route s with release := fun _ _ h => h } rfl

@[simp] theorem acknowledge_junction (x : Int) (s : State) : (acknowledge x s).junction = s.junction :=
  acknowledge_at { blockHalt_junction s with release := fun _ _ h => h } rfl

@[simp] theorem acknowledge_stop (x : Int) (s : State) : (acknowledge x s).stop = s.stop :=
  acknowledge_at { blockHalt_stop s with release := fun _ _ h => h } rfl

@[simp] theorem acknowledge_lines_role (x : Int) (s : State) : (acknowledge x s).lines.role = s.lines.role :=
  acknowledge_at { blockHalt_lines_role s with release := fun _ _ h => h } rfl

@[simp] theorem judgeEmission_pending (x : Int) (s : State) : (judgeEmission x s).pending = s.pending :=
  judgeEmission_at (blockHalt_pending s) rfl

@[simp] theorem judgeEmission_now (x : Int) (s : State) : (judgeEmission x s).now = s.now :=
  judgeEmission_at (blockHalt_now s) rfl

@[simp] theorem judgeEmission_freeCount (x : Int) (s : State) : (judgeEmission x s).freeCount = s.freeCount :=
  judgeEmission_at (blockHalt_freeCount s) rfl

@[simp] theorem judgeEmission_pins (x : Int) (s : State) : (judgeEmission x s).pins = s.pins :=
  judgeEmission_at (blockHalt_pins s) rfl

@[simp] theorem judgeEmission_axle (x : Int) (s : State) : (judgeEmission x s).axle = s.axle :=
  judgeEmission_at (blockHalt_axle s) rfl

@[simp] theorem judgeEmission_adhesion (x : Int) (s : State) : (judgeEmission x s).adhesion = s.adhesion :=
  judgeEmission_at (blockHalt_adhesion s) rfl

@[simp] theorem judgeEmission_vigilance (x : Int) (s : State) : (judgeEmission x s).vigilance = s.vigilance :=
  judgeEmission_at (blockHalt_vigilance s) rfl

@[simp] theorem judgeEmission_route (x : Int) (s : State) : (judgeEmission x s).route = s.route :=
  judgeEmission_at (blockHalt_route s) rfl

@[simp] theorem judgeEmission_junction (x : Int) (s : State) : (judgeEmission x s).junction = s.junction :=
  judgeEmission_at (blockHalt_junction s) rfl

@[simp] theorem judgeEmission_stop (x : Int) (s : State) : (judgeEmission x s).stop = s.stop :=
  judgeEmission_at (blockHalt_stop s) rfl

@[simp] theorem judgeEmission_lines_role (x : Int) (s : State) : (judgeEmission x s).lines.role = s.lines.role :=
  judgeEmission_at (blockHalt_lines_role s) rfl

@[simp] theorem driveTrainLines_pending (x : Int) (s : State) : (driveTrainLines x s).pending = s.pending :=
  driveTrainLines_at (blockHalt_pending s) rfl

@[simp] theorem driveTrainLines_now (x : Int) (s : State) : (driveTrainLines x s).now = s.now :=
  driveTrainLines_at (blockHalt_now s) rfl

@[simp] theorem driveTrainLines_freeCount (x : Int) (s : State) : (driveTrainLines x s).freeCount = s.freeCount :=
  driveTrainLines_at (blockHalt_freeCount s) rfl

@[simp] theorem driveTrainLines_pins (x : Int) (s : State) : (driveTrainLines x s).pins = s.pins :=
  driveTrainLines_at (blockHalt_pins s) rfl

@[simp] theorem driveTrainLines_axle (x : Int) (s : State) : (driveTrainLines x s).axle = s.axle :=
  driveTrainLines_at (blockHalt_axle s) rfl

@[simp] theorem driveTrainLines_adhesion (x : Int) (s : State) : (driveTrainLines x s).adhesion = s.adhesion :=
  driveTrainLines_at (blockHalt_adhesion s) rfl

@[simp] theorem driveTrainLines_vigilance (x : Int) (s : State) : (driveTrainLines x s).vigilance = s.vigilance :=
  driveTrainLines_at (blockHalt_vigilance s) rfl

@[simp] theorem driveTrainLines_route (x : Int) (s : State) : (driveTrainLines x s).route = s.route :=
  driveTrainLines_at (blockHalt_route s) rfl

@[simp] theorem driveTrainLines_junction (x : Int) (s : State) : (driveTrainLines x s).junction = s.junction :=
  driveTrainLines_at (blockHalt_junction s) rfl

@[simp] theorem driveTrainLines_stop (x : Int) (s : State) : (driveTrainLines x s).stop = s.stop :=
  driveTrainLines_at (blockHalt_stop s) rfl

@[simp] theorem driveTrainLines_lines_role (x : Int) (s : State) : (driveTrainLines x s).lines.role = s.lines.role :=
  driveTrainLines_at (blockHalt_lines_role s) rfl

@[simp] theorem writeOutputs_pending (x : Int) (s : State) : (writeOutputs x s).pending = s.pending :=
  writeOutputs_at (blockHalt_pending s) rfl

@[simp] theorem writeOutputs_now (x : Int) (s : State) : (writeOutputs x s).now = s.now :=
  writeOutputs_at (blockHalt_now s) rfl

@[simp] theorem writeOutputs_freeCount (x : Int) (s : State) : (writeOutputs x s).freeCount = s.freeCount :=
  writeOutputs_at (blockHalt_freeCount s) rfl

@[simp] theorem writeOutputs_pins (x : Int) (s : State) : (writeOutputs x s).pins = s.pins :=
  writeOutputs_at (blockHalt_pins s) rfl

@[simp] theorem writeOutputs_axle (x : Int) (s : State) : (writeOutputs x s).axle = s.axle :=
  writeOutputs_at (blockHalt_axle s) rfl

@[simp] theorem writeOutputs_adhesion (x : Int) (s : State) : (writeOutputs x s).adhesion = s.adhesion :=
  writeOutputs_at (blockHalt_adhesion s) rfl

@[simp] theorem writeOutputs_vigilance (x : Int) (s : State) : (writeOutputs x s).vigilance = s.vigilance :=
  writeOutputs_at (blockHalt_vigilance s) rfl

@[simp] theorem writeOutputs_route (x : Int) (s : State) : (writeOutputs x s).route = s.route :=
  writeOutputs_at (blockHalt_route s) rfl

@[simp] theorem writeOutputs_junction (x : Int) (s : State) : (writeOutputs x s).junction = s.junction :=
  writeOutputs_at (blockHalt_junction s) rfl

@[simp] theorem writeOutputs_stop (x : Int) (s : State) : (writeOutputs x s).stop = s.stop :=
  writeOutputs_at (blockHalt_stop s) rfl

@[simp] theorem writeOutputs_lines_role (x : Int) (s : State) : (writeOutputs x s).lines.role = s.lines.role :=
  writeOutputs_at (blockHalt_lines_role s) rfl


/-! ### The route engine and the junction unit -/

theorem blockJunction_pending (t : State) : JunctionWalk (fun s => s.pending = t.pending) :=
  { blockHalt_pending t, RouteWalk.other (P := fun s => s.pending = t.pending) (fun _ _ h => h) (fun _ _ h => h) with junction := fun _ h => h }

theorem blockJunction_now (t : State) : JunctionWalk (fun s => s.now = t.now) :=
  { blockHalt_now t, RouteWalk.other (P := fun s => s.now = t.now) (fun _ _ h => h) (fun _ _ h => h) with junction := fun _ h => h }

theorem blockJunction_freeCount (t : State) : JunctionWalk (fun s => s.freeCount = t.freeCount) :=
  { blockHalt_freeCount t, RouteWalk.other (P := fun s => s.freeCount = t.freeCount) (fun _ _ h => h) (fun _ _ h => h) with junction := fun _ h => h }

theorem blockJunction_pins (t : State) : JunctionWalk (fun s => s.pins = t.pins) :=
  { blockHalt_pins t, RouteWalk.other (P := fun s => s.pins = t.pins) (fun _ _ h => h) (fun _ _ h => h) with junction := fun _ h => h }

theorem blockJunction_axle (t : State) : JunctionWalk (fun s => s.axle = t.axle) :=
  { blockHalt_axle t, RouteWalk.other (P := fun s => s.axle = t.axle) (fun _ _ h => h) (fun _ _ h => h) with junction := fun _ h => h }

theorem blockJunction_vigilance (t : State) : JunctionWalk (fun s => s.vigilance = t.vigilance) :=
  { blockHalt_vigilance t, RouteWalk.other (P := fun s => s.vigilance = t.vigilance) (fun _ _ h => h) (fun _ _ h => h) with junction := fun _ h => h }

theorem blockJunction_stop (t : State) : JunctionWalk (fun s => s.stop = t.stop) :=
  { blockHalt_stop t, RouteWalk.other (P := fun s => s.stop = t.stop) (fun _ _ h => h) (fun _ _ h => h) with junction := fun _ h => h }

theorem blockJunction_lines_role (t : State) : JunctionWalk (fun s => s.lines.role = t.lines.role) :=
  { blockHalt_lines_role t, RouteWalk.other (P := fun s => s.lines.role = t.lines.role) (fun _ _ h => h) (fun _ _ h => h) with junction := fun _ h => h }

@[simp] theorem judgeRoute_pending (s : State) : (judgeRoute s).pending = s.pending :=
  judgeRoute_at (blockJunction_pending s) rfl

@[simp] theorem judgeRoute_now (s : State) : (judgeRoute s).now = s.now :=
  judgeRoute_at (blockJunction_now s) rfl

@[simp] theorem judgeRoute_freeCount (s : State) : (judgeRoute s).freeCount = s.freeCount :=
  judgeRoute_at (blockJunction_freeCount s) rfl

@[simp] theorem judgeRoute_pins (s : State) : (judgeRoute s).pins = s.pins :=
  judgeRoute_at (blockJunction_pins s) rfl

@[simp] theorem judgeRoute_axle (s : State) : (judgeRoute s).axle = s.axle :=
  judgeRoute_at (blockJunction_axle s) rfl

@[simp] theorem judgeRoute_vigilance (s : State) : (judgeRoute s).vigilance = s.vigilance :=
  judgeRoute_at (blockJunction_vigilance s) rfl

@[simp] theorem judgeRoute_stop (s : State) : (judgeRoute s).stop = s.stop :=
  judgeRoute_at (blockJunction_stop s) rfl

@[simp] theorem judgeRoute_lines_role (s : State) : (judgeRoute s).lines.role = s.lines.role :=
  judgeRoute_at (blockJunction_lines_role s) rfl

@[simp] theorem tryGrant_pending (s : State) : (tryGrant s).pending = s.pending :=
  tryGrant_at (blockJunction_pending s) rfl

@[simp] theorem tryGrant_now (s : State) : (tryGrant s).now = s.now :=
  tryGrant_at (blockJunction_now s) rfl

@[simp] theorem tryGrant_freeCount (s : State) : (tryGrant s).freeCount = s.freeCount :=
  tryGrant_at (blockJunction_freeCount s) rfl

@[simp] theorem tryGrant_pins (s : State) : (tryGrant s).pins = s.pins :=
  tryGrant_at (blockJunction_pins s) rfl

@[simp] theorem tryGrant_axle (s : State) : (tryGrant s).axle = s.axle :=
  tryGrant_at (blockJunction_axle s) rfl

@[simp] theorem tryGrant_vigilance (s : State) : (tryGrant s).vigilance = s.vigilance :=
  tryGrant_at (blockJunction_vigilance s) rfl

@[simp] theorem tryGrant_stop (s : State) : (tryGrant s).stop = s.stop :=
  tryGrant_at (blockJunction_stop s) rfl

@[simp] theorem tryGrant_lines_role (s : State) : (tryGrant s).lines.role = s.lines.role :=
  tryGrant_at (blockJunction_lines_role s) rfl

@[simp] theorem serveWaiting_pending (s : State) : (serveWaiting s).pending = s.pending :=
  serveWaiting_at (blockJunction_pending s) rfl

@[simp] theorem serveWaiting_now (s : State) : (serveWaiting s).now = s.now :=
  serveWaiting_at (blockJunction_now s) rfl

@[simp] theorem serveWaiting_freeCount (s : State) : (serveWaiting s).freeCount = s.freeCount :=
  serveWaiting_at (blockJunction_freeCount s) rfl

@[simp] theorem serveWaiting_pins (s : State) : (serveWaiting s).pins = s.pins :=
  serveWaiting_at (blockJunction_pins s) rfl

@[simp] theorem serveWaiting_axle (s : State) : (serveWaiting s).axle = s.axle :=
  serveWaiting_at (blockJunction_axle s) rfl

@[simp] theorem serveWaiting_vigilance (s : State) : (serveWaiting s).vigilance = s.vigilance :=
  serveWaiting_at (blockJunction_vigilance s) rfl

@[simp] theorem serveWaiting_stop (s : State) : (serveWaiting s).stop = s.stop :=
  serveWaiting_at (blockJunction_stop s) rfl

@[simp] theorem serveWaiting_lines_role (s : State) : (serveWaiting s).lines.role = s.lines.role :=
  serveWaiting_at (blockJunction_lines_role s) rfl

@[simp] theorem enterJunction_pending (tag : Nat) (x : JunctionState) (s : State) : (enterJunction tag x s).pending = s.pending :=
  enterJunction_at (blockJunction_pending s) rfl

@[simp] theorem enterJunction_now (tag : Nat) (x : JunctionState) (s : State) : (enterJunction tag x s).now = s.now :=
  enterJunction_at (blockJunction_now s) rfl

@[simp] theorem enterJunction_freeCount (tag : Nat) (x : JunctionState) (s : State) : (enterJunction tag x s).freeCount = s.freeCount :=
  enterJunction_at (blockJunction_freeCount s) rfl

@[simp] theorem enterJunction_pins (tag : Nat) (x : JunctionState) (s : State) : (enterJunction tag x s).pins = s.pins :=
  enterJunction_at (blockJunction_pins s) rfl

@[simp] theorem enterJunction_axle (tag : Nat) (x : JunctionState) (s : State) : (enterJunction tag x s).axle = s.axle :=
  enterJunction_at (blockJunction_axle s) rfl

@[simp] theorem enterJunction_vigilance (tag : Nat) (x : JunctionState) (s : State) : (enterJunction tag x s).vigilance = s.vigilance :=
  enterJunction_at (blockJunction_vigilance s) rfl

@[simp] theorem enterJunction_stop (tag : Nat) (x : JunctionState) (s : State) : (enterJunction tag x s).stop = s.stop :=
  enterJunction_at (blockJunction_stop s) rfl

@[simp] theorem enterJunction_lines_role (tag : Nat) (x : JunctionState) (s : State) : (enterJunction tag x s).lines.role = s.lines.role :=
  enterJunction_at (blockJunction_lines_role s) rfl

@[simp] theorem crossMark_pending (e : Entry) (s : State) : (crossMark e s).pending = s.pending :=
  crossMark_at (blockJunction_pending s) rfl

@[simp] theorem crossMark_now (e : Entry) (s : State) : (crossMark e s).now = s.now :=
  crossMark_at (blockJunction_now s) rfl

@[simp] theorem crossMark_freeCount (e : Entry) (s : State) : (crossMark e s).freeCount = s.freeCount :=
  crossMark_at (blockJunction_freeCount s) rfl

@[simp] theorem crossMark_pins (e : Entry) (s : State) : (crossMark e s).pins = s.pins :=
  crossMark_at (blockJunction_pins s) rfl

@[simp] theorem crossMark_axle (e : Entry) (s : State) : (crossMark e s).axle = s.axle :=
  crossMark_at (blockJunction_axle s) rfl

@[simp] theorem crossMark_vigilance (e : Entry) (s : State) : (crossMark e s).vigilance = s.vigilance :=
  crossMark_at (blockJunction_vigilance s) rfl

@[simp] theorem crossMark_stop (e : Entry) (s : State) : (crossMark e s).stop = s.stop :=
  crossMark_at (blockJunction_stop s) rfl

@[simp] theorem crossMark_lines_role (e : Entry) (s : State) : (crossMark e s).lines.role = s.lines.role :=
  crossMark_at (blockJunction_lines_role s) rfl

@[simp] theorem sweep_pending (s : State) : (sweep s).pending = s.pending :=
  sweep_at (blockJunction_pending s) rfl

@[simp] theorem sweep_now (s : State) : (sweep s).now = s.now :=
  sweep_at (blockJunction_now s) rfl

@[simp] theorem sweep_freeCount (s : State) : (sweep s).freeCount = s.freeCount :=
  sweep_at (blockJunction_freeCount s) rfl

@[simp] theorem sweep_pins (s : State) : (sweep s).pins = s.pins :=
  sweep_at (blockJunction_pins s) rfl

@[simp] theorem sweep_axle (s : State) : (sweep s).axle = s.axle :=
  sweep_at (blockJunction_axle s) rfl

@[simp] theorem sweep_vigilance (s : State) : (sweep s).vigilance = s.vigilance :=
  sweep_at (blockJunction_vigilance s) rfl

@[simp] theorem sweep_stop (s : State) : (sweep s).stop = s.stop :=
  sweep_at (blockJunction_stop s) rfl

@[simp] theorem sweep_lines_role (s : State) : (sweep s).lines.role = s.lines.role :=
  sweep_at (blockJunction_lines_role s) rfl

@[simp] theorem routeSample_pending (s : State) : (routeSample s).pending = s.pending :=
  routeSample_at (blockJunction_pending s) rfl

@[simp] theorem routeSample_now (s : State) : (routeSample s).now = s.now :=
  routeSample_at (blockJunction_now s) rfl

@[simp] theorem routeSample_freeCount (s : State) : (routeSample s).freeCount = s.freeCount :=
  routeSample_at (blockJunction_freeCount s) rfl

@[simp] theorem routeSample_pins (s : State) : (routeSample s).pins = s.pins :=
  routeSample_at (blockJunction_pins s) rfl

@[simp] theorem routeSample_axle (s : State) : (routeSample s).axle = s.axle :=
  routeSample_at (blockJunction_axle s) rfl

@[simp] theorem routeSample_vigilance (s : State) : (routeSample s).vigilance = s.vigilance :=
  routeSample_at (blockJunction_vigilance s) rfl

@[simp] theorem routeSample_stop (s : State) : (routeSample s).stop = s.stop :=
  routeSample_at (blockJunction_stop s) rfl

@[simp] theorem routeSample_lines_role (s : State) : (routeSample s).lines.role = s.lines.role :=
  routeSample_at (blockJunction_lines_role s) rfl

@[simp] theorem positionFix_pending (tag : Nat) (s : State) : (positionFix tag s).pending = s.pending :=
  positionFix_at (blockJunction_pending s) rfl

@[simp] theorem positionFix_now (tag : Nat) (s : State) : (positionFix tag s).now = s.now :=
  positionFix_at (blockJunction_now s) rfl

@[simp] theorem positionFix_freeCount (tag : Nat) (s : State) : (positionFix tag s).freeCount = s.freeCount :=
  positionFix_at (blockJunction_freeCount s) rfl

@[simp] theorem positionFix_pins (tag : Nat) (s : State) : (positionFix tag s).pins = s.pins :=
  positionFix_at (blockJunction_pins s) rfl

@[simp] theorem positionFix_axle (tag : Nat) (s : State) : (positionFix tag s).axle = s.axle :=
  positionFix_at (blockJunction_axle s) rfl

@[simp] theorem positionFix_vigilance (tag : Nat) (s : State) : (positionFix tag s).vigilance = s.vigilance :=
  positionFix_at (blockJunction_vigilance s) rfl

@[simp] theorem positionFix_stop (tag : Nat) (s : State) : (positionFix tag s).stop = s.stop :=
  positionFix_at (blockJunction_stop s) rfl

@[simp] theorem positionFix_lines_role (tag : Nat) (s : State) : (positionFix tag s).lines.role = s.lines.role :=
  positionFix_at (blockJunction_lines_role s) rfl

@[simp] theorem afterEmptying_pending (l : List Entry) (s : State) : (afterEmptying l s).pending = s.pending :=
  afterEmptying_at (blockJunction_pending s) rfl

@[simp] theorem afterEmptying_now (l : List Entry) (s : State) : (afterEmptying l s).now = s.now :=
  afterEmptying_at (blockJunction_now s) rfl

@[simp] theorem afterEmptying_freeCount (l : List Entry) (s : State) : (afterEmptying l s).freeCount = s.freeCount :=
  afterEmptying_at (blockJunction_freeCount s) rfl

@[simp] theorem afterEmptying_pins (l : List Entry) (s : State) : (afterEmptying l s).pins = s.pins :=
  afterEmptying_at (blockJunction_pins s) rfl

@[simp] theorem afterEmptying_axle (l : List Entry) (s : State) : (afterEmptying l s).axle = s.axle :=
  afterEmptying_at (blockJunction_axle s) rfl

@[simp] theorem afterEmptying_vigilance (l : List Entry) (s : State) : (afterEmptying l s).vigilance = s.vigilance :=
  afterEmptying_at (blockJunction_vigilance s) rfl

@[simp] theorem afterEmptying_stop (l : List Entry) (s : State) : (afterEmptying l s).stop = s.stop :=
  afterEmptying_at (blockJunction_stop s) rfl

@[simp] theorem afterEmptying_lines_role (l : List Entry) (s : State) : (afterEmptying l s).lines.role = s.lines.role :=
  afterEmptying_at (blockJunction_lines_role s) rfl


/-! ### The stop-request unit -/

theorem blockStop_pending (t : State) : StopWalk (fun s => s.pending = t.pending) :=
  { blockSound_pending t, RouteWalk.other (P := fun s => s.pending = t.pending) (fun _ _ h => h) (fun _ _ h => h) with stop := fun h => h }

theorem blockStop_now (t : State) : StopWalk (fun s => s.now = t.now) :=
  { blockSound_now t, RouteWalk.other (P := fun s => s.now = t.now) (fun _ _ h => h) (fun _ _ h => h) with stop := fun h => h }

theorem blockStop_freeCount (t : State) : StopWalk (fun s => s.freeCount = t.freeCount) :=
  { blockSound_freeCount t, RouteWalk.other (P := fun s => s.freeCount = t.freeCount) (fun _ _ h => h) (fun _ _ h => h) with stop := fun h => h }

theorem blockStop_pins (t : State) : StopWalk (fun s => s.pins = t.pins) :=
  { blockSound_pins t, RouteWalk.other (P := fun s => s.pins = t.pins) (fun _ _ h => h) (fun _ _ h => h) with stop := fun h => h }

theorem blockStop_axle (t : State) : StopWalk (fun s => s.axle = t.axle) :=
  { blockSound_axle t, RouteWalk.other (P := fun s => s.axle = t.axle) (fun _ _ h => h) (fun _ _ h => h) with stop := fun h => h }

theorem blockStop_traction (t : State) : StopWalk (fun s => s.traction = t.traction) :=
  { blockSound_traction t, RouteWalk.other (P := fun s => s.traction = t.traction) (fun _ _ h => h) (fun _ _ h => h) with stop := fun h => h }

theorem blockStop_halt (t : State) : StopWalk (fun s => s.halt = t.halt) :=
  { blockSound_halt t, RouteWalk.other (P := fun s => s.halt = t.halt) (fun _ _ h => h) (fun _ _ h => h) with stop := fun h => h }

theorem blockStop_vigilance (t : State) : StopWalk (fun s => s.vigilance = t.vigilance) :=
  { blockSound_vigilance t, RouteWalk.other (P := fun s => s.vigilance = t.vigilance) (fun _ _ h => h) (fun _ _ h => h) with stop := fun h => h }

theorem blockStop_lines (t : State) : StopWalk (fun s => s.lines = t.lines) :=
  { blockSound_lines t, RouteWalk.other (P := fun s => s.lines = t.lines) (fun _ _ h => h) (fun _ _ h => h) with stop := fun h => h }

theorem blockStop_junction (t : State) : StopWalk (fun s => s.junction = t.junction) :=
  { blockSound_junction t, RouteWalk.other (P := fun s => s.junction = t.junction) (fun _ _ h => h) (fun _ _ h => h) with stop := fun h => h }

@[simp] theorem judgeStops_pending (s : State) : (judgeStops s).pending = s.pending :=
  judgeStops_at (blockStop_pending s).toStoreWalk (blockStop_pending s).toRouteWalk rfl

@[simp] theorem judgeStops_now (s : State) : (judgeStops s).now = s.now :=
  judgeStops_at (blockStop_now s).toStoreWalk (blockStop_now s).toRouteWalk rfl

@[simp] theorem judgeStops_freeCount (s : State) : (judgeStops s).freeCount = s.freeCount :=
  judgeStops_at (blockStop_freeCount s).toStoreWalk (blockStop_freeCount s).toRouteWalk rfl

@[simp] theorem judgeStops_pins (s : State) : (judgeStops s).pins = s.pins :=
  judgeStops_at (blockStop_pins s).toStoreWalk (blockStop_pins s).toRouteWalk rfl

@[simp] theorem judgeStops_axle (s : State) : (judgeStops s).axle = s.axle :=
  judgeStops_at (blockStop_axle s).toStoreWalk (blockStop_axle s).toRouteWalk rfl

@[simp] theorem judgeStops_traction (s : State) : (judgeStops s).traction = s.traction :=
  judgeStops_at (blockStop_traction s).toStoreWalk (blockStop_traction s).toRouteWalk rfl

@[simp] theorem judgeStops_halt (s : State) : (judgeStops s).halt = s.halt :=
  judgeStops_at (blockStop_halt s).toStoreWalk (blockStop_halt s).toRouteWalk rfl

@[simp] theorem judgeStops_vigilance (s : State) : (judgeStops s).vigilance = s.vigilance :=
  judgeStops_at (blockStop_vigilance s).toStoreWalk (blockStop_vigilance s).toRouteWalk rfl

@[simp] theorem judgeStops_lines (s : State) : (judgeStops s).lines = s.lines :=
  judgeStops_at (blockStop_lines s).toStoreWalk (blockStop_lines s).toRouteWalk rfl

@[simp] theorem judgeStops_junction (s : State) : (judgeStops s).junction = s.junction :=
  judgeStops_at (blockStop_junction s).toStoreWalk (blockStop_junction s).toRouteWalk rfl

@[simp] theorem serveStops_pending (s : State) : (serveStops s).pending = s.pending :=
  serveStops_at (blockStop_pending s).toStoreWalk (blockStop_pending s).toRouteWalk rfl

@[simp] theorem serveStops_now (s : State) : (serveStops s).now = s.now :=
  serveStops_at (blockStop_now s).toStoreWalk (blockStop_now s).toRouteWalk rfl

@[simp] theorem serveStops_freeCount (s : State) : (serveStops s).freeCount = s.freeCount :=
  serveStops_at (blockStop_freeCount s).toStoreWalk (blockStop_freeCount s).toRouteWalk rfl

@[simp] theorem serveStops_pins (s : State) : (serveStops s).pins = s.pins :=
  serveStops_at (blockStop_pins s).toStoreWalk (blockStop_pins s).toRouteWalk rfl

@[simp] theorem serveStops_axle (s : State) : (serveStops s).axle = s.axle :=
  serveStops_at (blockStop_axle s).toStoreWalk (blockStop_axle s).toRouteWalk rfl

@[simp] theorem serveStops_traction (s : State) : (serveStops s).traction = s.traction :=
  serveStops_at (blockStop_traction s).toStoreWalk (blockStop_traction s).toRouteWalk rfl

@[simp] theorem serveStops_halt (s : State) : (serveStops s).halt = s.halt :=
  serveStops_at (blockStop_halt s).toStoreWalk (blockStop_halt s).toRouteWalk rfl

@[simp] theorem serveStops_vigilance (s : State) : (serveStops s).vigilance = s.vigilance :=
  serveStops_at (blockStop_vigilance s).toStoreWalk (blockStop_vigilance s).toRouteWalk rfl

@[simp] theorem serveStops_lines (s : State) : (serveStops s).lines = s.lines :=
  serveStops_at (blockStop_lines s).toStoreWalk (blockStop_lines s).toRouteWalk rfl

@[simp] theorem serveStops_junction (s : State) : (serveStops s).junction = s.junction :=
  serveStops_at (blockStop_junction s).toStoreWalk (blockStop_junction s).toRouteWalk rfl

@[simp] theorem trigger_pending (x : StopSource) (a : Bool) (s : State) : (trigger x a s).pending = s.pending :=
  trigger_at (blockStop_pending s) rfl

@[simp] theorem trigger_now (x : StopSource) (a : Bool) (s : State) : (trigger x a s).now = s.now :=
  trigger_at (blockStop_now s) rfl

@[simp] theorem trigger_freeCount (x : StopSource) (a : Bool) (s : State) : (trigger x a s).freeCount = s.freeCount :=
  trigger_at (blockStop_freeCount s) rfl

@[simp] theorem trigger_pins (x : StopSource) (a : Bool) (s : State) : (trigger x a s).pins = s.pins :=
  trigger_at (blockStop_pins s) rfl

@[simp] theorem trigger_axle (x : StopSource) (a : Bool) (s : State) : (trigger x a s).axle = s.axle :=
  trigger_at (blockStop_axle s) rfl

@[simp] theorem trigger_traction (x : StopSource) (a : Bool) (s : State) : (trigger x a s).traction = s.traction :=
  trigger_at (blockStop_traction s) rfl

@[simp] theorem trigger_halt (x : StopSource) (a : Bool) (s : State) : (trigger x a s).halt = s.halt :=
  trigger_at (blockStop_halt s) rfl

@[simp] theorem trigger_vigilance (x : StopSource) (a : Bool) (s : State) : (trigger x a s).vigilance = s.vigilance :=
  trigger_at (blockStop_vigilance s) rfl

@[simp] theorem trigger_lines (x : StopSource) (a : Bool) (s : State) : (trigger x a s).lines = s.lines :=
  trigger_at (blockStop_lines s) rfl

@[simp] theorem trigger_junction (x : StopSource) (a : Bool) (s : State) : (trigger x a s).junction = s.junction :=
  trigger_at (blockStop_junction s) rfl

@[simp] theorem clearStopLatch_pending (s : State) : (clearStopLatch s).pending = s.pending :=
  clearStopLatch_at (blockStop_pending s) rfl

@[simp] theorem clearStopLatch_now (s : State) : (clearStopLatch s).now = s.now :=
  clearStopLatch_at (blockStop_now s) rfl

@[simp] theorem clearStopLatch_freeCount (s : State) : (clearStopLatch s).freeCount = s.freeCount :=
  clearStopLatch_at (blockStop_freeCount s) rfl

@[simp] theorem clearStopLatch_pins (s : State) : (clearStopLatch s).pins = s.pins :=
  clearStopLatch_at (blockStop_pins s) rfl

@[simp] theorem clearStopLatch_axle (s : State) : (clearStopLatch s).axle = s.axle :=
  clearStopLatch_at (blockStop_axle s) rfl

@[simp] theorem clearStopLatch_traction (s : State) : (clearStopLatch s).traction = s.traction :=
  clearStopLatch_at (blockStop_traction s) rfl

@[simp] theorem clearStopLatch_halt (s : State) : (clearStopLatch s).halt = s.halt :=
  clearStopLatch_at (blockStop_halt s) rfl

@[simp] theorem clearStopLatch_vigilance (s : State) : (clearStopLatch s).vigilance = s.vigilance :=
  clearStopLatch_at (blockStop_vigilance s) rfl

@[simp] theorem clearStopLatch_lines (s : State) : (clearStopLatch s).lines = s.lines :=
  clearStopLatch_at (blockStop_lines s) rfl

@[simp] theorem clearStopLatch_junction (s : State) : (clearStopLatch s).junction = s.junction :=
  clearStopLatch_at (blockStop_junction s) rfl

@[simp] theorem scanButtons_pending (l : List Nat) (s : State) : (scanButtons l s).pending = s.pending :=
  scanButtons_at (blockStop_pending s) rfl

@[simp] theorem scanButtons_now (l : List Nat) (s : State) : (scanButtons l s).now = s.now :=
  scanButtons_at (blockStop_now s) rfl

@[simp] theorem scanButtons_freeCount (l : List Nat) (s : State) : (scanButtons l s).freeCount = s.freeCount :=
  scanButtons_at (blockStop_freeCount s) rfl

@[simp] theorem scanButtons_pins (l : List Nat) (s : State) : (scanButtons l s).pins = s.pins :=
  scanButtons_at (blockStop_pins s) rfl

@[simp] theorem scanButtons_axle (l : List Nat) (s : State) : (scanButtons l s).axle = s.axle :=
  scanButtons_at (blockStop_axle s) rfl

@[simp] theorem scanButtons_traction (l : List Nat) (s : State) : (scanButtons l s).traction = s.traction :=
  scanButtons_at (blockStop_traction s) rfl

@[simp] theorem scanButtons_halt (l : List Nat) (s : State) : (scanButtons l s).halt = s.halt :=
  scanButtons_at (blockStop_halt s) rfl

@[simp] theorem scanButtons_vigilance (l : List Nat) (s : State) : (scanButtons l s).vigilance = s.vigilance :=
  scanButtons_at (blockStop_vigilance s) rfl

@[simp] theorem scanButtons_lines (l : List Nat) (s : State) : (scanButtons l s).lines = s.lines :=
  scanButtons_at (blockStop_lines s) rfl

@[simp] theorem scanButtons_junction (l : List Nat) (s : State) : (scanButtons l s).junction = s.junction :=
  scanButtons_at (blockStop_junction s) rfl


/-! ### The vigilance monitor -/

theorem blockVigil_pending (t : State) : VigilWalk (fun s => s.pending = t.pending) :=
  { blockHalt_pending t with vigil := fun _ h => h }

theorem blockVigil_now (t : State) : VigilWalk (fun s => s.now = t.now) :=
  { blockHalt_now t with vigil := fun _ h => h }

theorem blockVigil_freeCount (t : State) : VigilWalk (fun s => s.freeCount = t.freeCount) :=
  { blockHalt_freeCount t with vigil := fun _ h => h }

theorem blockVigil_pins (t : State) : VigilWalk (fun s => s.pins = t.pins) :=
  { blockHalt_pins t with vigil := fun _ h => h }

theorem blockVigil_axle (t : State) : VigilWalk (fun s => s.axle = t.axle) :=
  { blockHalt_axle t with vigil := fun _ h => h }

theorem blockVigil_adhesion (t : State) : VigilWalk (fun s => s.adhesion = t.adhesion) :=
  { blockHalt_adhesion t with vigil := fun _ h => h }

theorem blockVigil_route (t : State) : VigilWalk (fun s => s.route = t.route) :=
  { blockHalt_route t with vigil := fun _ h => h }

theorem blockVigil_junction (t : State) : VigilWalk (fun s => s.junction = t.junction) :=
  { blockHalt_junction t with vigil := fun _ h => h }

theorem blockVigil_stop (t : State) : VigilWalk (fun s => s.stop = t.stop) :=
  { blockHalt_stop t with vigil := fun _ h => h }

theorem blockVigil_lines_role (t : State) : VigilWalk (fun s => s.lines.role = t.lines.role) :=
  { blockHalt_lines_role t with vigil := fun _ h => h }

@[simp] theorem judgeVigilance_pending (s : State) : (judgeVigilance s).pending = s.pending :=
  judgeVigilance_at (blockVigil_pending s) rfl

@[simp] theorem judgeVigilance_now (s : State) : (judgeVigilance s).now = s.now :=
  judgeVigilance_at (blockVigil_now s) rfl

@[simp] theorem judgeVigilance_freeCount (s : State) : (judgeVigilance s).freeCount = s.freeCount :=
  judgeVigilance_at (blockVigil_freeCount s) rfl

@[simp] theorem judgeVigilance_pins (s : State) : (judgeVigilance s).pins = s.pins :=
  judgeVigilance_at (blockVigil_pins s) rfl

@[simp] theorem judgeVigilance_axle (s : State) : (judgeVigilance s).axle = s.axle :=
  judgeVigilance_at (blockVigil_axle s) rfl

@[simp] theorem judgeVigilance_adhesion (s : State) : (judgeVigilance s).adhesion = s.adhesion :=
  judgeVigilance_at (blockVigil_adhesion s) rfl

@[simp] theorem judgeVigilance_route (s : State) : (judgeVigilance s).route = s.route :=
  judgeVigilance_at (blockVigil_route s) rfl

@[simp] theorem judgeVigilance_junction (s : State) : (judgeVigilance s).junction = s.junction :=
  judgeVigilance_at (blockVigil_junction s) rfl

@[simp] theorem judgeVigilance_stop (s : State) : (judgeVigilance s).stop = s.stop :=
  judgeVigilance_at (blockVigil_stop s) rfl

@[simp] theorem judgeVigilance_lines_role (s : State) : (judgeVigilance s).lines.role = s.lines.role :=
  judgeVigilance_at (blockVigil_lines_role s) rfl

@[simp] theorem vigilPressed_pending (s : State) : (vigilPressed s).pending = s.pending :=
  vigilPressed_at (blockVigil_pending s) rfl

@[simp] theorem vigilPressed_now (s : State) : (vigilPressed s).now = s.now :=
  vigilPressed_at (blockVigil_now s) rfl

@[simp] theorem vigilPressed_freeCount (s : State) : (vigilPressed s).freeCount = s.freeCount :=
  vigilPressed_at (blockVigil_freeCount s) rfl

@[simp] theorem vigilPressed_pins (s : State) : (vigilPressed s).pins = s.pins :=
  vigilPressed_at (blockVigil_pins s) rfl

@[simp] theorem vigilPressed_axle (s : State) : (vigilPressed s).axle = s.axle :=
  vigilPressed_at (blockVigil_axle s) rfl

@[simp] theorem vigilPressed_adhesion (s : State) : (vigilPressed s).adhesion = s.adhesion :=
  vigilPressed_at (blockVigil_adhesion s) rfl

@[simp] theorem vigilPressed_route (s : State) : (vigilPressed s).route = s.route :=
  vigilPressed_at (blockVigil_route s) rfl

@[simp] theorem vigilPressed_junction (s : State) : (vigilPressed s).junction = s.junction :=
  vigilPressed_at (blockVigil_junction s) rfl

@[simp] theorem vigilPressed_stop (s : State) : (vigilPressed s).stop = s.stop :=
  vigilPressed_at (blockVigil_stop s) rfl

@[simp] theorem vigilPressed_lines_role (s : State) : (vigilPressed s).lines.role = s.lines.role :=
  vigilPressed_at (blockVigil_lines_role s) rfl

@[simp] theorem vigilLifted_pending (s : State) : (vigilLifted s).pending = s.pending :=
  vigilLifted_at (blockVigil_pending s) rfl

@[simp] theorem vigilLifted_now (s : State) : (vigilLifted s).now = s.now :=
  vigilLifted_at (blockVigil_now s) rfl

@[simp] theorem vigilLifted_freeCount (s : State) : (vigilLifted s).freeCount = s.freeCount :=
  vigilLifted_at (blockVigil_freeCount s) rfl

@[simp] theorem vigilLifted_pins (s : State) : (vigilLifted s).pins = s.pins :=
  vigilLifted_at (blockVigil_pins s) rfl

@[simp] theorem vigilLifted_axle (s : State) : (vigilLifted s).axle = s.axle :=
  vigilLifted_at (blockVigil_axle s) rfl

@[simp] theorem vigilLifted_adhesion (s : State) : (vigilLifted s).adhesion = s.adhesion :=
  vigilLifted_at (blockVigil_adhesion s) rfl

@[simp] theorem vigilLifted_route (s : State) : (vigilLifted s).route = s.route :=
  vigilLifted_at (blockVigil_route s) rfl

@[simp] theorem vigilLifted_junction (s : State) : (vigilLifted s).junction = s.junction :=
  vigilLifted_at (blockVigil_junction s) rfl

@[simp] theorem vigilLifted_stop (s : State) : (vigilLifted s).stop = s.stop :=
  vigilLifted_at (blockVigil_stop s) rfl

@[simp] theorem vigilLifted_lines_role (s : State) : (vigilLifted s).lines.role = s.lines.role :=
  vigilLifted_at (blockVigil_lines_role s) rfl

@[simp] theorem enterWarnReleased_pending (s : State) : (enterWarnReleased s).pending = s.pending :=
  enterWarnReleased_at (blockVigil_pending s) rfl

@[simp] theorem enterWarnReleased_now (s : State) : (enterWarnReleased s).now = s.now :=
  enterWarnReleased_at (blockVigil_now s) rfl

@[simp] theorem enterWarnReleased_freeCount (s : State) : (enterWarnReleased s).freeCount = s.freeCount :=
  enterWarnReleased_at (blockVigil_freeCount s) rfl

@[simp] theorem enterWarnReleased_pins (s : State) : (enterWarnReleased s).pins = s.pins :=
  enterWarnReleased_at (blockVigil_pins s) rfl

@[simp] theorem enterWarnReleased_axle (s : State) : (enterWarnReleased s).axle = s.axle :=
  enterWarnReleased_at (blockVigil_axle s) rfl

@[simp] theorem enterWarnReleased_adhesion (s : State) : (enterWarnReleased s).adhesion = s.adhesion :=
  enterWarnReleased_at (blockVigil_adhesion s) rfl

@[simp] theorem enterWarnReleased_route (s : State) : (enterWarnReleased s).route = s.route :=
  enterWarnReleased_at (blockVigil_route s) rfl

@[simp] theorem enterWarnReleased_junction (s : State) : (enterWarnReleased s).junction = s.junction :=
  enterWarnReleased_at (blockVigil_junction s) rfl

@[simp] theorem enterWarnReleased_stop (s : State) : (enterWarnReleased s).stop = s.stop :=
  enterWarnReleased_at (blockVigil_stop s) rfl

@[simp] theorem enterWarnReleased_lines_role (s : State) : (enterWarnReleased s).lines.role = s.lines.role :=
  enterWarnReleased_at (blockVigil_lines_role s) rfl

@[simp] theorem enterWarnHeld_pending (s : State) : (enterWarnHeld s).pending = s.pending :=
  enterWarnHeld_at (blockVigil_pending s) rfl

@[simp] theorem enterWarnHeld_now (s : State) : (enterWarnHeld s).now = s.now :=
  enterWarnHeld_at (blockVigil_now s) rfl

@[simp] theorem enterWarnHeld_freeCount (s : State) : (enterWarnHeld s).freeCount = s.freeCount :=
  enterWarnHeld_at (blockVigil_freeCount s) rfl

@[simp] theorem enterWarnHeld_pins (s : State) : (enterWarnHeld s).pins = s.pins :=
  enterWarnHeld_at (blockVigil_pins s) rfl

@[simp] theorem enterWarnHeld_axle (s : State) : (enterWarnHeld s).axle = s.axle :=
  enterWarnHeld_at (blockVigil_axle s) rfl

@[simp] theorem enterWarnHeld_adhesion (s : State) : (enterWarnHeld s).adhesion = s.adhesion :=
  enterWarnHeld_at (blockVigil_adhesion s) rfl

@[simp] theorem enterWarnHeld_route (s : State) : (enterWarnHeld s).route = s.route :=
  enterWarnHeld_at (blockVigil_route s) rfl

@[simp] theorem enterWarnHeld_junction (s : State) : (enterWarnHeld s).junction = s.junction :=
  enterWarnHeld_at (blockVigil_junction s) rfl

@[simp] theorem enterWarnHeld_stop (s : State) : (enterWarnHeld s).stop = s.stop :=
  enterWarnHeld_at (blockVigil_stop s) rfl

@[simp] theorem enterWarnHeld_lines_role (s : State) : (enterWarnHeld s).lines.role = s.lines.role :=
  enterWarnHeld_at (blockVigil_lines_role s) rfl

@[simp] theorem enterTripped_pending (s : State) : (enterTripped s).pending = s.pending :=
  enterTripped_at (blockVigil_pending s) rfl

@[simp] theorem enterTripped_now (s : State) : (enterTripped s).now = s.now :=
  enterTripped_at (blockVigil_now s) rfl

@[simp] theorem enterTripped_freeCount (s : State) : (enterTripped s).freeCount = s.freeCount :=
  enterTripped_at (blockVigil_freeCount s) rfl

@[simp] theorem enterTripped_pins (s : State) : (enterTripped s).pins = s.pins :=
  enterTripped_at (blockVigil_pins s) rfl

@[simp] theorem enterTripped_axle (s : State) : (enterTripped s).axle = s.axle :=
  enterTripped_at (blockVigil_axle s) rfl

@[simp] theorem enterTripped_adhesion (s : State) : (enterTripped s).adhesion = s.adhesion :=
  enterTripped_at (blockVigil_adhesion s) rfl

@[simp] theorem enterTripped_route (s : State) : (enterTripped s).route = s.route :=
  enterTripped_at (blockVigil_route s) rfl

@[simp] theorem enterTripped_junction (s : State) : (enterTripped s).junction = s.junction :=
  enterTripped_at (blockVigil_junction s) rfl

@[simp] theorem enterTripped_stop (s : State) : (enterTripped s).stop = s.stop :=
  enterTripped_at (blockVigil_stop s) rfl

@[simp] theorem enterTripped_lines_role (s : State) : (enterTripped s).lines.role = s.lines.role :=
  enterTripped_at (blockVigil_lines_role s) rfl

end Sys2Proof.Machine
end

