-- ==== Sys2Proof/Laws/Codec.lean ====
section
/-! SUPPORT. Bytes and numbers: what is read back from the bytes of a number, of a request's payload, of a telegram. -/

namespace Sys2Proof

@[simp] theorem bytesBE_length (n : Nat) (x : Int) : (bytesBE n x).length = n := by
  induction n generalizing x with
  | zero => rfl
  | succ n ih => simp [bytesBE, ih]

theorem numOf_append (l m : List Byte) : numOf (l ++ m) = numOf l * 256 ^ m.length + numOf m := by
  induction l with
  | nil => simp [numOf]
  | cons b l ih =>
    have e : 256 ^ (l.length + m.length) = 256 ^ l.length * 256 ^ m.length := Nat.pow_add _ _ _
    simp only [List.cons_append, numOf, ih, List.length_append, e]
    ring

/-- The bytes of a number give it back modulo their range. -/
theorem numOf_bytesBE (n : Nat) (x : Int) : (numOf (bytesBE n x) : Int) = x % 256 ^ n := by
  induction n generalizing x with
  | zero => simp [bytesBE, numOf]
  | succ n ih =>
    have hb : ((BitVec.ofInt 8 x).toNat : Int) = x % 256 := by
      rw [BitVec.toNat_ofInt]; omega
    simp only [bytesBE, numOf_append, List.length_singleton, pow_one, Nat.cast_add, Nat.cast_mul, ih, numOf,
      List.length_nil, pow_zero, mul_one, add_zero, hb]
    have h0 : (256 : Int) ^ (n + 1) = 256 * 256 ^ n := by ring
    have h1 : x / (256 * 256 ^ n) = x / 256 / 256 ^ n := (Int.ediv_ediv_of_nonneg (by decide)).symm
    have h2 := Int.emod_def x (256 * 256 ^ n)
    have h3 := Int.emod_def (x / 256) (256 ^ n)
    have h4 := Int.emod_def x 256
    rw [h0, h2, h1, h3]
    push_cast
    rw [h4]; ring

/-- A number that fits its bytes is read back. -/
theorem numOf_bytesBE_nat {n x : Nat} (h : x < 256 ^ n) : numOf (bytesBE n (x : Int)) = x := by
  have h1 := numOf_bytesBE n (x : Int)
  have h2 : ((x : Int) % 256 ^ n) = x := Int.emod_eq_of_lt (by omega) (by exact_mod_cast h)
  omega

/-- A signed value of four bytes is read back. -/
theorem signed32Of_bytesBE {v : Int} (h : fitsSigned32 v = true) : signed32Of (bytesBE 4 v) = v := by
  simp only [fitsSigned32, Bool.and_eq_true, decide_eq_true_eq] at h
  have h1 := numOf_bytesBE 4 v
  rw [signed32Of, BitVec.toInt_eq_toNat_cond, BitVec.toNat_ofNat]
  norm_num at h1 ⊢
  split <;> omega

theorem fieldOf {n x : Nat} (h : fitsBytes n x = true) : numOf (bytesBE n (x : Int)) = x :=
  numOf_bytesBE_nat (by simpa [fitsBytes] using h)

theorem stepsOf_bytes {l : List (Nat × Nat)} (h : ∀ s ∈ l, fitsBytes 1 s.1 = true ∧ fitsBytes 1 s.2 = true) :
    stepsOf (l.flatMap fun s => bytesBE 1 s.1 ++ bytesBE 1 s.2) = l := by
  induction l with
  | nil => rfl
  | cons a l ih =>
    obtain ⟨h1, h2⟩ := h a List.mem_cons_self
    have e1 : (BitVec.ofInt 8 (a.1 : Int)).toNat = a.1 := by have := fieldOf h1; simpa [bytesBE, numOf] using this
    have e2 : (BitVec.ofInt 8 (a.2 : Int)).toNat = a.2 := by have := fieldOf h2; simpa [bytesBE, numOf] using this
    rw [List.flatMap_cons]
    show (_, _) :: stepsOf (l.flatMap fun s => bytesBE 1 s.1 ++ bytesBE 1 s.2) = _
    rw [ih fun s hs => h s (List.mem_cons_of_mem _ hs), e1, e2]

theorem flags_read (a b : Bool) :
    (flagByte a ||| (flagByte b <<< 1)).getLsbD 0 = a ∧ (flagByte a ||| (flagByte b <<< 1)).getLsbD 1 = b := by
  cases a <;> cases b <;> decide

/-- A route entry record is read back from its 29 bytes. -/
theorem EntryRecord.ofBytes_bytes {r : EntryRecord} (h : r.wf = true) : EntryRecord.ofBytes r.bytes = r := by
  simp only [EntryRecord.wf, Bool.and_eq_true] at h
  obtain ⟨⟨⟨⟨⟨⟨⟨⟨⟨h1, h2⟩, h3⟩, h4⟩, h5⟩, h6⟩, h7⟩, h8⟩, h9⟩, h10⟩ := h
  obtain ⟨f1, f2⟩ := flags_read r.fixPresent r.requestOnly
  rcases r with ⟨tag, kind, fp, ro, m1, m2, m3, m4, fx, ident, opt, ceil⟩
  simp only at *
  show EntryRecord.mk (numOf (bytesBE 2 tag)) (numOf (bytesBE 1 kind)) _ _ (numOf (bytesBE 4 m1)) (numOf (bytesBE 4 m2))
    (numOf (bytesBE 4 m3)) (numOf (bytesBE 4 m4)) (numOf (bytesBE 4 fx)) (numOf (bytesBE 2 ident)) (numOf (bytesBE 1 opt))
    (numOf (bytesBE 2 ceil)) = _
  rw [fieldOf h1, fieldOf h2, fieldOf h3, fieldOf h4, fieldOf h5, fieldOf h6, fieldOf h7, fieldOf h8, fieldOf h9, fieldOf h10]
  congr 1

theorem steps_length (l : List (Nat × Nat)) :
    (l.flatMap fun s => bytesBE 1 s.1 ++ bytesBE 1 s.2).length = 2 * l.length := by
  induction l with
  | nil => rfl
  | cons a l ih => simp only [List.flatMap_cons, List.length_append, bytesBE_length, ih, List.length_cons]; omega

/-- A request is read back from its kind and payload. -/
theorem parseRequest_payload {r : HostRequest} (h : r.wf = true) (hb : ∀ k, r ≠ .badLength k) :
    parseRequest r.kind r.payload = r := by
  cases r
  case badLength k => exact absurd rfl (hb k)
  case unknownKind k =>
    simp only [HostRequest.wf, Bool.and_eq_true, Bool.not_eq_true'] at h
    have hk := h.2
    show parseRequest k [] = _
    unfold parseRequest
    split
    all_goals first | rfl | (exfalso; revert hk; decide)
  case patternLoad p =>
    simp only [HostRequest.wf, PatternRecord.wf, Bool.and_eq_true, decide_eq_true_eq, List.all_eq_true] at h
    obtain ⟨⟨⟨⟨⟨h1, h2⟩, h3⟩, h4⟩, h5⟩, h6⟩ := h
    have h5' : fitsBytes 1 p.steps.length = true := by simp [fitsBytes]; omega
    rcases p with ⟨n, c, k, q, st⟩
    simp only at *
    have hl : (HostRequest.patternLoad ⟨n, c, k, q, st⟩).payload.length = 5 + 2 * st.length := by
      simp only [HostRequest.payload, List.length_append, bytesBE_length, steps_length]
    show (if _ = 5 + 2 * numOf (bytesBE 1 st.length) then HostRequest.patternLoad ⟨numOf (bytesBE 1 n), numOf (bytesBE 1 c),
      numOf (bytesBE 1 k), numOf (bytesBE 1 q), stepsOf (st.flatMap fun s => bytesBE 1 s.1 ++ bytesBE 1 s.2)⟩ else _) = _
    rw [fieldOf h5', if_pos hl, fieldOf h1, fieldOf h2, fieldOf h3, fieldOf h4, stepsOf_bytes fun s hs => by simpa using h6 s hs]
  case routeInsert e =>
    show HostRequest.routeInsert (.ofBytes e.bytes) = _
    rw [EntryRecord.ofBytes_bytes h]
  case set n v =>
    simp only [HostRequest.wf, Bool.and_eq_true] at h
    show HostRequest.set (numOf (bytesBE 2 n)) (signed32Of (bytesBE 4 v)) = _
    rw [fieldOf h.1, signed32Of_bytesBE h.2]
  case routeStart o =>
    show HostRequest.routeStart (numOf (bytesBE 4 o)) = _
    rw [fieldOf h]
  case routeRead a b =>
    simp only [HostRequest.wf, Bool.and_eq_true] at h
    show HostRequest.routeRead (numOf (bytesBE 1 a)) (numOf (bytesBE 2 b)) = _
    rw [fieldOf h.1, fieldOf h.2]
  case ident => rfl
  case status => rfl
  case routeEnd => rfl
  case loopReset => rfl
  case halt => rfl
  case resume => rfl
  case stopClear => rfl
  case get n => exact congrArg HostRequest.get (fieldOf h)
  case routeRemove n => exact congrArg HostRequest.routeRemove (fieldOf h)
  case junctionCancel n => exact congrArg HostRequest.junctionCancel (fieldOf h)
  case junctionRetry n => exact congrArg HostRequest.junctionRetry (fieldOf h)
  case events n => exact congrArg HostRequest.events (fieldOf h)
  case freeze n => exact congrArg HostRequest.freeze (fieldOf h)
  case thaw n => exact congrArg HostRequest.thaw (fieldOf h)
  case mask n => exact congrArg HostRequest.mask (fieldOf h)
  case unmask n => exact congrArg HostRequest.unmask (fieldOf h)
  case stopRequest n => exact congrArg HostRequest.stopRequest (fieldOf h)
  case play n => exact congrArg HostRequest.play (fieldOf h)
  case silence n => exact congrArg HostRequest.silence (fieldOf h)
  case axleRead n => exact congrArg HostRequest.axleRead (fieldOf h)
  case axleReset n => exact congrArg HostRequest.axleReset (fieldOf h)
  case buttonRead n => exact congrArg HostRequest.buttonRead (fieldOf h)
  case restart n => exact congrArg HostRequest.restart (fieldOf h)

end Sys2Proof
end

