-- ==== Sys2Proof/Laws/Facts.lean ====
section
/-! SUPPORT. Facts about single operations that later proofs cite: the event set, the settings, the ramp, the causes, the
requests, and the stages of a speed sample. -/

namespace Sys2Proof.Machine

/-! ### Events, settings, the ramp -/

/-- The order of EVENTS (R178). -/
theorem before_iff (a b : EventRecord) : a.before b = true ↔ b.kind < a.kind ∨ (a.kind = b.kind ∧ a.subject < b.subject) := by
  simp [EventRecord.before]

/-- An insertion adds one record. -/
theorem insertEvent_length (r : EventRecord) (l : List EventRecord) : (insertEvent r l).length = l.length + 1 := by
  induction l with
  | nil => rfl
  | cons x l ih => unfold insertEvent; split <;> simp [ih]

/-- An insertion adds no record but its own. -/
theorem mem_insertEvent {r x : EventRecord} {l : List EventRecord} (h : x ∈ insertEvent r l) : x = r ∨ x ∈ l := by
  induction l with
  | nil => simpa [insertEvent] using h
  | cons y l ih =>
    unfold insertEvent at h; split at h
    · simpa using h
    · simp only [List.mem_cons] at h ⊢
      rcases h with h | h
      · exact .inr (.inl h)
      · rcases ih h with h | h <;> tauto

/-- An insertion keeps the order. -/
theorem insertEvent_ordered {r : EventRecord} {l : List EventRecord} (hl : l.Pairwise fun a b => a.before b = true)
    (hr : ∀ x ∈ l, ¬(x.kind = r.kind ∧ x.subject = r.subject)) :
    (insertEvent r l).Pairwise fun a b => a.before b = true := by
  induction l with
  | nil => simp [insertEvent]
  | cons x l ih =>
    obtain ⟨hx, hl'⟩ := List.pairwise_cons.1 hl
    unfold insertEvent; split
    next hb =>
      refine List.pairwise_cons.2 ⟨fun y hy => ?_, hl⟩
      rcases List.mem_cons.1 hy with rfl | hy
      · exact hb
      · have := hx y hy
        rw [before_iff] at *; omega
    next hb =>
      refine List.pairwise_cons.2 ⟨fun y hy => ?_, ih hl' fun z hz => hr z (List.mem_cons_of_mem _ hz)⟩
      rcases mem_insertEvent hy with rfl | hy
      · have := hr x List.mem_cons_self
        rw [before_iff] at *; omega
      · exact hx y hy

/-- Raising an event keeps the law of the set (R177). -/
theorem enterEvent_law {r : EventRecord} {h : HostLink} (l : EventLaw h) :
    EventLaw { h with events := (enterEvent r h.events h.incomplete).1, incomplete := (enterEvent r h.events h.incomplete).2 } := by
  unfold enterEvent
  split
  · refine ⟨?_, by simpa using l.room, fun hi => by simpa using l.marked hi⟩
    simp only [List.pairwise_map]
    refine l.ordered.imp fun {a b} hab => ?_
    rw [before_iff] at *
    split <;> split <;> simp_all
  next hn =>
    have hn' : ∀ x ∈ h.events, ¬(x.kind = r.kind ∧ x.subject = r.subject) := by simpa using hn
    split
    next hlt => exact ⟨insertEvent_ordered l.ordered hn', by simp only [insertEvent_length]; omega, fun hi => by
        have := l.marked hi; intro e; have := congrArg List.length e; simp [insertEvent_length] at this⟩
    next hge =>
      split
      next c hc =>
        have hne : h.events ≠ [] := by intro e; simp [e] at hc
        split
        · refine ⟨insertEvent_ordered (l.ordered.sublist (List.dropLast_sublist _)) fun x hx => hn' x (List.mem_of_mem_dropLast hx), ?_, fun _ e => ?_⟩
          · have := l.room; simp [insertEvent_length]; have : 0 < h.events.length := List.length_pos_iff.2 hne; omega
          · have := congrArg List.length e; simp [insertEvent_length] at this
        · exact ⟨l.ordered, l.room, fun _ => hne⟩
      next hc =>
        exfalso; simp at hc; simp [hc, Config.maxEvents] at hge

/-- A flag put is the flag read. -/
theorem PerGroup.get_put (p : PerGroup) (g h : Group) (b : Bool) : (p.put g b).get h = if h = g then b else p.get h := by
  cases g <;> cases h <;> rfl

/-- The code of the group a code names. -/
theorem Group.ofCode_code {n : Nat} {g : Group} (h : Group.ofCode n = some g) : g.code = n := by
  unfold Group.ofCode at h
  split at h <;> first | (cases h; rfl) | cases h

/-- The group of a setting is its number by hundreds. -/
theorem groupOf_code {n : Nat} {g : Group} (h : groupOf n = some g) : g.code = settingGroup n := by
  unfold groupOf at h
  split at h
  · exact Group.ofCode_code h
  · cases h

/-- A setting is held back exactly in a LOCKED group. -/
theorem heldBack_iff (st : SettingsStore) (n : Nat) : heldBack st n = true ↔ ∃ g, groupOf n = some g ∧ st.locked.get g = true := by
  unfold heldBack; cases groupOf n <;> simp

/-- Values set one after another come from one of the two lists. -/
theorem foldl_listSet_mem {l acc : List (Nat × Int)} {p : Nat × Int} (h : p ∈ l.foldl (fun a q => listSet q.1 q.2 a) acc) :
    p ∈ acc ∨ p ∈ l := by
  induction l generalizing acc with
  | nil => exact .inl h
  | cons a l ih =>
    rcases ih h with h | h
    · rcases mem_listSet h with h | h
      · exact .inr (by simp [h])
      · exact .inl h
    · exact .inr (List.mem_cons_of_mem _ h)

/-- Judging a lock keeps the law of the settings (R168). -/
theorem judgeLock_settings {s : State} {g b} (l : SettingsLaw s.settings) : SettingsLaw (judgeLock g b s).settings := by
  unfold judgeLock; dsimp only
  split
  next hu =>
    have key : SettingsLaw { s.settings with
        locked := s.settings.locked.put g (b || s.settings.frozen.get g)
        effective := (s.settings.pending.filter fun p => settingGroup p.1 == g.code).foldl (fun l p => listSet p.1 p.2 l) s.settings.effective
        pending := s.settings.pending.filter fun p => settingGroup p.1 != g.code } := by
      refine ⟨fun p hp => ?_, fun p hp => l.pending p (List.mem_of_mem_filter hp), fun p hp => ?_⟩
      · rcases foldl_listSet_mem hp with h | h
        · exact l.effective p h
        · exact l.pending p (List.mem_of_mem_filter h)
      · have h1 := l.held p (List.mem_of_mem_filter hp)
        have h2 := (List.mem_filter.1 hp).2
        rw [heldBack_iff] at h1 ⊢
        obtain ⟨k, hk, hl⟩ := h1
        refine ⟨k, hk, ?_⟩
        rw [PerGroup.get_put, if_neg]
        · exact hl
        · rintro rfl; simp [groupOf_code hk] at h2
    unfold applyPending; dsimp only
    split <;> exact key
  next hu =>
    refine ⟨l.effective, l.pending, fun p hp => ?_⟩
    have h1 := l.held p hp
    rw [heldBack_iff] at h1 ⊢
    obtain ⟨k, hk, hl⟩ := h1
    refine ⟨k, hk, ?_⟩
    simp only [State.setSettings_settings, PerGroup.get_put]
    split
    next e =>
      subst e
      cases b <;> simp_all
    · exact hl

/-- A default lies in its range. -/
theorem settingAllows_default (n : Nat) (r : SettingRow) (h : settingRow n = some r) : r.lo ≤ settingDefault n ∧ settingDefault n ≤ r.hi := by
  have hm : r ∈ settingIndex := List.mem_of_find?_eq_some h
  have : ∀ r ∈ settingIndex, r.lo ≤ r.default ∧ r.default ≤ r.hi := by decide
  simpa [settingDefault, h] using this r hm

/-- A listed value is in the list. -/
theorem listed_mem {n : Nat} {v : Int} {l : List (Nat × Int)} (h : listed n l = some v) : (n, v) ∈ l := by
  induction l with
  | nil => cases h
  | cons a l ih =>
    obtain ⟨m, w⟩ := a
    unfold listed at h; split at h
    next e => cases h; simp [e]
    · exact List.mem_cons_of_mem _ (ih h)

/-- An effective value lies in the range of its row (R169). -/
theorem SettingsLaw.value_fits {st : SettingsStore} (l : SettingsLaw st) {n : Nat} {r : SettingRow} (h : settingRow n = some r) :
    r.lo ≤ st.value n ∧ st.value n ≤ r.hi := by
  unfold SettingsStore.value
  cases e : listed n st.effective with
  | none => exact settingAllows_default n r h
  | some v =>
    have := l.effective _ (listed_mem e)
    simpa [settingAllows, h] using this

/-- What closing the power gate leaves (R20). -/
theorem closeGate_cases (t : Traction) : (closeGate t).state = t.state ∧ (closeGate t).overspeed = t.overspeed ∧ (closeGate t).lastH = t.lastH ∧
    ((closeGate t).effort = 0 ∨ ((closeGate t).effort = t.effort ∧ t.effort ≤ 0)) := by
  unfold closeGate
  split
  · have := writeLines_keeps { t with effort := 0, effortA := 0, effortB := 0 }
    exact ⟨this.1, this.2.2.1, this.2.2.2, .inl this.2.1⟩
  · exact ⟨rfl, rfl, rfl, .inr ⟨rfl, by omega⟩⟩

/-- A step of the ramp does not make a braking E positive (R40). -/
theorem ramp_nonpos {rp rb rr e t : Int} (hb : 0 ≤ rb) (he : e ≤ 0) (ht : t ≤ 0) : rampEffort rp rb rr e t ≤ 0 := by
  unfold rampEffort; repeat' split
  all_goals omega

/-- A step of the ramp stays in range (R40). -/
theorem ramp_fits {rp rb rr e t : Int} (hp : 0 ≤ rp) (hb : 0 ≤ rb) (hr : 0 ≤ rr) (he : -1000 ≤ e ∧ e ≤ 1000) (ht : -1000 ≤ t ∧ t ≤ 1000) : -1000 ≤ rampEffort rp rb rr e t ∧ rampEffort rp rb rr e t ≤ 1000 := by
  unfold rampEffort; repeat' split
  all_goals omega

/-- The overspeed judgement keeps the law of power and the traction state (R22). -/
theorem judgeOverspeed_facts (st : SettingsStore) (s : State) (x : PowerLaw s) :
    PowerLaw (judgeOverspeed st s) ∧ (judgeOverspeed st s).traction.state = s.traction.state := by
  obtain ⟨a, b, c, d⟩ := x
  unfold judgeOverspeed; dsimp only
  split
  next h => exact ⟨⟨a, ⟨b.halted, b.latched⟩, ⟨c.effort, c.lastH⟩, fun h' => by have := d h'; simp_all⟩, rfl⟩
  next h =>
    split
    · split
      next hr =>
        obtain ⟨p, q, r, u⟩ := closeGate_cases { s.traction with ceilingInUse := s.route.ceiling, overspeed := true }
        refine ⟨⟨a, ⟨by rw [State.setTraction_traction, p]; exact b.halted, b.latched⟩, ⟨?_, by simpa [r] using c.lastH⟩, fun h' => ?_⟩, p⟩
        · have := c.effort; rcases u with u | u
          · rw [State.setTraction_traction, u]; decide
          · rw [State.setTraction_traction, u.1]; exact this
        · simp only [State.setTraction_traction] at h'
          rcases u with u | u
          · rw [u] at h'; exact absurd h' (by decide)
          · rw [u.1] at h'; have := u.2; simp only at this h'; omega
      next hr => exact ⟨⟨a, ⟨b.halted, b.latched⟩, ⟨c.effort, c.lastH⟩, fun h' => absurd (d h').1 hr⟩, rfl⟩
    · exact ⟨⟨a, ⟨b.halted, b.latched⟩, ⟨c.effort, c.lastH⟩, fun h' => d h'⟩, rfl⟩

/-! ### Causes -/

/-- Joining causes leaves the traction state or makes it HALTED (R24, R62). -/
theorem joinCauses_traction (cs : List Cause) (s : State) : (joinCauses cs s).traction.state = s.traction.state ∨ (joinCauses cs s).traction.state = .halted := by
  unfold joinCauses; split
  · exact .inl rfl
  next first more e =>
    have hb : ∀ u : State, (breachBraking u).traction.state = u.traction.state := fun u => by
      unfold breachBraking; dsimp only
      unfold judgeEffort; rw [judgeLock_eq]
      exact (writeLines_keeps _).1
    have ha : ∀ p (u : State), (askFor p u).traction = u.traction := fun p u =>
      askFor_at (P := fun t => t.traction = u.traction) (p := p) (.other (fun _ _ h => h) (fun _ _ h => h) (fun _ _ h => h)) rfl
    have hl : (setLatch first s).traction.state = .halted := by
      unfold setLatch; rw [ha]
      show (enterHalted _).traction.state = _
      unfold enterHalted; dsimp only
      split
      · exact (closeGate_cases _).1
      · rfl
    dsimp only
    split <;> [rw [hb]; skip] <;> (simp only [State.setHalt_traction]; split <;> simp [hl])

/-- Adding causes leaves the traction state or makes it HALTED. -/
theorem addCauses_traction (cs : List Cause) (s : State) : (addCauses cs s).traction.state = s.traction.state ∨ (addCauses cs s).traction.state = .halted := by
  have hj : (judgeDrive (joinCauses cs s)).traction.state = (joinCauses cs s).traction.state ∨ (judgeDrive (joinCauses cs s)).traction.state = .halted := by
    unfold judgeDrive; dsimp only; split
    · exact .inl rfl
    · split
      · exact .inl rfl
      · unfold senseHalt; split
        · exact joinCauses_traction _ _
        · exact .inl rfl
  rcases hj with h | h
  · rw [addCauses, h]; exact joinCauses_traction _ _
  · exact .inr h

/-! ### Requests -/

/-- A host-request row hands its request to the input queue (R174). -/
theorem exec_request {c tag r} {s : State} (h : c.request = some (tag, r)) : exec c s = .next (submit tag r s) := by
  cases c <;> simp only [Instr.request, Option.some.injEq, Prod.mk.injEq, reduceCtorEq] at h
  all_goals (obtain ⟨rfl, rfl⟩ := h; rfl)

/-- A deliverable request fits its frame (11 section 1). -/
theorem request_facts {c : Instr} {tag : Nat} {r : HostRequest} (h : c.request = some (tag, r)) (hw : c.wf = true) : fitsBytes 1 tag = true ∧ r.wf = true ∧ (∀ k, r ≠ .badLength k) ∧ fitsBytes 1 r.kind = true ∧ r.payload.length ≤ 248 := by
  cases c <;> simp only [Instr.request, Option.some.injEq, Prod.mk.injEq, reduceCtorEq] at h
  case unknownKindRequest =>
    obtain ⟨rfl, rfl⟩ := h; simp only [Instr.wf, Bool.and_eq_true] at hw
    exact ⟨hw.1, hw.2, by simp, by simp [HostRequest.wf] at hw; exact hw.2.1, by simp [HostRequest.payload]⟩
  case patternLoad p =>
    obtain ⟨rfl, rfl⟩ := h; simp only [Instr.wf, Bool.and_eq_true] at hw
    refine ⟨hw.1, hw.2, by simp, rfl, ?_⟩
    have := hw.2; simp [HostRequest.wf, PatternRecord.wf] at this
    simp only [HostRequest.payload, List.length_append, bytesBE_length, steps_length]; omega
  all_goals (obtain ⟨rfl, rfl⟩ := h; simp only [Instr.wf, Bool.and_eq_true] at hw)
  all_goals first
    | exact ⟨hw.1, hw.2, by simp, rfl, by simp [HostRequest.payload, EntryRecord.bytes]⟩
    | exact ⟨hw, rfl, by simp, rfl, by simp [HostRequest.payload]⟩

/-! ### A speed sample -/

/-- The role walk leaves the axle unit alone. -/
theorem blockRole_axle (t : State) : RoleWalk (fun s => s.axle = t.axle) :=
  { blockJunction_axle t, blockStop_axle t, blockVigil_axle t with role := fun _ h => h }

/-- The role walk leaves the pins alone. -/
theorem blockRole_pins (t : State) : RoleWalk (fun s => s.pins = t.pins) :=
  { blockJunction_pins t, blockStop_pins t, blockVigil_pins t with role := fun _ h => h }

/-- The role walk leaves the clock alone. -/
theorem blockRole_now (t : State) : RoleWalk (fun s => s.now = t.now) :=
  { blockJunction_now t, blockStop_now t, blockVigil_now t with role := fun _ h => h }
@[simp] theorem sampleRole_axle (s : State) : (sampleRole s).axle = s.axle := sampleRole_at (blockRole_axle s) rfl
@[simp] theorem sampleRole_now (s : State) : (sampleRole s).now = s.now := sampleRole_at (blockRole_now s) rfl
@[simp] theorem sampleRole_pins (s : State) : (sampleRole s).pins = s.pins := sampleRole_at (blockRole_pins s) rfl

/-- The three standstill groups judged leave the axle unit alone (R165): it takes new values up at its samples (R17). -/
@[simp] theorem judgeStandstillGroups_axle (s : State) : (judgeStandstillGroups s).axle = s.axle := by
  unfold judgeStandstillGroups; dsimp only; split <;> simp

/-- The flag set changes nothing else of the axle unit (R14). -/
@[simp] theorem setStandstill_axle (s : State) : (setStandstill s).axle = { s.axle with standstill := true } := by
  have : (releaseSand s).axle = s.axle := by rw [releaseSand_eq]; rfl
  simp [setStandstill, latchStopped, this]

/-- The flag cleared changes nothing else of the axle unit (R14). -/
@[simp] theorem clearStandstill_axle (s : State) : (clearStandstill s).axle = { s.axle with standstill := false } := by
  simp [clearStandstill, latchStopped]

/-- Figures that show the state are themselves with that state. -/
theorem figures_eta {f : ChannelFigures} {x : ChannelState} (h : f.state = x) : f = { f with state := x } := by rw [← h]

/-- What a sample leaves of the axle unit after the reference is selected. -/
structure AxleKept (a b : AxleUnit) : Prop where
  sense : b.sense = a.sense
  source : b.source = a.source
  refSpeed : b.refSpeed = a.refSpeed
  refTravel : b.refTravel = a.refTravel
  disagreement : b.disagreement = a.disagreement
  shownRun : b.shownRun = a.shownRun
  shown : ∀ i, (a.channel i).shown.state = (a.channel i).state →
    (b.channel i).shown = { (a.channel i).shown with state := (b.channel i).state }
  channels : ∀ i, (b.channel i).count = (a.channel i).count ∧ (b.channel i).prevCount = (a.channel i).prevCount ∧
    (b.channel i).speed = (a.channel i).speed ∧ (b.channel i).tally = (a.channel i).tally ∧
    (b.channel i).phaseA = (a.channel i).phaseA ∧ (b.channel i).phaseB = (a.channel i).phaseB ∧
    (b.channel i).sampled = (a.channel i).sampled ∧ (b.channel i).mode = (a.channel i).mode ∧
    (b.channel i).ring = (a.channel i).ring ∧ (b.channel i).window = (a.channel i).window

theorem AxleKept.same (a : AxleUnit) : AxleKept a a := 
  ⟨rfl, rfl, rfl, rfl, rfl, rfl, fun _ h => by rw [← h], fun _ => ⟨rfl, rfl, rfl, rfl, rfl, rfl, rfl, rfl, rfl, rfl⟩⟩
theorem AxleKept.trans {a b c : AxleUnit} (h : AxleKept a b) (g : AxleKept b c) : AxleKept a c :=
  ⟨g.1.trans h.1, g.2.trans h.2, g.3.trans h.3, g.4.trans h.4, g.5.trans h.5, g.6.trans h.6, fun i e => by
    have e' := h.shown i e
    rw [g.shown i (by rw [e']), e'], fun i => by
    obtain ⟨h1,h2,h3,h4,h5,h6,h7,h8,h9,h0⟩ := h.channels i; obtain ⟨g1,g2,g3,g4,g5,g6,g7,g8,g9,g0⟩ := g.channels i
    exact ⟨g1.trans h1, g2.trans h2, g3.trans h3, g4.trans h4, g5.trans h5, g6.trans h6, g7.trans h7, g8.trans h8,
      g9.trans h9, g0.trans h0⟩⟩

/-- The times of the last and the next sample are no part of what it formed. -/
theorem AxleKept.timed (a : AxleUnit) (last due : Nat) : AxleKept a { a with lastSample := last, sampleDue := due } :=
  ⟨rfl, rfl, rfl, rfl, rfl, rfl, fun i h => by cases i <;> exact figures_eta h,
    fun i => by cases i <;> exact ⟨rfl, rfl, rfl, rfl, rfl, rfl, rfl, rfl, rfl, rfl⟩⟩

/-- The agreement run keeps what the sample formed (R9). -/
theorem judgeAgreement_kept (r : RefAxle) (s : State) : AxleKept s.axle (judgeAgreement r s).axle := by
  unfold judgeAgreement returnToOk onChannel; dsimp only; repeat' split
  all_goals
    refine ⟨?_, ?_, ?_, ?_, ?_, ?_, fun i => ?_, fun i => ?_⟩
    all_goals cases r <;> (try cases i) <;> simp [refChannel, AxleUnit.setChannel, AxleUnit.channel, AxleChannel.judged] <;>
      exact figures_eta

/-- The standstill judgement keeps what the sample formed (R14). -/
theorem judgeStandstill_kept (s : State) : AxleKept s.axle (judgeStandstill s).axle := by
  unfold judgeStandstill; dsimp only; repeat' split
  all_goals
    refine ⟨?_, ?_, ?_, ?_, ?_, ?_, fun i => ?_, fun i => ?_⟩
    all_goals (try cases i) <;> simp [AxleUnit.channel] <;> exact figures_eta

@[simp] theorem reportSource_axle (b a : RefSource) (v : Int) (s : State) : (reportSource b a v s).axle = s.axle := by
  unfold reportSource; dsimp only; repeat' split
  all_goals simp
@[simp] theorem reportSource_now (b a : RefSource) (v : Int) (s : State) : (reportSource b a v s).now = s.now := by
  unfold reportSource; dsimp only; repeat' split
  all_goals simp

/-- The route part of a sample keeps what it formed. -/
theorem sampled_kept (u : State) : AxleKept u.axle
    (routeSample (if u.axle.standstill then sampleRole u else u)).axle := by
  rw [routeSample_axle]; split
  · rw [sampleRole_axle]; exact .same _
  · exact .same _

/-- A speed sample, stage by stage. -/
theorem speedSample_eq (s : State) : ∃ u, u = judgeStandstill (judgeAgreement .ax3 (judgeAgreement .ax2 (selectReference
      (judgeDisagreement (sampleChannels s))))) ∧
    speedSample s = (fun m : State => m.setAxle { m.axle with lastSample := s.now, sampleDue := s.now + Config.period })
      (routeSample (if u.axle.standstill then sampleRole u else u)) := ⟨_, rfl, rfl⟩

/-- After the reference is selected a sample keeps what it formed. -/
theorem speedSample_kept (s : State) : AxleKept (selectReference (judgeDisagreement (sampleChannels s))).axle (speedSample s).axle := by
  obtain ⟨u, hu, e⟩ := speedSample_eq s
  rw [e]
  have h : AxleKept (selectReference (judgeDisagreement (sampleChannels s))).axle u.axle := by
    rw [hu]
    exact ((judgeAgreement_kept .ax2 _).trans (judgeAgreement_kept .ax3 _)).trans (judgeStandstill_kept _)
  exact (h.trans (sampled_kept u)).trans (.timed _ _ _)

/-- The disagreement run changes of the axle unit only itself, with the time shown, and the states (R8, R15). -/
theorem judgeDisagreement_kept (s : State) : (judgeDisagreement s).axle.sense = s.axle.sense ∧
   (judgeDisagreement s).axle.refSpeed = s.axle.refSpeed ∧ (judgeDisagreement s).axle.source = s.axle.source ∧
   (judgeDisagreement s).settings = s.settings ∧ (judgeDisagreement s).now = s.now ∧ (judgeDisagreement s).adhesion = s.adhesion ∧
   (judgeDisagreement s).axle.shownRun = ((judgeDisagreement s).axle.disagreement.map (s.now - ·)).getD 0 ∧
   (∀ i, (judgeDisagreement s).axle.channel i = s.axle.channel i ∨
     (judgeDisagreement s).axle.channel i = (s.axle.channel i).judged .suspect) := by
  unfold judgeDisagreement suspectSlower onChannel; dsimp only; repeat' split
  all_goals refine ⟨?_, ?_, ?_, ?_, ?_, ?_, ?_, fun i => ?_⟩
  all_goals (try generalize slowerRef s = q) 
  all_goals (try cases q) 
  all_goals (try cases i) 
  all_goals (first | rfl | exact .inl rfl | exact .inr rfl)

/-- What selecting the reference writes (R7, R12). -/
theorem selectReference_axle (s : State) : (selectReference s).axle = { s.axle with
    source := (chooseReference s).1
    refSpeed := (chooseReference s).2
    refTravel := s.axle.sense.apply (travelOf s (chooseReference s).1) } := by
  unfold selectReference; dsimp only; rw [reportSource_axle]; rfl

/-- The ring is summed. -/
theorem ringSum_eq (l : List Int) : ringSum l = l.sum := by
  unfold ringSum; rw [List.sum_eq_foldl]

/-- The travel sense applied is a sign (R4). -/
theorem apply_signed (x : Sense) (v : Int) : x.apply v = signed x v := by cases x <;> rfl

end Sys2Proof.Machine
end

