-- ==== Sys2Proof/Laws/PerInstr.lean ====
section
/-! SUPPORT. What holds of every command as syntax, command by command: the request of a row that can be delivered fits its
frame, and the frame's kind and payload give it back. -/

namespace Sys2Proof.Laws

/-- The request a deliverable row carries has a one-byte tag, fits the payload of its frame, and is what that payload is read
as (11 sections 1 and 2); a row with no request has none to read. -/
def Delivery.Statement (i : Instr) : Prop :=
  ∀ tag r, i.request = some (tag, r) → i.wf = true →
    fitsBytes 1 tag = true ∧ r.payload.length ≤ 248 ∧ parseRequest r.kind r.payload = r

theorem Delivery.of_request (i : Instr) : Delivery.Statement i := fun _ _ h w =>
  have facts := Machine.request_facts h w
  ⟨facts.1, facts.2.2.2.2, parseRequest_payload facts.2.1 facts.2.2.1⟩

theorem Delivery.powerUp : Delivery.Statement .powerUp := of_request _
theorem Delivery.restartFull (tag : Nat) : Delivery.Statement (.restartFull tag) := of_request _
theorem Delivery.restartJourney (tag : Nat) : Delivery.Statement (.restartJourney tag) := of_request _
theorem Delivery.encoderEdge (channel : AxleId) (phaseA : Bool) (phaseB : Bool) : Delivery.Statement (.encoderEdge channel phaseA phaseB) :=
  of_request _
theorem Delivery.phaseErrorWindowExpiry (channel : AxleId) : Delivery.Statement (.phaseErrorWindowExpiry channel) :=
  of_request _
theorem Delivery.speedSample : Delivery.Statement .speedSample := of_request _
theorem Delivery.axleSuspect : Delivery.Statement .axleSuspect := of_request _
theorem Delivery.agreementRunComplete (channel : RefAxle) : Delivery.Statement (.agreementRunComplete channel) :=
  of_request _
theorem Delivery.standstillSet : Delivery.Statement .standstillSet := of_request _
theorem Delivery.axleRead (tag : Nat) (channel : Nat) : Delivery.Statement (.axleRead tag channel) := of_request _
theorem Delivery.axleReset (tag : Nat) (channel : Nat) : Delivery.Statement (.axleReset tag channel) := of_request _
theorem Delivery.controlPeriod (inputs : PassInputs) : Delivery.Statement (.controlPeriod inputs) := of_request _
theorem Delivery.directionSettleExpiry : Delivery.Statement .directionSettleExpiry := of_request _
theorem Delivery.handleHoldExpiry : Delivery.Statement .handleHoldExpiry := of_request _
theorem Delivery.handleFault : Delivery.Statement .handleFault := of_request _
theorem Delivery.demandLost : Delivery.Statement .demandLost := of_request _
theorem Delivery.adhesionFault (bogie : Bogie) : Delivery.Statement (.adhesionFault bogie) := of_request _
theorem Delivery.sandRunExpiry : Delivery.Statement .sandRunExpiry := of_request _
theorem Delivery.sandRestExpiry : Delivery.Statement .sandRestExpiry := of_request _
theorem Delivery.doorReleaseAsserted : Delivery.Statement .doorReleaseAsserted := of_request _
theorem Delivery.doorReleaseReleased : Delivery.Statement .doorReleaseReleased := of_request _
theorem Delivery.haltReleased : Delivery.Statement .haltReleased := of_request _
theorem Delivery.halt (tag : Nat) : Delivery.Statement (.halt tag) := of_request _
theorem Delivery.resume (tag : Nat) : Delivery.Statement (.resume tag) := of_request _
theorem Delivery.vigilPress : Delivery.Statement .vigilPress := of_request _
theorem Delivery.vigilRelease : Delivery.Statement .vigilRelease := of_request _
theorem Delivery.holdLimitExpiry : Delivery.Statement .holdLimitExpiry := of_request _
theorem Delivery.graceExpiry : Delivery.Statement .graceExpiry := of_request _
theorem Delivery.warnToHaltExpiry : Delivery.Statement .warnToHaltExpiry := of_request _
theorem Delivery.repressWindowExpiry : Delivery.Statement .repressWindowExpiry := of_request _
theorem Delivery.roleInputChange (activeCab : Bool) (coupling : Bool) : Delivery.Statement (.roleInputChange activeCab coupling) :=
  of_request _
theorem Delivery.demandWindowExpiry (highMicros : Nat) : Delivery.Statement (.demandWindowExpiry highMicros) :=
  of_request _
theorem Delivery.haltLineChange (asserted : Bool) : Delivery.Statement (.haltLineChange asserted) := of_request _
theorem Delivery.startEmissionExpiry : Delivery.Statement .startEmissionExpiry := of_request _
theorem Delivery.startEdge : Delivery.Statement .startEdge := of_request _
theorem Delivery.startRetentionExpiry : Delivery.Statement .startRetentionExpiry := of_request _
theorem Delivery.routeStart (tag : Nat) (origin : Nat) : Delivery.Statement (.routeStart tag origin) := of_request _
theorem Delivery.routeEnd (tag : Nat) : Delivery.Statement (.routeEnd tag) := of_request _
theorem Delivery.routeInsert (tag : Nat) (entry : EntryRecord) : Delivery.Statement (.routeInsert tag entry) :=
  of_request _
theorem Delivery.routeRemove (tag : Nat) (entryTag : Nat) : Delivery.Statement (.routeRemove tag entryTag) :=
  of_request _
theorem Delivery.routeRead (tag : Nat) (selector : Nat) (which : Nat) : Delivery.Statement (.routeRead tag selector which) :=
  of_request _
theorem Delivery.loopOkReleased (assertedAgain : Bool) : Delivery.Statement (.loopOkReleased assertedAgain) :=
  of_request _
theorem Delivery.loopReset (tag : Nat) : Delivery.Statement (.loopReset tag) := of_request _
theorem Delivery.telegramAirtimeEnd : Delivery.Statement .telegramAirtimeEnd := of_request _
theorem Delivery.answerWindowExpiry : Delivery.Statement .answerWindowExpiry := of_request _
theorem Delivery.slotRepeatExpiry (slot : SlotId) : Delivery.Statement (.slotRepeatExpiry slot) := of_request _
theorem Delivery.signalRepeatExpiry (entryTag : Nat) : Delivery.Statement (.signalRepeatExpiry entryTag) := of_request _
theorem Delivery.pointAnswer (telegram : List Byte) : Delivery.Statement (.pointAnswer telegram) := of_request _
theorem Delivery.priorityAck (telegram : List Byte) : Delivery.Statement (.priorityAck telegram) := of_request _
theorem Delivery.junctionCancel (tag : Nat) (entryTag : Nat) : Delivery.Statement (.junctionCancel tag entryTag) :=
  of_request _
theorem Delivery.junctionRetry (tag : Nat) (entryTag : Nat) : Delivery.Statement (.junctionRetry tag entryTag) :=
  of_request _
theorem Delivery.mask (tag : Nat) (requester : Nat) : Delivery.Statement (.mask tag requester) := of_request _
theorem Delivery.unmask (tag : Nat) (requester : Nat) : Delivery.Statement (.unmask tag requester) := of_request _
theorem Delivery.scan (readings : List Nat) : Delivery.Statement (.scan readings) := of_request _
theorem Delivery.buttonStuck (channel : Nat) : Delivery.Statement (.buttonStuck channel) := of_request _
theorem Delivery.stopCancel : Delivery.Statement .stopCancel := of_request _
theorem Delivery.stopreqEdge (asserted : Bool) : Delivery.Statement (.stopreqEdge asserted) := of_request _
theorem Delivery.stopRequest (tag : Nat) (accessible : Nat) : Delivery.Statement (.stopRequest tag accessible) :=
  of_request _
theorem Delivery.stopClear (tag : Nat) : Delivery.Statement (.stopClear tag) := of_request _
theorem Delivery.buttonRead (tag : Nat) (channel : Nat) : Delivery.Statement (.buttonRead tag channel) := of_request _
theorem Delivery.stepExpiry (channel : SoundChannel) : Delivery.Statement (.stepExpiry channel) := of_request _
theorem Delivery.strikePulseExpiry : Delivery.Statement .strikePulseExpiry := of_request _
theorem Delivery.bellPedalPress : Delivery.Statement .bellPedalPress := of_request _
theorem Delivery.bellPedalRelease : Delivery.Statement .bellPedalRelease := of_request _
theorem Delivery.bellIntervalExpiry : Delivery.Statement .bellIntervalExpiry := of_request _
theorem Delivery.hornPress : Delivery.Statement .hornPress := of_request _
theorem Delivery.hornRelease : Delivery.Statement .hornRelease := of_request _
theorem Delivery.hornTailExpiry : Delivery.Statement .hornTailExpiry := of_request _
theorem Delivery.play (tag : Nat) (pattern : Nat) : Delivery.Statement (.play tag pattern) := of_request _
theorem Delivery.silence (tag : Nat) (pattern : Nat) : Delivery.Statement (.silence tag pattern) := of_request _
theorem Delivery.patternLoad (tag : Nat) (pattern : PatternRecord) : Delivery.Statement (.patternLoad tag pattern) :=
  of_request _
theorem Delivery.set (tag : Nat) (number : Nat) (value : Int) : Delivery.Statement (.set tag number value) :=
  of_request _
theorem Delivery.get (tag : Nat) (number : Nat) : Delivery.Statement (.get tag number) := of_request _
theorem Delivery.freeze (tag : Nat) (group : Nat) : Delivery.Statement (.freeze tag group) := of_request _
theorem Delivery.thaw (tag : Nat) (group : Nat) : Delivery.Statement (.thaw tag group) := of_request _
theorem Delivery.byteReceived (byte : Byte) (framingError : Bool) : Delivery.Statement (.byteReceived byte framingError) :=
  of_request _
theorem Delivery.frameGapExpiry : Delivery.Statement .frameGapExpiry := of_request _
theorem Delivery.replyEnd : Delivery.Statement .replyEnd := of_request _
theorem Delivery.unknownKindRequest (tag : Nat) (kind : Nat) : Delivery.Statement (.unknownKindRequest tag kind) :=
  of_request _
theorem Delivery.ident (tag : Nat) : Delivery.Statement (.ident tag) := of_request _
theorem Delivery.status (tag : Nat) : Delivery.Statement (.status tag) := of_request _
theorem Delivery.events (tag : Nat) (n : Nat) : Delivery.Statement (.events tag n) := of_request _

end Sys2Proof.Laws
end

