-- ==== Sys2Proof/Tests/Slice0.lean ====
section
/-! SUPPORT. Tests of the model against the spec's own figures, and for each statement with hypotheses a state and operands
that meet them. -/

namespace Sys2Proof.Tests

open Sys2Proof Sys2Proof.Machine

/-! ### Small states -/

/-- The state after a command. -/
def after (c : Instr) (s : State) : State :=
  match exec c s with
  | .next t => t
  | _ => s

def base : State := State.reset
def listing (l : List Entry) : State := base.setRoute { base.route with active := true, table := l }
def withSettings (l : List (Nat × Int)) (s : State) : State := s.setSettings { s.settings with effective := l }
def quiet (s : State) : State := s.setHost { s.host with events := [] }
def raised (s : State) : List (Nat × Nat × Int) := s.host.events.map fun e => (e.kind, e.subject, e.value)
def rolling (v : Int) (s : State) : State := s.setAxle { s.axle with standstill := false, refSpeed := v }
def inRole (r : Role) (s : State) : State := s.setLines { s.lines with role := r }
def handle (code : Nat) : PassInputs := ⟨code, true, false, false, false⟩
/-- A LEAD that runs forward at 5 m/s with effort `e`. -/
def driving (e : Int) : State :=
  let s := (rolling 5000 base).setLines { base.lines with role := .lead, demandDrive := some 500, tlFwdDrive := true }
  s.setTraction { s.traction with state := .running, effort := e, direction := .forward }
def latched (first : Cause) (causes : Causes) (s : State) : State :=
  (s.setHalt ⟨causes, some ⟨first, 0, 0, 0, true⟩, none⟩).setTraction { s.traction with state := .halted }
def halted : State := latched .host { Causes.none with host := true } base
/-- A build rate of 100 pending in G0, LOCKED on the move. -/
def waiting : State :=
  (rolling 5000 base).setSettings { base.settings with pending := [(0, 100)], locked := { PerGroup.clear with g0 := true } }
def sanding : State := (rolling 5000 base).setAdhesion { base.adhesion with sand := .on 10 }
def sends (l : LineOut) : State := base.setHost { base.host with line := l }
def queueing (n : Nat) (s : State) : State :=
  s.setHost { s.host with queue := (List.range n).map fun i => ⟨i, .status⟩ }
def crowded (l : LineOut) : State := queueing 4 (sends l)
def busied (s : State) : State := s.setHost { s.host with busy := some (2, 9) }
def hears (bytes : List Byte) : State := base.setHost { base.host with receiver := .inFrame bytes 0 }
def fullSet : State := base.setHost { base.host with events := (List.range 64).map fun i => ⟨5, i, false, 0, 0⟩ }
def onAx2 (f : AxleChannel → AxleChannel) : State := base.setAxle { base.axle with ax2 := f base.axle.ax2 }
/-- AX2 has counted `n` since the last sample. -/
def apart (n : Nat) : State := onAx2 fun c => { c with count := BitVec.ofNat 32 n }
def single (st2 st3 : ChannelState) : State :=
  base.setAxle { base.axle with ax2 := { base.axle.ax2 with state := st2 }, ax3 := { base.axle.ax3 with state := st3 } }
def lost : State := base.setAxle { base.axle with
  ax0 := { base.axle.ax0 with state := .failed }, ax1 := { base.axle.ax1 with state := .suspect }
  ax2 := { base.axle.ax2 with state := .failed }, ax3 := { base.axle.ax3 with state := .suspect } }
/-- Both reference axles have counted `n` since the last sample, on a route at `d`. -/
def travelling (d : Nat) (n : Int) : State :=
  let moved := fun c : AxleChannel => { c with count := BitVec.ofInt 32 n }
  (base.setRoute { base.route with active := true, distance := d }).setAxle { base.axle with
    ax2 := moved base.axle.ax2, ax3 := moved base.axle.ax3 }
def creeping (run : Nat) : State :=
  base.setAxle { base.axle with standstill := false, standstillRun := some run, sampleDue := 10, lastSample := 0 }
/-- A junction entry with its marks at 100, 200, 300 and 400. -/
def point (tag crossed : Nat) (st : JunctionState) : Entry :=
  ⟨tag, crossed, .junction ⟨100, 200, 300, 400, none, 7, .left, st, none, 0, 0⟩⟩
/-- A route at `d` with the entries `l`, about to travel `n` counts. -/
def sweeping (d : Nat) (n : Int) (l : List Entry) : State :=
  let s := travelling d n
  s.setRoute { s.route with table := l }
/-- Tag, marks crossed and state code of each entry of the table. -/
def entries (s : State) : List (Nat × Nat × Nat) := s.route.table.map fun e => (e.tag, e.crossed, e.body.stateCode)
def halting (tag : Nat) (st : StopState) : Entry := ⟨tag, 1, .stop ⟨50, 100, 3, false, st⟩⟩
def slowing (ceiling : Int) : Entry := ⟨3, 1, .restriction ⟨100, 200, ceiling, .active⟩⟩
def hearing (u : Nat) : State := base.setLines { base.lines with demandU := u }
def withTraction (f : Traction → Traction) : State := base.setTraction (f base.traction)
def withSand (x : SandState) : State := base.setAdhesion { base.adhesion with sand := x }
def doorsOpen (s : State) : State := s.setPins { s.pins with doorRelease := true }
/-- An INHIBITED LEAD with its direction taken, nothing else in its way. -/
def poised (coupled : Bool) : State :=
  (withTraction fun x => { x with direction := .forward }).setLines { base.lines with role := .lead, coupled := coupled }
/-- A LEAD that rolls back at `v` under FORWARD. -/
def backing (v : Int) : State := (driving 0).setAxle { (driving 0).axle with refSpeed := -v }
/-- A LEAD at full power whose motor bogie A, in the state given, turns far faster than the tram runs. -/
def spinning (b : BogieState) : State :=
  ((driving 1000).setAxle { (driving 1000).axle with ax0 := { base.axle.ax0 with speed := 9000 } }).setAdhesion
    ⟨b, .adhering, 1, .off, .off⟩
def ready (s : State) : State :=
  s.setHost { s.host with queue := [], line := .free, busy := none, headRunning := false }
/-- A halted LEAD with no cause left, its acknowledgement run begun at `t`, at 1,010 ms. -/
def braking (t : Nat) : State :=
  let s := inRole .lead (latched .host .none base)
  (s.setHalt { s.halt with ackRun := some t }).setNow 1010
def watching (st : VigilState) : State := base.setVigilance ⟨st, some 5⟩
def disputed (n : Nat) : State := (driving 0).setLines { (driving 0).lines with conflictRun := n }
def placed (i : SlotId) (tag : Nat) (s : State) : State :=
  s.setJunction (s.junction.setSlot i ⟨.entry tag, false, some 200⟩)
def turnOf (r : Requester) (m : Telegram) : Turn := ⟨r, some 1, m, 60, false⟩
def transmitting (x : Transmitter) (s : State) : State := s.setJunction { s.junction with transmitter := x }
def asked : Telegram := .pointRequest 7 .left false 1
/-- A listening unit whose entry 1, in state `st` with `n` marks crossed, holds slot J0. -/
def listening (n : Nat) (st : JunctionState) : State :=
  transmitting (.listening (turnOf .j0 asked) 60) (placed .j0 1 (listing [point 1 n st]))
def call (st : SignalState) : Entry := ⟨2, 1, .signal ⟨50, 500, 9, 1, st, some 200⟩⟩
def record (kind : Nat) : EntryRecord := ⟨5, kind, false, false, 1000, 1200, 1300, 1400, 0, 7, 1, 1000⟩
def button (st : ButtonState) (confirm : Nat) : Button :=
  { Button.atReset with
    state := st, confirm := confirm, baseline := 2000, scannedAs := some .sensed
    pressSince := if st = .pressed ∨ st = .releasing then some 0 else none }
/-- Entry 1 asks from slot J0 with a fix at 250, its A crossed. -/
def fixable (d : Nat) : State :=
  transmitting (.listening (turnOf .j0 asked) 60) (placed .j0 1 (sweeping d 0
    [⟨1, 1, .junction ⟨100, 200, 300, 400, some 250, 7, .left, .asking, none, 0, 0⟩⟩]))
/-- Slot J0 waits for entry 1 and the signal queue holds a call, with the urgent run and the rotation given. -/
def contending (run : Nat) (rotation : RotationPosition) : State :=
  let s := listing [point 1 1 .asking]
  (s.setRoute { s.route with distance := 120 }).setJunction { s.junction with
    j0 := ⟨.entry 1, true, some 200⟩, signalQueue := [⟨2, false, 9, 1⟩], urgentRun := run, rotation := rotation }
/-- The group LOCKED with values pending, nothing holding it. -/
def loosed (g : Group) (pending : List (Nat × Int)) : State :=
  base.setSettings { base.settings with pending := pending, locked := PerGroup.clear.put g true }
def pressing (b : Button) : State := base.setStop { base.stop with buttons := base.stop.buttons.set 0 b }
def readings (v : Nat) : List Nat := v :: List.replicate 23 2000
def stopping : State := base.setStop { base.stop with latch := some ⟨.host, false, 1, 0⟩ }
def onBell (l : SoundLine) (s : State) : State := s.setSound { s.sound with bell := l }
def onBuzzer (l : SoundLine) (s : State) : State := s.setSound { s.sound with buzzer := l }
def bellPattern : Pattern := ⟨.bell, .normal, 1, [⟨.strike, 4⟩, ⟨.rest, 1⟩]⟩
def loadedBell : State := base.setSound { base.sound with loaded := [(6, bellPattern)] }
/-- Button SB0, found in `st` with a confirm count, after a scan that reads `v`. -/
def scanned (v : Nat) (st : ButtonState) (confirm : Nat) : Button :=
  ((after (.scan (readings v)) (pressing (button st confirm))).stop.buttons[0]?).getD .atReset

/-! ### The step and the laws -/

/-- A scan with as many readings as the converter has channels is deliverable; one short or one over is not. -/
theorem witness_DeliverableCommandsComplete :
    (Instr.scan (List.replicate 24 4095)).wf = true ∧ (List.replicate 23 0).length ≠ 24 ∧ (List.replicate 25 0).length ≠ 24 := by
  decide

theorem witness_EventSetStaysOrdered :
    EventLaw base.host ∧ EventLaw (after (.halt 1) base).host ∧
      step (base.setPending [.halt 1]) = .next (after (.halt 1) base) :=
  ⟨⟨by decide, by decide, by decide⟩, ⟨by decide, by decide, by decide⟩, rfl⟩

theorem lone_lawful (d : Nat) (e : Entry) (hd : d ≤ Config.maxDistance) (he : EntryLaw e) :
    RouteLaw (sweeping d 0 [e]).route :=
  ⟨hd, by show 0 < 25600; decide, by show 1 ≤ 96; decide, fun x h => by
      obtain rfl := List.mem_singleton.1 h
      exact he,
    List.nodup_singleton _, List.pairwise_singleton _ _, fun h => by simp [sweeping, travelling, State.setRoute] at h⟩

theorem point_entry (n : Nat) (st : JunctionState) : EntryLaw (point 1 n st) :=
  ⟨by simp [point], rfl, by simp [point, EntryBody.given, Config.maxDistance]⟩

theorem point_lawful (n : Nat) (st : JunctionState) : RouteLaw (listing [point 1 n st]).route :=
  lone_lawful 0 _ (Nat.zero_le _) (point_entry n st)

theorem witness_RouteTableStaysOrdered :
    RouteLaw (listing [point 1 0 .pending]).route ∧
      step ((listing [point 1 0 .pending]).setPending [.speedSample]) = .next (after .speedSample (listing [point 1 0 .pending])) :=
  ⟨point_lawful 0 .pending, rfl⟩

/-- A running unit at full power, and a halted one with its latch set. -/
theorem witness_NoPowerThroughClosedGate :
    PowerLaw (driving 1000) ∧ PowerLaw halted ∧
      step ((driving 1000).setPending [.controlPeriod (handle 247)]) =
        .next (after (.controlPeriod (handle 247)) (driving 1000)) :=
  ⟨⟨⟨by decide, by decide, by decide⟩, ⟨by decide, by decide⟩, ⟨by decide, by decide⟩, by intro; decide⟩,
    ⟨⟨by decide, by decide, by decide⟩, ⟨by decide, by decide⟩, ⟨by decide, by decide⟩, by
      intro h; exact absurd h (by decide)⟩, rfl⟩

/-- A LEAD at full power, its motor bogie A SLIPPING at k_min, about to be cut no further. -/
def slipping : State :=
  let s := spinning ⟨.slipping, 250, some 0, false⟩
  (s.setTraction { s.traction with effortA := 250, effortB := 1000 }).setSettings
    { s.settings with effortHeld := true, locked := { PerGroup.clear with g2 := true } }

/-- The factor stays at k_min at the pass that cuts it; at reset both bogies are at rest. -/
theorem witness_NoPowerThroughClosedGate_bogies :
    PowerLaw slipping ∧ BogieLaw slipping ∧ BogieLaw base ∧ 0 < slipping.traction.effortA ∧
      step (slipping.setPending [.controlPeriod (handle 247)]) = .next (after (.controlPeriod (handle 247)) slipping) ∧
      (let t := after (.controlPeriod (handle 247)) slipping;
        (t.adhesion.a.state, t.adhesion.a.k, t.adhesion.b.k, t.traction.effortA, t.traction.effortB) =
          (.slipping, 250, 1000, 250, 1000)) :=
  ⟨⟨⟨by decide, by decide, by decide⟩, ⟨by decide, by decide⟩, ⟨by decide, by decide⟩, by intro; decide⟩,
    ⟨by decide, fun i => by cases i <;> decide, fun h => absurd h (by decide), by decide, by decide⟩,
    ⟨by decide, fun i => by cases i <;> decide, fun _ i => by cases i <;> rfl, by decide, by decide⟩, by decide, rfl,
    by decide +kernel⟩

/-- A value pending in a LOCKED group, at an end of its range. -/
theorem witness_SettingsStayInRange :
    SettingsLaw waiting.settings ∧ step (waiting.setPending [.speedSample]) = .next (after .speedSample waiting) :=
  ⟨⟨by decide, by decide, by decide⟩, rfl⟩

/-- A LEAD on the move with E positive, a signal entry CALLING, the stop-request latch set and a warning sounding: every group
LOCKED by its condition. -/
def locking : State :=
  let s := onBuzzer ⟨.playing 4 0 0 9000, []⟩ ((driving 300).setStop stopping.stop)
  (s.setRoute { s.route with active := true, table := [call .calling] }).setSettings
    { s.settings with locked := ⟨true, true, true, true, true, true, true⟩, effortHeld := true }

/-- At standstill with nothing sounding: G1 frozen, G3 LOCKED by the slot of entry 1. -/
def slotted : State :=
  let s := placed .j2 1 (listing [point 1 1 .asking])
  s.setSettings { s.settings with frozen := PerGroup.clear.put .g1 true, locked := (PerGroup.clear.put .g1 true).put .g3 true }

theorem witness_GroupsStayLockedWhileHeld :
    LockLaw locking ∧ RouteLaw locking.route ∧ LockLaw slotted ∧ RouteLaw slotted.route ∧
      step (locking.setPending [.speedSample]) = .next (after .speedSample locking) ∧
      step (slotted.setPending [.powerUp]) = .next (after .powerUp slotted) :=
  ⟨⟨fun _ h => by rcases h with rfl | rfl | rfl <;> decide, by decide, fun _ => rfl,
      ⟨fun _ => .inr (.inl ⟨_, List.mem_singleton_self _, _, rfl, rfl⟩), fun _ => rfl⟩, by decide,
      ⟨fun _ => .inl ⟨.buzzer, by decide⟩, fun _ => rfl⟩⟩,
    lone_lawful 0 (call .calling) (Nat.zero_le _) ⟨by decide, rfl, by decide⟩,
    ⟨fun _ h => by rcases h with rfl | rfl | rfl <;> decide, by decide, fun h => absurd rfl h,
      ⟨fun _ => .inl ⟨.j2, 1, rfl⟩, fun _ => rfl⟩, by decide,
      ⟨fun h => absurd h (by decide), fun h => by
        rcases h with ⟨c, h⟩ | h
        · cases c <;> exact absurd rfl h
        · exact absurd h (by decide)⟩⟩,
    point_lawful 1 .asking, rfl, rfl⟩

/-- R168, R170: two values that wait in G0 come into force at standstill, and go on waiting in a frozen G0. -/
theorem witness_GroupsStayLockedWhileHeld_standstill :
    (let s := (quiet (creeping 490)).setSettings { base.settings with
        pending := [(0, 100), (5, -600)], locked := PerGroup.clear.put .g0 true };
      let t := after .standstillSet s;
      let u := after .standstillSet (s.setSettings { s.settings with frozen := PerGroup.clear.put .g0 true });
      (s.settings.pending.map (·.1)).Nodup ∧ (t.cfg 0, t.cfg 5, t.settings.pending, raised t) = (100, -600, [], [(6, 0, 2)]) ∧
        (u.cfg 0, u.settings.pending, raised u) = (8, s.settings.pending, [])) := by
  decide +kernel

/-- R165, R168: a value of G2 comes into force as a pass brings E to 0, not as it leaves E at −2; one of G4 as the latch is
cleared, one of G5 as the last player rests. -/
theorem witness_GroupsStayLockedWhileHeld_unlock :
    LinkReady (stopping.setSettings (loosed .g4 [(450, 300)]).settings) ∧
    (let pass := fun e => after (.controlPeriod (handle 104))
        ((loosed .g2 [(203, 300)]).setTraction { base.traction with effort := e });
      ((pass (-20)).cfg 203, (pass (-20)).settings.effortHeld) = (300, false) ∧
        ((pass (-22)).cfg 203, (pass (-22)).settings.effortHeld) = (250, true)) ∧
    (let s := stopping.setSettings (loosed .g4 [(450, 300)]).settings;
      (Instr.stopClear 1).request = some (1, .stopClear) ∧ (after (.stopClear 1) s).cfg 450 = 300) ∧
    (let s := onBuzzer ⟨.playing 4 0 0 9, []⟩ (loosed .g5 [(500, 150)]);
      (after (.silence 1 4) s).cfg 500 = 150 ∧ (after (.silence 1 3) s).cfg 500 = 250) :=
  ⟨⟨rfl, rfl, rfl, rfl⟩, by decide +kernel⟩

theorem witness_SandNeverOverPoints :
    SandLaw sanding ∧ sandAsserted sanding = true ∧ step (sanding.setPending [.sandRunExpiry]) = .next (after .sandRunExpiry sanding) :=
  ⟨fun _ => by decide, by decide, rfl⟩

/-- Every slot kept by a telegram of the full cancel queue. -/
def cancelling : State := base.setJunction { base.junction with
  j0 := ⟨.cancelled, false, none⟩, j1 := ⟨.cancelled, false, none⟩, j2 := ⟨.cancelled, false, none⟩
  j3 := ⟨.cancelled, false, none⟩, cancelQueue := [⟨.j2, 7⟩, ⟨.j0, 8⟩, ⟨.j3, 9⟩, ⟨.j1, 10⟩] }

/-- Full queues, a LEAD that drives its lines, a unit that drives HALT, a vigilance timer that runs. -/
theorem witness_QueuesLinesAndVigilanceStayLawful :
    QueueLaw (crowded .free) ∧ CancelLaw cancelling.junction ∧ step cancelling = .next (cancelling.setNow 1) ∧
      LineLaw (driving 0).lines ∧ (driving 0).lines.demandDrive = some 500 ∧
      DriveLaw (after (.halt 1) base) ∧ (after (.halt 1) base).lines.halting = true ∧ DriveLaw base ∧
      VigilLaw (base.setVigilance ⟨.held, some 5⟩).vigilance ∧ step (crowded .free) = .next ((crowded .free).setNow 1) :=
  ⟨⟨by intro c; cases c <;> decide, by decide, by decide⟩, ⟨by decide, by decide, by intro i; cases i <;> decide⟩, rfl,
    fun _ => rfl, rfl, by unfold DriveLaw; decide, by decide, by unfold DriveLaw; decide, by unfold VigilLaw; decide, rfl⟩

/-- A LEAD warned on the move, a unit at rest; a LEAD halted at standstill by its monitor; a BREACHED entry with its causes. -/
theorem witness_MonitorAndLatchFollowTheTram :
    MonitorLaw ((driving 0).setVigilance ⟨.warnHeld, some 5⟩) ∧ MonitorLaw base ∧
      MonitorLaw (inRole .lead (latched .vigilance { Causes.none with vigilance := true } (watching .tripped))) ∧
      LatchLaw halted ∧ halted.halt.latch ≠ none ∧ RouteLaw (listing [point 1 3 .breached]).route ∧
      CausesFollow (latched .breach { Causes.none with junction := true, breach := true } (listing [point 1 3 .breached])) ∧
      step (halted.setPending [.standstillSet]) = .next (after .standstillSet halted) :=
  ⟨⟨by decide, by decide, by decide, by decide⟩, ⟨by decide, by decide, by decide, by decide⟩,
    ⟨by decide, by decide, by decide, by decide⟩, fun r h => by cases h; rfl, by decide, point_lawful 3 .breached,
    ⟨⟨fun _ => ⟨_, List.mem_singleton_self _, _, rfl, .inr (.inr rfl)⟩, fun _ => rfl⟩,
      ⟨fun _ => ⟨_, List.mem_singleton_self _, _, rfl, rfl⟩, fun _ => rfl⟩⟩, rfl⟩

/-- R68: a LEAD that begins to move is watched from the sample's time, as VIGIL is; a watched one that comes to standstill is not,
and its warning ends; a TRIPPED one stays TRIPPED there, and does not in a unit that is no LEAD any more. -/
theorem witness_MonitorAndLatchFollowTheTram_flag :
    MonitorLaw (inRole .lead base) ∧
    (let s := inRole .lead (base.setAxle { (travelling 0 100).axle with ax2 := { (travelling 0 100).axle.ax2 with ring := [9, 9, 9] } });
      let vigil := fun b => (after .speedSample (s.setPins { base.pins with activeCab := true, vigil := b })).vigilance;
      (after .speedSample s).axle.standstill = false ∧ vigil true = ⟨.held, some 60010⟩ ∧ vigil false = ⟨.released, some 3010⟩) ∧
    (let s := fun (v : VigilState) (cab : Bool) => onBuzzer ⟨.playing 4 0 0 9000, []⟩
        (((inRole .lead (creeping 490)).setVigilance ⟨v, none⟩).setPins { base.pins with activeCab := cab });
      let t := fun v cab => after .standstillSet (s v cab);
      ((t .warnHeld true).vigilance.state, (t .warnHeld true).sound.buzzer.player) = (.off, .idle) ∧
      ((t .tripped true).vigilance.state, (t .tripped true).sound.buzzer.player) = (.tripped, .playing 4 0 0 9000) ∧
      ((t .tripped false).vigilance.state, (t .tripped false).sound.buzzer.player) = (.off, .idle)) :=
  ⟨⟨by decide, by decide, by decide, by decide⟩, by decide +kernel⟩

/-! ### The host link -/

theorem witness_FrameBytesActAsTheirRow :
    (Instr.events 255 8).request = some (255, .events 8) ∧ (Instr.events 255 8).wf = true ∧
      (Instr.set 0 605 (-2147483648)).wf = true ∧ base.host.receiver = .hunting := by
  decide

/-- A SET one byte short, a PATTERN LOAD whose step count is 1 above its steps, an ALL for IDENT. -/
theorem witness_FrameBytesActAsTheirRow_length :
    payloadLength [0, 5, 0, 0, 0] 0x10 = some 6 ∧ payloadLength [6, 0, 0, 1, 2, 0, 4] 0x52 = some 9 ∧
      payloadLength [0xFF] 0x01 = some 0 ∧ LinkReady base ∧ base.host.receiver = .hunting :=
  ⟨rfl, rfl, rfl, ⟨rfl, rfl, rfl, rfl⟩, rfl⟩

theorem witness_LinkExecutesQueuesOrRefuses_ready : (Instr.halt 3).request = some (3, .halt) ∧ LinkReady base :=
  ⟨rfl, ⟨rfl, rfl, rfl, rfl⟩⟩

/-- A fourth request waits; a fifth is answered BUSY at once, later, or is discarded. -/
theorem witness_LinkExecutesQueuesOrRefuses_busy :
    (Instr.status 3).request = some (3, .status) ∧
      (sends .free |> queueing 3).host.queue.length < 4 ∧ mayExecute (queueing 3 (sends (.sending [] false))) = false ∧
      4 ≤ (crowded .free).host.queue.length ∧ (crowded .free).host.line = .free ∧
      (crowded (.sending [] false)).host.line ≠ .free ∧ (crowded (.sending [] false)).host.busy = none ∧
      (busied (crowded (.sending [] false))).host.busy ≠ none := by
  decide

theorem witness_ReplyEndServesNext :
    (sends (.sending [1] false)).host.line = .sending [1] false ∧
      (busied (sends (.sending [1] false))).host.busy = some (2, 9) ∧
      (queueing 1 (sends (.sending [1] false))).host.queue.tail = [] ∧
      (queueing 2 (sends (.sending [1] false))).host.queue.tail = ⟨1, .status⟩ :: [] ∧
      (sends (.sending [1] true)).host.line = .sending [1] true ∧ (sends (.sending [1] true)).host.queue = [] ∧
      (busied (sends (.sending [1] true))).host.line = .sending [1] true ∧
      (busied (sends (.sending [1] true))).host.busy = some (2, 9) ∧
      (queueing 2 (sends (.sending [1] true))).host.queue = ⟨0, .status⟩ :: [⟨1, .status⟩] ∧
      (queueing 2 (sends (.sending [1] true))).host.headRunning = false ∧
      base.host.busy = none ∧ base.host.line = .free := by
  decide

theorem witness_DiscardedFramesLeaveNoTrace :
    base.host.receiver = .hunting ∧ (0x7A : Byte) ≠ 0x7B ∧ (0x7C : Byte) ≠ 0x7B ∧
      ((hears [2]).setNow 6).host.receiver = .inFrame [2] 0 ∧ 0 + 5 < ((hears [2]).setNow 6).now ∧
      (hears []).host.receiver = .inFrame [] 0 ∧ ((hears []).setNow 5).now ≤ 0 + 5 ∧ (1 : Byte).toNat < 2 ∧ 250 < (251 : Byte).toNat ∧
      (hears [2, 1, 9, 0]).host.receiver = .inFrame (2 :: [1, 9, 0]) 0 ∧ (hears [2, 1, 9, 0]).now ≤ 0 + 5 ∧
      ([1, 9, 0] : List Byte).length + 1 = (2 : Byte).toNat + 2 ∧
      frameGood (2 :: ([1, 9, 0] ++ [0])) = false := by
  refine ⟨by decide, by decide, by decide, by decide, by decide, by decide, by decide, by decide, by decide, by decide,
    by decide, by decide, by decide +kernel⟩

theorem witness_ReadsChangeNothing :
    LinkReady base ∧ groupOf 605 = some .g6 ∧ groupOf 606 = none ∧ axleOf 3 = some .ax3 ∧ 3 < 4 ∧
      base.stop.buttons[23]? = some .atReset ∧ base.stop.buttons[24]? = none ∧
      (listing [point 1 0 .pending]).route.table[0]? = some (point 1 0 .pending) ∧
      (listing [point 1 0 .pending]).route.table[1]? = none ∧ (point 1 0 .pending).tag ≠ 0 ∧
      (∀ x ∈ [point 1 0 .pending].take 0, x.tag ≠ 1) ∧ (∀ e ∈ (listing [point 1 0 .pending]).route.table, e.tag ≠ 2) ∧ 1 < 2 ∧
      (base.axle.channel .ax2).shown.ring.length = 10 :=
  ⟨⟨rfl, rfl, rfl, rfl⟩, by decide⟩

theorem witness_EventsGivesFirstRecords : LinkReady base ∧ (0 = 0 ∨ 8 < 0) ∧ 8 < 9 ∧ 1 ≤ 1 ∧ 8 ≤ 8 :=
  ⟨⟨rfl, rfl, rfl, rfl⟩, by decide⟩

/-- The event is held, there is room, or the set is full and its last record is of a lower kind. -/
theorem witness_RaiseFollowsThreeCases :
    EventLaw base.host ∧ (∃ x ∈ base.host.events, x.kind = 1 ∧ x.subject = 0) ∧
      (¬∃ x ∈ base.host.events, x.kind = 1 ∧ x.subject = 1) ∧ base.host.events.length < 64 ∧
      EventLaw fullSet.host ∧ (¬∃ x ∈ fullSet.host.events, x.kind = 6 ∧ x.subject = 0) ∧ fullSet.host.events.length = 64 ∧
      fullSet.host.events.getLast? = some ⟨5, 63, false, 0, 0⟩ :=
  ⟨⟨by decide, by decide, by decide⟩, by decide, by decide, by decide, ⟨by decide, by decide, by decide⟩, by decide,
    by decide, by decide⟩

/-! ### The axle unit -/

theorem witness_EncoderEdgeCounts :
    base.axle.ax0.phaseA ≠ true ∧ base.axle.ax0.phaseB = false ∧ base.axle.ax0.mode = .phase4x := by
  decide

/-- One error inside the limit of 16, the seventeenth beyond it; a window that is open. -/
theorem witness_PhaseErrorsFailChannel :
    base.axle.ax1.mode ≠ .pulseDir ∧ ¬(base.cfgN Setting.phaseErrorLimit < 16) ∧ base.cfgN Setting.phaseErrorLimit < 17 ∧
      (onAx2 fun c => { c with window := some ⟨16, 1000⟩ }).axle.ax2.window = some ⟨16, 1000⟩ ∧ base.axle.ax2.window = none := by
  decide

theorem witness_SampleFormsSpeeds : base.settings.pending = [] ∧ exec .speedSample base = .next (after .speedSample base) :=
  ⟨rfl, rfl⟩

/-- Agreement at the tolerance; a run one sample short of its time, and past it; each other source; LOST entered. -/
theorem witness_SampleSelectsReference :
    (let t := after .speedSample (apart 9);
      ((t.axle.ax2.speed - t.axle.ax3.speed).natAbs : Int) ≤ (apart 9).cfg Setting.agreeTolerance) ∧
    (let t := after .speedSample (apart 10);
      (apart 10).cfg Setting.agreeTolerance < ((t.axle.ax2.speed - t.axle.ax3.speed).natAbs : Int) ∧
        t.axle.source = .larger .ax2) ∧
    (let s := ((apart 10).setAxle { (apart 10).axle with disagreement := some 0 }).setNow 2001;
      s.axle.disagreement.getD 2001 + s.cfgN Setting.disagreementTime < max s.now s.axle.sampleDue ∧
        (after .speedSample s).axle.source = .single .ax2) ∧
    (after .speedSample (single .suspect .ok)).axle.source = .single .ax3 ∧
    (after .speedSample (single .ok .failed)).axle.source = .single .ax2 ∧
    (after .speedSample (single .failed .suspect)).axle.source = .degraded .ax0 ∧
    (after .speedSample lost).axle.source = .lost ∧ lost.axle.source = .mean := by
  decide

/-- An agreement run of AX2 one sample short of 10 s and one at it, with AX3 OK; a run past its disagreement, and each entry into
DEGRADED and LOST, told. -/
theorem witness_SampleSelectsReference_runs :
    (let s := fun (began : Nat) => (onAx2 fun c => { c with state := .suspect, agreement := some began }).setNow 10010;
      let of := fun (t : State) => (t.axle.ax2.state, t.axle.ax2.agreement);
      (s 11).axle.ax2.state = .suspect ∧ (s 11).axle.ax3.state = .ok ∧ of (after .speedSample (s 11)) = (.suspect, some 11) ∧
        of (after .speedSample (s 10)) = (.ok, none)) ∧
    (let s := quiet (((apart 10).setAxle { (apart 10).axle with disagreement := some 0 }).setNow 2001);
      let t := after .speedSample s;
      s.host.events = [] ∧ t.host.incomplete = false ∧ (10, 3, ((t.axle.ax2.speed - t.axle.ax3.speed).natAbs : Int)) ∈ raised t) ∧
    (let t := after .speedSample (quiet (single .failed .suspect)); (11, 0, t.axle.refSpeed) ∈ raised t) ∧
    (let t := after .speedSample (quiet lost); (29, 0, 0) ∈ raised t ∧ t.halt.causes.referenceLost = true) := by
  decide

/-- Two samples in LOST: the cause the entry made present stays so, and one that is not present stays so too. -/
theorem witness_SampleSelectsReference_stays :
    (let s := after .speedSample lost;
      s.axle.source = .lost ∧ s.halt.causes.referenceLost = true ∧
        ([s, s.setHalt { s.halt with causes := .none }].map fun s =>
          let t := after .speedSample s
          (t.axle.source, t.halt.causes.referenceLost)) = [(.lost, true), (.lost, false)]) := by
  decide +kernel

/-- A route held at 0, one moved, one held at its end, one inactive. -/
theorem witness_SampleMovesRoute :
    (listing []).route.active = true ∧ base.route.active = false ∧
      (after .speedSample (travelling 0 (-1))).axle.refTravel < 0 ∧
      16000001 * 25600 ≤ (16000000 : Int) * 25600 + (after .speedSample (travelling 16000000 50)).axle.refTravel ∧
      (after .speedSample (travelling 16000000 49)).route.distance = 16000000 ∧
      (after .speedSample lost).axle.source = .lost := by
  decide

/-- A sample that crosses A, E and C, and one that stops a dm short of C; a standing sample at a restriction's clear point; a stop
served as the standstill flag is set. -/
theorem witness_SampleMovesRoute_sweep :
    RouteLaw (sweeping 98 0 [point 1 0 .pending]).route ∧
    (let s := sweeping 98 10000 [point 1 0 .pending];
      let t := after .speedSample s;
      s.settings.pending = [] ∧ s.route.distance ≤ t.route.distance ∧ t.route.distance = 300 ∧ entries t = [(1, 3, 5)]) ∧
    (let t := after .speedSample (sweeping 98 9945 [point 1 0 .pending]);
      t.route.distance = 299 ∧ entries t = [(1, 2, 2)]) ∧
    RouteLaw (sweeping 520 0 [slowing 5000]).route ∧
    (let s := sweeping 520 0 [slowing 5000];
      let t := after .speedSample s;
      t.route.setLength = s.route.setLength ∧ s.pins.doorRelease = false ∧ t.route.distance = 520 ∧
        t.route.term = .line ∧ entries t = [(3, 2, RestrictionState.code .done)]) ∧
    (let r := sweeping 520 0 [slowing 5000];
      let s := r.setPins { r.pins with coupling := true };
      let t := after .speedSample s;
      t.route.setLength = 640 ∧ s.pins.doorRelease = false ∧ s.route.distance ≤ t.route.distance ∧
        entries t = [(3, 1, RestrictionState.code .active)]) ∧
    entries (after .speedSample (sweeping 519 0 [slowing 5000])) = [(3, 1, RestrictionState.code .active)] ∧
    (let r := sweeping 120 0 [halting 1 .announced];
      let s := doorsOpen (r.setAxle (creeping 490).axle);
      let t := after .speedSample s;
      RouteLaw s.route ∧ s.axle.standstill = false ∧ t.axle.standstill = true ∧ (halting 1 .announced).servedIn s ∧
        t.route.setLength = s.route.setLength ∧ s.route.distance ≤ t.route.distance ∧
        entries t = [(1, 1, StopState.code .served)]) :=
  ⟨lone_lawful 98 _ (by decide) (point_entry 0 .pending), by decide +kernel, by decide +kernel,
    lone_lawful 520 _ (by decide) ⟨by decide, by decide, by decide⟩, by decide +kernel, by decide +kernel, by decide +kernel,
    lone_lawful 120 _ (by decide) ⟨by decide, by decide, by decide⟩, by decide, by decide +kernel,
    ⟨_, rfl, .inr rfl, by decide, by decide, by decide⟩, by decide +kernel, by decide +kernel, by decide +kernel⟩

/-- A run that reaches 500 ms at this sample, one that does not, and a reference too fast for one. -/
theorem witness_StandstillGatesRole :
    (after .speedSample (creeping 490)).axle.standstill = true ∧ (after .speedSample (creeping 489)).axle.standstill = false ∧
      (after .speedSample (creeping 489)).axle.source ≠ .lost ∧ (after .speedSample lost).axle.source = .lost ∧
      ¬((after .speedSample (travelling 9 50)).axle.refSpeed.natAbs : Int) < base.cfg Setting.standstillThreshold := by
  decide

theorem witness_AxleThresholdsAct :
    (let s := base.setAxle { base.axle with disagreement := some 0 };
      s.axle.ax2.state = .ok ∧ s.axle.ax3.state = .ok ∧ s.axle.disagreement = some 0) ∧
    (let s := onAx2 fun c => { c with state := .suspect, agreement := some 7 };
      s.axle.ax2.state = .suspect ∧ s.axle.ax3.state = .ok ∧ s.axle.ax2.agreement = some 7) ∧
    (let s := base.setAxle { base.axle with ax3 := { base.axle.ax3 with state := .suspect, agreement := some 7 } };
      s.axle.ax3.state = .suspect ∧ s.axle.ax2.state = .ok ∧ s.axle.ax3.agreement = some 7) ∧
    (let s := creeping 490;
      s.axle.standstill = false ∧ s.axle.source ≠ .lost ∧ s.axle.standstillRun = some 490) := by
  decide

/-- A latch BRAKING at the sample that sets the flag and one STOPPED at a sample that clears it, with its acknowledgement run; a
LEAD at full power that loses its reference, and one whose cab key is off at standstill. -/
theorem witness_SampleKeepsLatchAndTraction :
    (let s := (latched .rollback { Causes.none with rollback := true, host := true } (creeping 490));
      let t := after .standstillSet (s.setHalt { s.halt with latch := some ⟨.rollback, 1, 2, 3, false⟩, ackRun := some 5 });
      (t.halt.latch, t.halt.ackRun, t.halt.causes, t.traction) =
        (some ⟨.rollback, 1, 2, 3, true⟩, some 5, { Causes.none with host := true }, s.traction)) ∧
    (let s := (latched .host Causes.none (onAx2 fun c => { c with ring := List.replicate 10 90 }));
      let s' := (s.setAxle { s.axle with ax3 := s.axle.ax2 }).setHalt { s.halt with ackRun := some 5 };
      let t := after .speedSample s';
      CausesFollow s ∧ t.axle.standstill = false ∧
        (t.halt.latch, t.halt.ackRun, t.traction) = (some ⟨.host, 0, 0, 0, false⟩, none, s.traction)) ∧
    (let s := (driving 1000).setAxle { lost.axle with standstill := false };
      let t := after .speedSample s;
      s.halt.latch = none ∧ t.halt.latch = some ⟨.referenceLost, 10, 0, 0, false⟩ ∧ t.traction.state = .halted ∧
        (t.traction.effort, t.traction.lineA) = (0, .duty 500)) ∧
    (let s := (driving 1000).setAxle base.axle;
      let t := after .speedSample s;
      (t.lines.role, t.traction.state, t.traction.effort, t.traction.lineA) = (.noCab, .inhibited, 0, .low)) :=
  ⟨by decide +kernel, ⟨⟨⟨fun h => absurd h (by decide), fun ⟨_, h, _⟩ => absurd h (List.not_mem_nil)⟩,
    ⟨fun h => absurd h (by decide), fun ⟨_, h, _⟩ => absurd h (List.not_mem_nil)⟩⟩, by decide +kernel⟩, by decide +kernel,
    by decide +kernel⟩

/-- The sample that loses the reference tells the latch it sets, with the first cause and the held speed. -/
theorem witness_SampleKeepsLatchAndTraction_told :
    (let s := quiet ((driving 1000).setAxle { lost.axle with standstill := false, refSpeed := 4000 });
      let t := after .speedSample s;
      s.halt.latch = none ∧ t.host.incomplete = false ∧ t.halt.latch = some ⟨.referenceLost, 10, 0, 4000, false⟩ ∧
        raised t = [(30, 7, 4000), (29, 0, 4000)]) := by
  decide +kernel

theorem witness_AxleResetServicesChannels :
    LinkReady base ∧ base.axle.standstill = true ∧ (rolling 1 base).axle.standstill = false ∧ 3 < 4 ∧ 254 ≠ 255 :=
  ⟨⟨rfl, rfl, rfl, rfl⟩, by decide⟩

/-! ### The effort chain -/

/-- Both ends of each range of the HANDLE code and of u; an invalid code held and past its hold; a LEAD, a TRAIL, no cab. -/
theorem witness_StageOneReadsDemand :
    (driving 0).lines.role = .lead ∧ 7 ≤ 7 ∧ 8 ≤ 103 ∧ 104 ≤ 151 ∧ 152 ≤ 247 ∧ 247 < 248 ∧
      ((driving 0).traction.invalidRun.getD 10 + 200 = 210) ∧ (inRole .trail base).lines.demandU < 30 ∧
      30 ≤ (inRole .trail (hearing 970)).lines.demandU ∧ (inRole .trail (hearing 970)).lines.demandU ≤ 970 ∧
      970 < (inRole .trail (hearing 971)).lines.demandU ∧ base.lines.role = .noCab := by
  decide

/-- Each clause's hypotheses met; a NEUTRAL ignored on the move stays ignored at standstill where the role is not TRAIL, and a
TRAIL's first judged at standstill is taken and holds it INHIBITED. -/
theorem witness_DirectionTakenAtStandstill :
    selected true false = .forward ∧ (driving 0).traction.direction = .forward ∧ base.traction.direction ≠ .forward ∧
      base.traction.ignored ≠ some .forward ∧ base.axle.standstill = true ∧ (rolling 1 base).axle.standstill = false ∧
      base.cfgN Setting.settleTime ≠ 0 ∧
      (let s := (withTraction fun x => { x with direction := .forward, ignored := some .neutral });
        let t := after (.controlPeriod ⟨104, false, false, false, false⟩) s;
        let fresh := { s.traction with state := .running, ignored := none };
        let v := after (.controlPeriod ⟨104, false, false, false, false⟩) (inRole .trail (s.setTraction fresh));
        (t.traction.direction, t.traction.ignored) = (.forward, some .neutral) ∧ s.axle.standstill = true ∧
          s.lines.role ≠ .trail ∧ selected false false = .neutral ∧
          (v.traction.direction, v.traction.ignored, v.traction.state) = (.neutral, none, .inhibited)) := by
  decide

/-- Each position refused on the move is told once with the speed; one ignored already is not told again. -/
theorem witness_DirectionTakenAtStandstill_ignored :
    (let s := quiet (driving 0);
      let told := fun (s : State) (f r : Bool) => raised (after (.controlPeriod ⟨104, f, r, false, false⟩) s);
      s.host.events = [] ∧ [told s false false, told s true false, told s false true] = [[(9, 0, 5000)], [], [(9, 2, 5000)]] ∧
        told (s.setTraction { s.traction with direction := .reverse }) true false = [(9, 1, 5000)] ∧
        told (s.setTraction { s.traction with ignored := some .neutral }) false false = []) := by
  decide +kernel

/-- Both sides of log entry 41: a TRAIL's NEUTRAL ignored on the move, at standstill: taken, with the trail INHIBITED, as R79 says,
or left ignored, as R26 and R27 say; on the move it is left ignored on either side. -/
theorem test_trail_ignored_neutral :
    (let s := inRole .trail (withTraction fun x => { x with direction := .forward, ignored := some .neutral, state := .running });
      let judged := fun retake s => (let t := judgeDirectionBy retake s.settings s;
        (t.traction.direction, t.traction.ignored, t.traction.state));
      judged true s = (.neutral, none, .inhibited) ∧ judged false s = (.forward, some .neutral, .running) ∧
        judged true (rolling 1 s) = (.forward, some .neutral, .running)) := by
  decide

/-- An INHIBITED unit held by NEUTRAL, one that leaves for RUNNING, and one for START_HELD. -/
theorem witness_InhibitReasonsHoldUnit :
    HaltLaw base ∧ base.traction.state = .inhibited ∧
      (after (.controlPeriod ⟨104, false, false, false, false⟩) base).traction.direction = .neutral ∧
      (after (.controlPeriod (handle 104)) (poised false)).traction.state = .running ∧
      (after (.controlPeriod (handle 104)) (poised true)).traction.state = .startHeld ∧
      (poised true).traction.state = .inhibited ∧ HaltLaw (poised true) :=
  ⟨⟨by decide, by decide⟩, by decide, by decide, by decide, by decide, by decide, ⟨by decide, by decide⟩⟩

/-- At the ceiling and the margin overspeed begins; at the ceiling it ends; a rollback one beyond its limit. -/
theorem witness_OverspeedAndRollbackJudged :
    (rolling 17700 base).traction.overspeed = false ∧ base.route.ceiling + base.cfg Setting.overspeedMargin ≤ 17700 ∧
      ¬(base.route.ceiling + base.cfg Setting.overspeedMargin ≤ 17699) ∧ base.route.ceiling < 16701 ∧ ¬(base.route.ceiling < 16700) ∧
      (after (.controlPeriod (handle 104)) (backing 301)).traction.direction ≠ .neutral ∧
      (backing 301).axle.refSpeed < -(backing 301).cfg Setting.rollbackLimit ∧ ¬((backing 300).axle.refSpeed < -300) := by
  decide

/-- A rollback one beyond its limit latches and is told; one at it leaves ROLLBACK as it was. A TRAIL's DEMAND lost at 100 ms, not
yet 1 ms before, and valid again; a drive that ends with it takes TRAINLINE from the line. -/
theorem witness_OverspeedAndRollbackJudged_causes :
    (let s := quiet (backing 301);
      let t := after (.controlPeriod (handle 104)) s;
      s.halt.latch = none ∧ s.lines.role ≠ .trail ∧ t.host.incomplete = false ∧
        t.halt.latch = some ⟨.rollback, 10, 0, -301, false⟩ ∧ t.sound = (askFor 0 (s.setNow 10)).sound ∧
        t.sound.buzzer.player = .playing 0 0 0 310 ∧ raised t = [(30, 6, -301)]) ∧
    (let rolls := fun b => (after (.controlPeriod (handle 104)) ((backing 300).setHalt
        { base.halt with causes := { Causes.none with rollback := b, host := true } })).halt.causes;
      (rolls true, rolls false) =
        ({ Causes.none with rollback := true, host := true }, { Causes.none with host := true })) ∧
    (let lost := fun (u start : Nat) (b : Bool) => (after (.controlPeriod (handle 104)) ((inRole .trail (hearing u)).setTraction
        { base.traction with demandLoss := some start } |>.setHalt
        { base.halt with causes := { Causes.none with demandLost := b } } |>.setNow 150)).halt.causes.demandLost;
      [lost 29 50 false, lost 29 51 false, lost 971 50 true, lost 970 50 true] = [true, false, true, false]) ∧
    (let s := inRole .trail (hearing 500);
      let drives := (s.setLines { s.lines with halting := true }).setPins { s.pins with haltLine := true };
      (after (.controlPeriod (handle 104)) (drives.setHalt
        { base.halt with causes := { Causes.none with demandLost := true } })).halt.causes =
        { Causes.none with trainline := true }) ∧
    DriveLaw base ∧ base.lines.role ≠ .trail :=
  ⟨by decide +kernel, by decide +kernel, by decide +kernel, by decide +kernel, by unfold DriveLaw; decide, by decide⟩

theorem witness_PassMovesEffort_ramp : (0 : Int) < 1 ∧ (0 : Int) < 12 ∧ (0 : Int) < 20 := by decide

/-- A power demand held back in INHIBITED and, in a TRAIL, in START_HELD: a braking E eases to 0 by the release rate. A TRAIL that
brakes as DEMAND has it. An overspeed that stands and one that begins: toward the overspeed brake level, from 0 where the gate has
just closed on a positive E. -/
theorem witness_PassMovesEffort_targets :
    (let s := (driving (-500)).setTraction { (driving (-500)).traction with state := .inhibited, direction := .neutral };
      let t := after (.controlPeriod ⟨247, false, false, false, false⟩) s;
      HaltLaw s ∧ GateLaw s.traction ∧ ebAsserted t = false ∧
        (t.traction.state, t.lines.previousDemand, t.traction.effort) = (.inhibited, 1000, -480)) ∧
    (let trail := fun (u : Nat) (e : Int) (st : TractionState) =>
        let d := driving e;
        (d.setLines { d.lines with role := .trail, coupled := true, demandU := u }).setTraction { d.traction with state := st };
      let pass := after (.controlPeriod ⟨104, false, false, true, false⟩);
      ((pass (trail 950 (-500) .startHeld)).traction.state, (pass (trail 950 (-500) .startHeld)).traction.effort) =
        (.startHeld, -480) ∧
      ((pass (trail 300 (-400) .running)).lines.previousDemand, (pass (trail 300 (-400) .running)).traction.effort) =
        (-444, -412) ∧ (pass (trail 950 (-5) .running)).traction.effort = 0) ∧
    (let fast := fun (e : Int) (flag : Bool) =>
        let d := driving e;
        (d.setAxle { d.axle with refSpeed := 17700 }).setTraction { d.traction with overspeed := flag };
      ((after (.controlPeriod (handle 247)) (fast (-290) true)).traction.effort,
        (after (.controlPeriod (handle 247)) (fast 500 false)).traction.effort,
        (after (.controlPeriod (handle 8)) (fast (-995) true)).traction.effort) = (-300, -12, -1000)) :=
  ⟨⟨⟨by decide, by decide⟩, fun h => absurd h (by decide), by decide⟩, by decide, by decide⟩

/-- An EMERGENCY handle, a unit that stays HALTED, one that stays RUNNING at full power and one that brakes. -/
theorem witness_PassMovesEffort :
    SettingsLaw halted.settings ∧ SettingsLaw (driving 995).settings ∧ ebAsserted (after (.controlPeriod (handle 7)) (driving 0)) = true ∧
      (let t := after (.controlPeriod (handle 104)) halted;
        ebAsserted t = false ∧ halted.traction.state = .halted ∧ t.traction.state = .halted) ∧
      (let t := after (.controlPeriod (handle 247)) (driving 995);
        ebAsserted t = false ∧ (driving 995).traction.state = .running ∧ t.traction.state = .running ∧
          t.traction.overspeed = false ∧ t.lines.previousDemand = 1000 ∧ t.traction.effort = 1000) ∧
      (after (.controlPeriod (handle 8)) (driving 10)).traction.effort = 0 :=
  ⟨⟨by decide, by decide, by decide⟩, ⟨by decide, by decide, by decide⟩, by decide⟩

theorem witness_PassWritesOutputs :
    (let t := after (.controlPeriod (handle 104)) base; t.traction.state = .inhibited ∧ t.traction.effort = 0) ∧
      (let t := after (.controlPeriod (handle 247)) (driving 0);
        t.traction.effort ≠ 0 ∧ 0 < t.lines.previousDemand ∧ gateOpen t = true ∧ (driving 0).traction.overspeed = false) ∧
      (let t := after (.controlPeriod (handle 247)) (inRole .lead halted); 0 < t.lines.previousDemand ∧ gateOpen t = false) ∧
      (after (.controlPeriod (handle 151)) (driving 0)).lines.previousDemand ≤ 0 ∧ base.lines.role ≠ .lead := by
  decide

theorem witness_EffortTimersAct :
    (withTraction fun x => { x with settle := some 5 }).traction.settle = some 5 ∧
      (inRole .lead (withTraction fun x => { x with invalidRun := some 5 })).traction.invalidRun = some 5 ∧
      (inRole .lead base).traction.handleFaultMark = false ∧
      (withTraction fun x => { x with handleFaultMark := true }).traction.handleFaultMark = true ∧
      (let s := quiet (inRole .trail (withTraction fun x => { x with demandLoss := some 5 }));
        s.traction.demandLoss = some 5 ∧ s.host.events = [] ∧ (after .demandLost s).host.incomplete = false ∧
          (3, 0, 0) ∈ raised (after .demandLost s)) ∧
      base.halt.causes.demandLost = false := by
  decide

/-- A clear latch sets with DEMAND LOST and is told; a set one stays as it is. -/
theorem witness_EffortTimersAct_latch :
    (let s := quiet (inRole .trail (withTraction fun x => { x with demandLoss := some 5 }));
      let t := after .demandLost s;
      s.halt.latch = none ∧ t.halt.latch = some ⟨.demandLost, 105, 0, 0, true⟩ ∧ (30, 2, 0) ∈ raised t ∧
        t.sound = (askFor 0 (s.setNow t.now)).sound ∧
        (after .demandLost (latched .host .none s)).halt.latch = some ⟨.host, 0, 0, 0, true⟩) := by
  decide +kernel

theorem witness_DoorReleaseStopsPower :
    (driving 1).pins.doorRelease = false ∧ (driving 1).traction.state = .running ∧ 0 < (driving 1).traction.effort ∧
      halted.traction.state = .halted ∧ base.traction.effort ≤ 0 ∧ (doorsOpen base).pins.doorRelease = true := by
  decide

/-- A stop at the end of its zone; one dm on it is not served, nor with its approach ahead. -/
theorem witness_DoorReleaseStopsPower_served :
    (let s := quiet (sweeping 120 0 [halting 1 .announced]);
      RouteLaw s.route ∧ s.settings.pending = [] ∧ s.axle.standstill = true ∧ s.host.events = [] ∧
        halting 1 .announced ∈ s.route.table ∧ (halting 1 .announced).servedIn s ∧
        (∀ x ∈ s.route.table, x.servedIn s → x = halting 1 .announced) ∧
        entries (after .doorReleaseAsserted s) = [(1, 1, StopState.code .served)] ∧
        raised (after .doorReleaseAsserted s) = [(5, 1, 3)]) ∧
    entries (after .doorReleaseAsserted (sweeping 121 0 [halting 1 .announced])) = [(1, 1, StopState.code .announced)] ∧
    entries (after .doorReleaseAsserted (sweeping 70 0 [{ halting 1 .announced with crossed := 0 }])) =
      [(1, 0, StopState.code .announced)] ∧
    entries (after .doorReleaseAsserted (sweeping 70 0 [halting 1 .approaching])) = [(1, 1, StopState.code .served)] ∧
    (let s := sweeping 320 0 [halting 1 .passed, ⟨2, 1, .stop ⟨250, 340, 4, false, .announced⟩⟩];
      entries (after .doorReleaseAsserted s) = [(2, 1, StopState.code .served)]) :=
  ⟨⟨lone_lawful 120 _ (by decide) ⟨by decide, by decide, by decide⟩, by decide, by decide, by decide, List.mem_singleton.2 rfl,
      ⟨_, rfl, .inr rfl, by decide, by decide, by decide⟩, fun x h _ => List.mem_singleton.1 h, by decide +kernel,
      by decide +kernel⟩,
    by decide +kernel, by decide +kernel, by decide +kernel, by decide +kernel⟩

/-! ### The adhesion section -/

/-- A bogie at effort 0, a faulted one, one that slips, and one whose slip has outlasted its limit. -/
theorem witness_AdhesionFollowsSlip :
    (after (.controlPeriod (handle 104)) base).traction.effort = 0 ∧
      (let t := after (.controlPeriod (handle 247)) (spinning ⟨.adhering, 1000, none, false⟩);
        t.traction.effort ≠ 0 ∧ (t.adhesion.a.state, t.adhesion.a.k) = (.slipping, 960)) ∧
      (let t := after (.controlPeriod (handle 247)) (spinning ⟨.slipping, 250, some 0, true⟩);
        t.traction.effort ≠ 0 ∧ t.adhesion.a = ⟨.slipping, 250, some 0, true⟩) ∧
      (after (.controlPeriod (handle 247)) ((spinning ⟨.slipping, 500, some 0, false⟩).setNow 4000)).adhesion.a.fault = false ∧
      (after (.controlPeriod (handle 247)) ((spinning ⟨.slipping, 500, some 0, false⟩).setNow 4001)).adhesion.a.fault = true := by
  decide

theorem witness_AdhesionFaultHoldsFactor :
    (let s := spinning ⟨.slipping, 500, some 3, false⟩;
      (s.adhesion.bogie .a).state = .slipping ∧ (s.adhesion.bogie .a).fault = false ∧
        (s.adhesion.bogie .a).slipTimer = some 3 ∧ s.axle.ax0.sampled ≠ .failed ∧ s.axle.source ≠ .lost ∧
        (s.setAxle { s.axle with ax0 := { s.axle.ax0 with sampled := .failed } }).axle.ax0.sampled = .failed ∧
        (s.setAxle { s.axle with source := .lost }).axle.source = .lost) := by
  decide

/-- SAND begins at the threshold and not above it; a run and a rest. -/
theorem witness_SandFollowsConditions :
    (let s := spinning ⟨.slipping, 740, some 0, false⟩;
      s.adhesion.sand = .off ∧ (after (.controlPeriod (handle 247)) s).adhesion.a.k = 700 ∧
        s.cfg Setting.sandThreshold = 700 ∧ s.cfg Setting.sandMinSpeed ≤ s.axle.refSpeed ∧ s.axle.standstill = false ∧
        s.route.sandInhibit = false ∧ (after (.controlPeriod (handle 247)) s).adhesion.sand = .on 10010) ∧
      sanding.adhesion.sand = .on 10 ∧ (withSand (.resting 4)).adhesion.sand = .resting 4 := by
  decide

/-- R55, R57: the standstill flag releases SAND at once; STATUS sends what the last step left, until the next. -/
theorem test_status_sand :
    (let s := (creeping 490).setAdhesion { base.adhesion with sand := .on 900, stepSand := .on 900 };
      let t := after .speedSample s;
      let u := after (.controlPeriod (handle 104)) t;
      [sandAsserted s, sandAsserted t, sandAsserted u] = [true, false, false] ∧
        [(statusBytes s)[19]?, (statusBytes t)[19]?, (statusBytes u)[19]?] = [some 1, some 1, some 0]) := by
  decide +kernel

/-! ### Halts, vigilance and the train lines -/

theorem witness_HaltLatchesAndResumeEndsHost :
    LinkReady (driving 500) ∧ HaltLaw (driving 500) ∧ (driving 500).halt.latch = none ∧ (driving 500).traction.state = .running ∧
      LinkReady halted ∧ HaltLaw halted ∧ halted.halt.latch = some ⟨.host, 0, 0, 0, true⟩ ∧ halted.lines.halting = false ∧
      (after (.halt 1) base).lines.halting = true ∧ (after (.resume 1) (ready (after (.halt 1) base))).lines.halting = false :=
  ⟨⟨rfl, rfl, rfl, rfl⟩, ⟨by decide, by decide⟩, by decide, by decide, ⟨rfl, rfl, rfl, rfl⟩, ⟨by decide, by decide⟩,
    by decide, by decide, by decide, by decide⟩

/-- HALT on a clear latch is told, with the warning on an idle buzzer; on a set one nothing is. Of three causes that join, the
highest that was not present is first. -/
theorem witness_HaltLatchesAndResumeEndsHost_told :
    (let s := quiet (driving 500);
      let t := after (.halt 1) s;
      s.sound.buzzer = ⟨.idle, []⟩ ∧ t.host.incomplete = false ∧ raised t = [(30, 1, 5000)] ∧
        t.sound.buzzer = ⟨.playing 0 0 0 300, []⟩) ∧
    (let t := after (.halt 1) (quiet halted); (raised t, t.sound) = ([], base.sound)) ∧
    (let joined := fun c s => (addCauses [.host, .rollback, .junction] (s.setHalt { s.halt with causes := c }));
      base.halt.latch = none ∧ base.halt.causes.has .rollback = false ∧ Cause.junction.code ≤ Cause.rollback.code ∧
        (joined .none (quiet base)).halt.latch = some ⟨.rollback, 0, 0, 0, true⟩ ∧
        raised (joined .none (quiet base)) = [(30, 6, 0)] ∧
        (joined { Causes.none with rollback := true } base).halt.latch = some ⟨.junction, 0, 0, 0, true⟩ ∧
        (joined .none halted).halt.latch = halted.halt.latch) := by
  decide +kernel

/-- A run one pass short of its second, and one at it; a shallower handle. -/
theorem witness_AcknowledgementReleasesHalt :
    (let s := braking 11;
      s.halt.latch = some ⟨.host, 0, 0, 0, true⟩ ∧ s.halt.causes.any = false ∧ s.lines.halting = false ∧
        s.halt.ackRun = some 11 ∧ (after (.controlPeriod (handle 17)) s).lines.previousDemand ≤ -900 ∧
        (after (.controlPeriod (handle 17)) s).halt.latch ≠ none ∧ raised (after .haltReleased (quiet s)) = [(20, 1, 1)]) ∧
      (after (.controlPeriod (handle 17)) (braking 10)).halt.latch = none ∧
      raised (after (.controlPeriod (handle 17)) (quiet (braking 10))) = [(20, 1, 1)] ∧
      -900 < (after (.controlPeriod (handle 18)) (braking 10)).lines.previousDemand := by
  decide

/-- RESUME, which lets no RESTART FULL execute, and a RESTART FULL that a coupled LEAD refuses, leave the latch set; a sample that
sets the flag has it STOPPED. -/
theorem witness_AcknowledgementReleasesHalt_kept :
    ¬RestartsFull (.resume 1) halted ∧ (after (.resume 1) halted).halt.latch = halted.halt.latch ∧
      (let s := latched .host .none (poised true);
        s.axle.standstill = true ∧ s.lines.role = .lead ∧ s.lines.coupled = true ∧
          (after (.restartFull 1) s).halt.latch = s.halt.latch ∧
          (after (.restartFull 1) (latched .host .none base)).halt.latch = none) ∧
      (let s := (creeping 490).setHalt { base.halt with latch := some ⟨.host, 1, 2, 3, false⟩ };
        (after .standstillSet s).halt.latch = some ⟨.host, 1, 2, 3, true⟩) := by
  refine ⟨?_, by decide +kernel⟩
  rintro (⟨_, h⟩ | ⟨_, _, h, _⟩ | ⟨_, _, _, h, _⟩)
  · cases h
  · exact absurd h List.not_mem_nil
  · cases h

/-- A latch BRAKING, and one with a cause that stays, do not let go; a TRAIL's does at the pass that finds its DEMAND valid. -/
theorem witness_AcknowledgementReleasesHalt_holds :
    (let pass := fun s => (after (.controlPeriod (handle 17)) s).halt;
      let s := braking 10;
      pass (s.setHalt { s.halt with latch := some ⟨.host, 0, 0, 0, false⟩ }) =
          ⟨.none, some ⟨.host, 0, 0, 0, false⟩, none⟩ ∧
        pass (s.setHalt { s.halt with causes := { Causes.none with junction := true } }) =
          ⟨{ Causes.none with junction := true }, some ⟨.host, 0, 0, 0, true⟩, none⟩ ∧
        (let l := inRole .trail ((s.setHalt { s.halt with causes := { Causes.none with demandLost := true } }).setLines
            { s.lines with demandU := 95 });
          (l.halt.latch, (pass l).latch) = (some ⟨.host, 0, 0, 0, true⟩, none)) ∧
        (after .haltReleased s).halt.latch = none) := by
  decide +kernel

theorem witness_VigilanceFollowsItsTable :
    base.pins.vigil = false ∧ base.vigilance.state = .off ∧ (watching .released).vigilance = ⟨.released, some 5⟩ ∧
      (base.setVigilance ⟨.tripped, none⟩).vigilance.state = .tripped ∧ (driving 0).lines.role = .lead ∧
      (driving 0).axle.standstill = false ∧ (base.setPins { base.pins with vigil := true }).pins.vigil = true ∧
      (watching .held).vigilance = ⟨.held, some 5⟩ ∧ (watching .warnReleased).vigilance = ⟨.warnReleased, some 5⟩ ∧
      (watching .warnHeld).vigilance = ⟨.warnHeld, some 5⟩ ∧ base.settings.pending = [] ∧ base.sound.buzzer = ⟨.idle, []⟩ ∧
      (base.setHost { base.host with events := [] }).host.events = [] := by
  decide

/-- A trip on a clear latch is told with VIGILANCE. -/
theorem witness_VigilanceFollowsItsTable_trips :
    (let s := quiet ((driving 0).setVigilance ⟨.warnReleased, some 5⟩);
      let t := after .warnToHaltExpiry s;
      HaltLaw s ∧ s.halt.latch = none ∧ t.halt.latch = some ⟨.vigilance, 5, 0, 5000, false⟩ ∧ raised t = [(30, 4, 5000)] ∧
        t.sound = (askFor 0 (s.setNow 5)).sound) :=
  ⟨⟨by decide, by decide⟩, by decide +kernel⟩

/-- A LEAD 40 and 41 per mille from its duty, at the ninth and the tenth window of conflict; one that wrote nothing. -/
theorem witness_DemandWindowFindsConflict :
    (driving 0).lines.demandDrive = some 500 ∧ (driving 0).lines.demandChanged = false ∧ 10000 ≤ 10000 ∧
      (((5400 / 10 : Nat) : Int) - 500).natAbs ≤ 40 ∧ 40 < (((5410 / 10 : Nat) : Int) - 500).natAbs ∧
      (disputed 8).lines.conflictRun < 9 ∧ 9 ≤ (disputed 9).lines.conflictRun ∧ base.lines.demandDrive = none ∧
      HaltLaw (disputed 9) ∧ DriveLaw (disputed 9) ∧ (disputed 9).traction.state = .running ∧
      (after (.demandWindowExpiry 5410) (disputed 9)).traction.state = .inhibited :=
  ⟨by decide, by decide, by decide, by decide, by decide, by decide, by decide, by decide, ⟨by decide, by decide⟩,
    by unfold DriveLaw; decide, by decide, by decide⟩

/-- The tenth window in conflict tells ROLE CONFLICT with the measured duty. -/
theorem witness_DemandWindowFindsConflict_told :
    (let t := after (.demandWindowExpiry 5419) (quiet (disputed 9));
      t.host.incomplete = false ∧ raised t = [(4, 0, 541)] ∧ t.lines.role = .conflict) := by
  decide +kernel

theorem witness_HaltLineBringsTrainline :
    base.pins.haltLine = false ∧ base.lines.halting = false ∧ HaltLaw base ∧
      (base.setLines { base.lines with halting := true }).lines.halting = true :=
  ⟨by decide, by decide, ⟨by decide, by decide⟩, by decide⟩

/-- The HALT line asserted sets a clear latch, told with TRAINLINE; with the latch set nothing is told. -/
theorem witness_HaltLineBringsTrainline_told :
    (let s := quiet (driving 0);
      let t := after (.haltLineChange true) s;
      let u := after (.haltLineChange true) (quiet halted);
      HaltLaw s ∧ s.halt.latch = none ∧ t.halt.latch = some ⟨.trainline, 0, 0, 5000, false⟩ ∧ raised t = [(30, 3, 5000)] ∧
        t.sound = (askFor 0 s).sound ∧ halted.halt.latch ≠ none ∧ (raised u, u.sound) = ([], base.sound)) :=
  ⟨⟨by decide, by decide⟩, by decide +kernel⟩

theorem witness_StartPulseStartsUnit :
    base.lines.emission = none ∧ base.lines.halting = false ∧ base.pins.haltLine = false ∧
      (base.setLines { base.lines with emission := some 50, retained := some 200 }).lines.emission = some 50 ∧
      (base.setPins { base.pins with haltLine := true }).pins.haltLine = true ∧
      (let t := after (.controlPeriod (handle 152)) (driving 0);
        (driving 0).lines.previousDemand ≤ 0 ∧ 0 < t.lines.previousDemand ∧ t.traction.state = .running ∧
          t.lines.emission = some 60) ∧
      (let s := withTraction fun x => { x with state := .startHeld, direction := .forward };
        let r := s.setLines { s.lines with role := .lead, coupled := true };
        let t := after (.controlPeriod (handle 152)) r;
        selected true false = r.traction.direction ∧ 0 < t.lines.previousDemand ∧ r.cfgN Setting.startRetention ≠ 0 ∧
          (t.traction.state, t.lines.emission, t.lines.retained) = (.running, some 60, some 210)) := by
  decide

/-! ### Resets and the route table -/

theorem witness_PowerUpRestoresReset :
    base.pins.activeCab = false ∧ base.pins.coupling = false ∧ base.pins.haltLine = false ∧ base.pins.loopOk = true := by
  decide

theorem witness_RestartsResetTheirBlocks :
    LinkReady base ∧ base.axle.standstill = true ∧ (rolling 1 base).axle.standstill = false ∧
      (poised true).lines.role = .lead ∧ (poised true).lines.coupled = true ∧
      ¬(base.lines.role = .lead ∧ base.lines.coupled = true) ∧ base.pins.loopOk = true :=
  ⟨⟨rfl, rfl, rfl, rfl⟩, by decide⟩

/-- RESTART FULL of a lone LEAD, of a TRAIL with LOOP_OK released, and under a HALT line asserted; RESTARTED of JOURNEY. -/
theorem witness_RestartsResetTheirBlocks_pins :
    (let full := fun (activeCab coupling haltLine loopOk : Bool) => after (.restartFull 1) ((inRole .lead base).setPins
        { base.pins with activeCab := activeCab, coupling := coupling, haltLine := haltLine, loopOk := loopOk });
      (inRole .lead base).axle.standstill = true ∧ (inRole .lead base).lines.coupled = false ∧
        ((full true false false true).lines.role, (full true false false true).route.setLength) = (.lead, 320) ∧
        ((full false true false false).lines.role, (full false true false false).route.setLength) = (.trail, 640) ∧
        raised (full false true false false) = [(25, 0, 0), (2, 0, 0)] ∧
        (full true true true true).halt.latch = some ⟨.trainline, 0, 0, 0, true⟩ ∧
        raised (full true true true true) = [(30, 3, 0), (2, 0, 0)] ∧ (full true true true true).traction.state = .halted) ∧
    raised (after (.restartJourney 1) (quiet base)) = [(2, 1, 0)] := by
  decide +kernel

theorem witness_RouteStartsEndsAndRemoves :
    LinkReady base ∧ RouteLaw (listing [point 1 0 .pending]).route ∧ 4000000 < 4000001 ∧ 4000000 ≤ 4000000 ∧ base.axle.standstill = true ∧
      (rolling 1 base).axle.standstill = false ∧ (listing [point 1 0 .pending]).route.table ≠ [] ∧ base.route.table = [] ∧
      base.route.active = false ∧ (listing []).route.active = true ∧
      (∀ e ∈ [point 1 0 .pending, point 2 1 .asking, point 3 4 .passed], e.tag ≠ 4) :=
  ⟨⟨rfl, rfl, rfl, rfl⟩, point_lawful 0 .pending, by decide⟩

/-- Each term of the effective ceiling in force after a removal, and the sand inhibit at C and at X alone. -/
theorem witness_RouteStartsEndsAndRemoves_forms :
    (let gone := ⟨9, 0, .stop ⟨90000, 90100, 3, false, .ahead⟩⟩;
      let left := fun (d : Nat) (l : List Entry) => after (.routeRemove 1 9) (sweeping d 0 (l ++ [gone]));
      let formed := fun (t : State) => (t.route.ceiling, t.route.term, t.route.sandInhibit);
      formed (left 150 [slowing 5000]) = (5000, .restriction, false) ∧
        formed (left 100 [point 1 1 .asking, slowing 4200]) = (4200, .restriction, false) ∧
        formed (left 100 [point 1 1 .asking, slowing 4201]) = (4200, .approach, false) ∧
        formed (left 99 [point 1 1 .asking]) = (16700, .line, false) ∧
        formed (left 150 [slowing 16700]) = (16700, .line, false) ∧
        ([299, 300, 400, 401].map fun d => (left d [point 1 3 .set]).route.sandInhibit) = [false, true, true, false] ∧
        (let s := sweeping 0 0 [gone];
          formed (after (.routeRemove 1 9) (s.setAxle { s.axle with source := .lost })) = (5600, .degraded, false))) := by
  decide +kernel

/-- The record inserted; each check failed: no route, a kind 4, a tag present, marks out of order, one dm too late. -/
theorem witness_RouteInsertKeepsOrder :
    LinkReady (listing []) ∧ RouteLaw (listing [point 1 0 .pending]).route ∧ (listing []).route.active = true ∧ base.route.active = false ∧
      (after (.routeInsert 1 (record 0)) (listing [])).route.table.length = 1 ∧ 3 < (record 4).kind ∧
      (∃ e ∈ (listing [point 5 0 .pending]).route.table, e.tag = (record 0).tag) ∧
      ¬({ record 0 with mark2 := 1000 } : EntryRecord).mark1 < 1000 ∧
      (record 0).mark1 < 951 + base.cfgN Setting.insertMargin ∧ ¬(record 0).mark1 < 950 + base.cfgN Setting.insertMargin :=
  ⟨⟨rfl, rfl, rfl, rfl⟩, point_lawful 0 .pending, by decide⟩

/-- R90, R101: a line ceiling SET since the last forming comes into force at the insertion. -/
theorem test_insert_forms_ceiling :
    (let s := after (.set 1 301 9000) (listing []);
      let t := after (.routeInsert 2 (record 0)) (ready s);
      (s.route.ceiling, t.route.ceiling, t.route.term) = (16700, 9000, .line)) := by
  decide +kernel

theorem witness_RouteInsertKeepsOrder_overlap :
    (100 < 400) ∧ (∀ o ∈ counted [point 1 0 .pending, point 2 3 .set], o.markA < o.markX) ∧
      (counted [point 1 0 .pending, point 2 4 .passed]).length = 1 := by
  decide

/-! ### Junction requests and their telegrams -/

theorem witness_LoopAndMasksHoldRequests :
    LinkReady base ∧ base.pins.loopOk = true ∧ base.junction.loop = .normal ∧
      (after (.loopOkReleased false) base).pins.loopOk = false ∧ (after (.loopOkReleased false) base).junction.loop = .fault ∧
      (after (.loopOkReleased true) (after (.loopOkReleased false) base)).junction.loop = .fault ∧ 5 < 6 ∧
      requesterNamed 0 = some .j0 ∧ requesterNamed 5 = some .signal :=
  ⟨⟨rfl, rfl, rfl, rfl⟩, by decide⟩

theorem witness_ArbiterGrantsEligibleOnly :
    base.junction.transmitter = .idle ∧ (inRole .trail base).lines.role = .trail ∧
      (let s := base.setJunction { base.junction with signalQueue := [⟨2, false, 9, 1⟩] };
        (tryGrant s).junction.transmitter = .sending ⟨.signal, none, .priorityCall 9 1 1, 60, false⟩ 5) := by
  decide

/-- An urgent slot at the urgency distance; the same with the run at its budget, by rotation; at LOW the signal queue; a slot not
urgent by one dm. -/
theorem witness_ArbiterGrantsEligibleOnly_grants :
    (let s := contending 0 .low;
      waits s .j0 = true ∧ s.junction.masks.get .j0 = false ∧ s.junction.transmitter = .idle ∧ s.junction.loop = .normal ∧
        s.lines.role ≠ .trail ∧ slotJunction s .j0 = some ⟨100, 200, 300, 400, none, 7, .left, .asking, none, 0, 0⟩ ∧
        200 ≤ s.route.distance + s.cfgN Setting.urgencyDistance ∧ s.junction.urgentRun < s.cfgN Setting.urgentBudget ∧
        ([.j1, .j2, .j3, .cancel] : List Requester).all (fun r => !waits s r) = true ∧
        s.cfg (Setting.classOf .signal) ≠ 0 ∧ s.cfg (Setting.classOf .j0) = 0) ∧
    (let of := fun s => ((match (tryGrant s).junction.transmitter with
        | .sending x _ => some x.holder
        | _ => none), (tryGrant s).junction.urgentRun, (tryGrant s).junction.rotation, (tryGrant s).junction.low);
      of (contending 0 .low) = (some .j0, 1, .low, .signal) ∧
        of (contending 4 (.at .j0)) = (some .j0, 0, .at .j1, .signal) ∧
        of (contending 4 .low) = (some .signal, 0, .at .j0, .signal) ∧
        of (let s := contending 3 (.at .j1); s.setRoute { s.route with distance := 119 }) =
          (some .signal, 0, .at .j0, .signal) ∧
        of (withSettings [(317, 1)] (let s := contending 4 (.at .j1);
          s.setJunction { s.junction with cancelQueue := [⟨.j2, 8⟩], low := .cancel })) = (some .cancel, 0, .at .j0, .signal)) := by
  decide +kernel

/-- The telegrams an entry has sent. -/
def sentOf (s : State) : Option Nat := (junctionOf s 1).map (·.sent)

/-- A slot's grant takes its request and counts its telegram, and no more at 65,535; the signal queue's grant counts none. -/
theorem witness_ArbiterGrantsEligibleOnly_counts :
    (let s := contending 0 .low;
      let of := fun s => (sentOf s, s.junction.j0.waiting, s.junction.signalQueue.length);
      let full := s.setRoute { s.route with table := s.route.table.map fun e => { e with body := e.body.resent 65535 } };
      [of s, of (tryGrant s), of (tryGrant (contending 4 .low)), of (tryGrant full)] =
        [(some 0, true, 1), (some 1, false, 1), (some 0, true, 1), (some 65535, false, 1)]) := by
  decide +kernel

/-- The end of a turn that grants its slot anew, a lock loss at an IDLE transmitter and a retry count one telegram more; a lock loss
while the unit listens, and a cancel, count none. -/
theorem witness_Sends :
    (let urgent := (listening 1 .asking).setRoute { (listening 1 .asking).route with distance := 120 };
      let unlocked := Instr.pointAnswer (pointAnswerBytes 7 1 ⟨.left, false, .accepted⟩);
      [sentOf (after .answerWindowExpiry urgent), sentOf (after .answerWindowExpiry (listening 1 .asking)),
        sentOf (after unlocked (transmitting .idle (listening 1 .set))), sentOf (after unlocked (listening 1 .set)),
        sentOf (after (.junctionRetry 4 1) (transmitting .idle (listening 2 .refused))),
        sentOf (after (.junctionCancel 4 1) (transmitting .idle (listening 2 .refused)))] =
        [some 1, some 0, some 1, some 0, some 1, some 0]) := by
  decide +kernel

theorem witness_TurnsEndAndRepeatsFallDue :
    (let s := transmitting (.sending (turnOf .j0 asked) 7) base;
      s.junction.transmitter = .sending (turnOf .j0 asked) 7 ∧ asked.listens = true ∧ (turnOf .j0 asked).window ≠ 0) ∧
      (Telegram.priorityCall 9 1 1).listens = true ∧ (Telegram.priorityClear 9 1).listens = false ∧
      (let s := base.setJunction { base.junction with cancelQueue := [⟨.j0, 7⟩] }; s.junction.cancelQueue = ⟨.j0, 7⟩ :: []) ∧
      (turnOf .j0 asked).entry = some 1 ∧ (junctionOf (listening 1 .asking) 1).isSome = true ∧
      base.junction.transmitter = .idle ∧ ((placed .j0 1 base).junction.slot .j0).timer = some 200 ∧
      (slotJunction (listening 1 .asking) .j0).any (fun j => j.state.asks) = true ∧
      (slotJunction (listening 1 .set) .j0).any (fun j => j.state.asks) = false ∧ (base.junction.slot .j0).timer = none ∧
      signalOf (listing [call .calling]) 2 = some ⟨50, 500, 9, 1, .calling, some 200⟩ ∧
      (∀ i ∈ base.junction.signalQueue, i.tag ≠ 2) ∧ base.junction.signalQueue.length < 4 ∧ signalOf base 2 = none := by
  decide

/-- R114: a CLEAR takes the place of the first of its entry's two waiting calls, and the other leaves the queue. -/
theorem witness_TurnsEndAndRepeatsFallDue_clear :
    (let s := transmitting (.listening (turnOf .j0 asked) 60) (base.setJunction { base.junction with
        signalQueue := [⟨3, false, 9, 1⟩, ⟨2, false, 7, 1⟩, ⟨4, true, 9, 1⟩, ⟨2, false, 7, 1⟩] });
      let clear : SignalItem := ⟨2, true, 7, 1⟩;
      s.junction.signalQueue = [⟨3, false, 9, 1⟩] ++ ⟨2, false, 7, 1⟩ :: [⟨4, true, 9, 1⟩, ⟨2, false, 7, 1⟩] ∧
        (∀ i ∈ s.junction.signalQueue, i.tag = clear.tag → i.clear = false) ∧
        (offerSignal clear s).junction.signalQueue = [⟨3, false, 9, 1⟩, clear, ⟨4, true, 9, 1⟩]) := by
  decide

/-- A request's turn with no window ends at its airtime; a call falls due at a full queue that is not sending. -/
theorem witness_TurnsEndAndRepeatsFallDue_edges :
    (let turn := { turnOf .j0 asked with window := 0 };
      let t := after .telegramAirtimeEnd (transmitting (.sending turn 7) base);
      turn.telegram.listens = true ∧ turn.holder ≠ .cancel ∧ turn.holder ≠ .signal ∧ t.junction.transmitter = .idle) ∧
    (let r := listing [call .calling];
      let s := transmitting (.listening (turnOf .j0 asked) 60) (r.setJunction { r.junction with
        signalQueue := [3, 4, 5, 6].map fun n => ⟨n, false, n, 1⟩ });
      let t := after (.signalRepeatExpiry 2) s;
      4 ≤ s.junction.signalQueue.length ∧ t.junction.signalQueue = s.junction.signalQueue ∧
        (signalOf t 2).bind (·.timer) = some 400) := by
  decide

theorem witness_TracksideAnswersAreJudged :
    RouteLaw (listening 1 .asking).route ∧ RouteLaw (listening 2 .set).route ∧
    (let set : PointAnswer := ⟨.left, true, .accepted⟩;
      parsePointAnswer 1 (pointAnswerBytes 7 1 set) = some (7, set) ∧ parsePointAnswer 1 [1] = none ∧
        parsePriorityAck 1 (priorityAckBytes 9 1) = some 9 ∧ (holderOf 7 (listening 1 .asking)).isSome = true ∧
        holderOf 8 (listening 1 .asking) = none ∧
        (junctionOf (after (.pointAnswer (pointAnswerBytes 7 1 set)) (listening 2 .overdue)) 1).map (·.state) = some .set ∧
        (junctionOf (after (.pointAnswer (pointAnswerBytes 7 1 ⟨.left, true, .refused⟩)) (listening 1 .asking)) 1).map (·.state) =
          some .refused ∧
        ([1, 2, 3].map fun n =>
          (junctionOf (after (.pointAnswer (pointAnswerBytes 7 1 ⟨.left, false, .accepted⟩)) (listening n .set)) 1).map (·.state)) =
          [some .asking, some .overdue, some .breached]) :=
  ⟨point_lawful 1 .asking, point_lawful 2 .set, by decide +kernel⟩

/-- A fix at the tolerance, which moves the route distance up, and down, to it; one beyond it, which is rejected. -/
theorem witness_TracksideAnswersAreJudged_fix :
    RouteLaw (fixable 200).route ∧ (fixable 200).settings.pending = [] ∧
    (let answered := fun d => after (.pointAnswer (pointAnswerBytes 7 1 ⟨.left, true, .accepted⟩)) (quiet (fixable d));
      ((answered 200).route.distance, (answered 200).route.residue, entries (answered 200)) =
          (250, 0, [(1, 2, JunctionState.code .set)]) ∧
        ((answered 300).route.distance, entries (answered 300)) = (250, [(1, 1, JunctionState.code .set)]) ∧
        ((answered 199).route.distance, raised (answered 199)) = (199, [(19, 1, 0), (17, 1, -51)]) ∧
        (answered 301).route.distance = 301) :=
  ⟨lone_lawful 200 _ (by decide) ⟨by decide, by decide, by decide⟩, by decide, by decide +kernel⟩

theorem witness_TelegramsReadBack :
    65535 < 65536 ∧ 3 < 4 ∧ (2 : Nat) ≠ 1 ∧ (1 : Byte) ≠ telegramCheck [] ∧ ([] : List Byte).length ≠ 7 := by
  decide

theorem witness_JunctionsAreCancelledAndRetried :
    LinkReady (listening 1 .asking) ∧ RouteLaw (listening 1 .asking).route ∧ (listening 1 .asking).settings.pending = [] ∧ junctionOf (listening 1 .asking) 2 = none ∧
      point 1 2 .refused ∈ (listening 2 .refused).route.table ∧ (point 1 2 .refused).crossed < 3 ∧ 3 ≤ (point 1 3 .breached).crossed ∧
      (after (.junctionCancel 4 1) (listening 2 .refused)).halt.causes.host = true ∧
      (after (.junctionCancel 4 1) (listening 1 .asking)).halt.causes.host = false ∧
      (junctionOf (after (.junctionRetry 4 1) (listening 2 .refused)) 1).map (·.state) = some .asking :=
  ⟨⟨rfl, rfl, rfl, rfl⟩, point_lawful 1 .asking, by decide⟩

/-! ### Stop requests -/

/-- A delta of 120 and one below; the release level of 75 and one below; a press stuck at 30 s and not 1 ms before; a rail. -/
theorem witness_ScanJudgesEveryButton :
    SettingsLaw base.settings ∧
      (readings 1880).length = 24 ∧ (pressing (button .released 0)).stop.buttons.length = 24 ∧ base.settings.pending = [] ∧
      (scanned 1880 .released 0).state = .pressing ∧ (scanned 1881 .released 0).state = .released ∧
      (scanned 1880 .pressing 1).state = .pressing ∧ (scanned 1880 .pressing 2).state = .pressed ∧
      (scanned 1925 .pressed 0).state = .pressed ∧ (scanned 1926 .pressed 0).state = .releasing ∧
      (scanned 1926 .releasing 2).state = .released ∧ (scanned 0 .pressed 0).state = .fault ∧
      (after (.scan (readings 1880)) ((pressing (button .pressed 0)).setNow 29999)).stop.buttons[0]?.map (·.state) = some .pressed ∧
      (after (.scan (readings 1880)) ((pressing (button .pressed 0)).setNow 30000)).stop.buttons[0]?.map (·.state) = some .released :=
  ⟨⟨by decide, by decide, by decide⟩, by decide +kernel⟩

/-- A CONTACT leaves STUCK by as many open readings as a release takes; a SENSED channel at a rail and a stuck press are told. -/
theorem witness_ScanJudgesEveryButton_stuck :
    (let contact := withSettings [(Setting.buttonKind 0, 1)];
      let read := fun (v n : Nat) => ((after (.scan (readings v)) (contact (pressing { button .stuck n with
        scannedAs := some .contact }))).stop.buttons[0]?).map fun b => (b.state, b.confirm);
      let told := fun (v : Nat) (st : ButtonState) (now : Nat) =>
        raised (after (.scan (readings v)) (quiet ((pressing (button st 0)).setNow now)));
      SettingsLaw (contact base).settings ∧ base.cfgN Setting.releaseScans = 3 ∧
        [read 2048 1, read 2048 2, read 2047 2] = [some (.stuck, 2), some (.released, 0), some (.stuck, 0)] ∧
        told 4095 .pressed 0 = [(13, 0, 4095)] ∧ told 4095 .fault 0 = [] ∧ told 1880 .pressed 30000 = [(14, 0, 1880)] ∧
        told 1880 .pressed 29999 = []) :=
  ⟨⟨by decide, by decide, by decide⟩, by decide +kernel⟩

/-- The eighth resting reading drifts the baseline by one, the eighth risen one replaces it; a stuck press let go. -/
theorem witness_ScanJudgesEveryButton_baseline :
    (let after := fun (v : Nat) (b : Button) (now : Nat) =>
        ((Tests.after (.scan (readings v)) ((pressing b).setNow now)).stop.buttons[0]?).getD .atReset;
      let of := fun b : Button => (b.state, b.baseline, b.drift, b.rise);
      let b := button .released 0;
      of (after 1941 { b with drift := 7 } 0) = (.released, 1999, 0, 0) ∧
        of (after 1940 { b with drift := 7 } 0) = (.released, 2000, 0, 0) ∧
        of (after 2001 { b with drift := 6 } 0) = (.released, 2000, 7, 0) ∧
        of (after 2060 { b with rise := 7 } 0) = (.released, 2060, 0, 0) ∧
        of (after 2060 { b with rise := 6 } 0) = (.released, 2000, 0, 7) ∧
        of (after 2059 { b with rise := 7 } 0) = (.released, 2000, 1, 0) ∧
        of (after 1926 (button .pressed 0) 29999) = (.releasing, 2000, 0, 0) ∧
        of (after 1926 (button .pressed 0) 30000) = (.released, 1926, 0, 0)) := by
  decide +kernel

/-- A request-only stop APPROACHING; its entry ANNOUNCED by the request. -/
theorem witness_StopRequestLatchFollowsTriggers_announced :
    RouteLaw (sweeping 70 0 [halting 1 .approaching]).route ∧
      entries (after (.stopRequest 1 0) (sweeping 70 0 [halting 1 .approaching])) = [(1, 1, StopState.code .announced)] :=
  ⟨lone_lawful 70 _ (by decide) ⟨by decide, by decide, by decide⟩, by decide +kernel⟩

theorem witness_StopRequestLatchFollowsTriggers :
    base.settings.pending = [] ∧ LinkReady base ∧ 1 < 2 ∧ 1 ≤ 1 ∧ (doorsOpen base).pins.doorRelease = true ∧
      base.stop.latch = none ∧ stopping.stop.latch ≠ none ∧ LinkReady stopping ∧ base.lines.role ≠ .lead ∧
      (inRole .lead stopping).lines.role = .lead ∧ base.pins.stopreqLine ≠ true ∧ base.stop.sensed = false ∧
      (pressing (button .pressed 0)).stop.buttons[0]? = some (button .pressed 0) ∧ (button .pressed 0).pressSince = some 0 :=
  ⟨by decide, ⟨rfl, rfl, rfl, rfl⟩, by decide, by decide, by decide, by decide, by decide, ⟨rfl, rfl, rfl, rfl⟩, by decide⟩

/-! ### Sounds -/

theorem witness_PatternsPlayTheirSteps :
    base.settings.pending = [] ∧ loadedBell.sound.pattern 6 = some bellPattern ∧ bellPattern.steps[1]? = some ⟨.rest, 1⟩ ∧
      bellPattern.steps[2]? = none ∧ ¬(bellPattern.passes = 0 ∨ 0 + 1 < bellPattern.passes) ∧
      (let s := onBell ⟨.playing 6 1 0 40, [⟨6, .normal, .host⟩]⟩ loadedBell;
        (s.sound.line .bell).player = .playing 6 1 0 40 ∧ (s.sound.line .bell).queue = ⟨6, .normal, .host⟩ :: []) ∧
      ((fixedPattern 0).map (·.passes) = some 0) ∧ base.sound.bell.player = .idle ∧ base.sound.pulse = none := by
  decide

/-- A strike at the end of the pulse before it begins a pulse of its own; 1 ms earlier the pulse runs on (R153). -/
theorem witness_PatternsPlayTheirSteps_pulse :
    (let struck := fun x => (after (.stepExpiry .bell)
        (let s := onBell ⟨.playing 6 1 0 40, [⟨6, .normal, .host⟩]⟩ loadedBell; s.setSound { s.sound with pulse := some x })).sound.pulse;
      struck 40 = some 80 ∧ struck 41 = some 41) := by
  decide +kernel

def loadedHorn : State :=
  base.setSound { base.sound with loaded := [(6, ⟨.horn, .normal, 1, [⟨.on, 10⟩]⟩)] }

/-- A release at the horn minimum with a pattern waiting. -/
theorem witness_DriverSoundsBellAndHorn_lateRelease :
    (let s := (inRole .lead (loadedHorn.setSound { loadedHorn.sound with
        horn := ⟨.driver, [⟨6, .normal, .host⟩]⟩, hornHold := some 0 })).setNow 300;
      s.settings.pending = [] ∧ s.sound.hornHold = some 0 ∧ 0 + s.cfgN Setting.hornMinimum ≤ s.now ∧
        s.sound.horn.queue = ⟨6, .normal, .host⟩ :: [] ∧ (s.sound.pattern 6).map (·.steps) = some [⟨.on, 10⟩] ∧
        (after .hornRelease s).sound.horn = ⟨.playing 6 0 0 400, []⟩) := by
  decide

/-- A release one ms before the horn minimum, and at it. -/
theorem witness_DriverSoundsBellAndHorn :
    base.settings.pending = [] ∧ base.pins.bellPedal = false ∧ base.lines.role ≠ .lead ∧ (driving 0).lines.role = .lead ∧
      (after .bellPedalPress (driving 0)).pins.bellPedal = true ∧ (after .bellPedalPress (driving 0)).sound.bellHold = some 0 ∧
      (after .bellPedalPress (driving 0)).sound.bellDue = some 250 ∧ base.sound.bellHold = none ∧
      (let s := after .bellPedalPress (onBell ⟨.idle, [⟨6, .normal, .host⟩]⟩ (inRole .lead loadedBell));
        s.sound.bell.queue = ⟨6, .normal, .host⟩ :: [] ∧ s.sound.bellHold ≠ none) ∧
      (after .hornPress (driving 0)).sound.hornHold = some 0 ∧ 299 < 0 + base.cfgN Setting.hornMinimum ∧
      0 + base.cfgN Setting.hornMinimum ≤ 300 ∧
      (after .hornRelease (after .hornPress (driving 0))).sound.hornTail = some 300 ∧ base.sound.hornTail = none := by
  decide

theorem witness_HostPlaysSilencesAndLoads :
    LinkReady base ∧ base.settings.pending = [] ∧ 15 < 16 ∧ base.sound.pattern 15 = none ∧
      (base.sound.pattern 4).map (·.cls) = some .urgent ∧ base.sound.buzzer.player = .idle ∧
      (onBuzzer ⟨.playing 3 0 0 150, []⟩ base).sound.buzzer.player = .playing 3 0 0 150 ∧
      (base.sound.pattern 3).map (·.cls) = some .normal ∧ (List.replicate 4 (⟨1, .urgent, .internal⟩ : Waiting)).length = 4 ∧
      patternOf ⟨6, 0, 0, 15, [(0, 4)]⟩ ≠ none ∧ patternOf ⟨6, 0, 0, 16, [(0, 4)]⟩ = none ∧
      patternOf ⟨6, 0, 0, 15, [(0, 3)]⟩ = none ∧ patternInUse 6 base.sound = false ∧
      patternInUse 6 (onBell ⟨.playing 6 0 0 40, []⟩ loadedBell).sound = true :=
  ⟨⟨rfl, rfl, rfl, rfl⟩, by decide⟩

/-- Pattern 9 plays on the buzzer with `q` waiting. -/
def buzzing (p : Nat) (q : List Waiting) : State :=
  quiet (onBuzzer ⟨.playing p 0 0 800, q⟩ (base.setSound { base.sound with
    loaded := [6, 7, 8, 9].map fun n => (n, ⟨.buzzer, .normal, 1, [⟨.on, 25⟩]⟩) }))

/-- SILENCE of a playing pattern with one waiting; an internal request at a full queue, with a HOST pattern to displace and
without one. -/
theorem witness_HostPlaysSilencesAndLoads_queues :
    (let s := buzzing 9 [⟨6, .normal, .host⟩];
      LinkReady s ∧ s.settings.pending = [] ∧ s.sound.buzzer.player = .playing 9 0 0 800 ∧
        s.sound.buzzer.queue = ⟨6, .normal, .host⟩ :: [] ∧
        (after (.silence 1 9) s).sound.buzzer = ⟨.playing 6 0 0 250, []⟩) ∧
    (let full := fun (p : Nat) (o : Origin) => buzzing p ([6, 7, 8].map (fun n => ⟨n, .normal, .internal⟩) ++ [⟨9, .normal, o⟩]);
      (full 4 .host).sound.pattern 3 = fixedPattern 3 ∧ (full 4 .host).sound.buzzer.player ≠ .idle ∧
        ((full 4 .host).sound.pattern 4).map (·.cls) = some .urgent ∧ 4 ≤ (full 4 .host).sound.buzzer.queue.length ∧
        (∀ w ∈ (full 4 .host).sound.buzzer.queue, w.pattern ≠ 3) ∧
        (askFor 3 (full 4 .host)).sound.buzzer.queue = ([6, 7, 8, 3].map fun n => ⟨n, .normal, .internal⟩) ∧
        raised (askFor 3 (full 4 .host)) = [(7, 9, 1)] ∧
        (askFor 3 (full 4 .internal)).sound.buzzer = (full 4 .internal).sound.buzzer ∧
        raised (askFor 3 (full 4 .internal)) = [(7, 3, 0)] ∧
        ((askFor 0 (full 4 .host)).sound.buzzer.queue.map (·.pattern)) = [0, 6, 7, 8]) :=
  ⟨⟨⟨rfl, rfl, rfl, rfl⟩, by decide, by decide, by decide, by decide⟩, by decide +kernel⟩

/-! ### Settings -/

theorem witness_SettingsAreSetAndHeldBack :
    LinkReady waiting ∧ SettingsLaw waiting.settings ∧ groupOf 10 = none ∧ groupOf 9 = some .g0 ∧ settingAllows 9 200 = true ∧
      settingAllows 9 199 = false ∧ waiting.settings.locked.get .g0 = true ∧ base.settings.locked.get .g0 = false ∧ 6 < 7 ∧
      Group.ofCode 6 = some .g6 ∧ lockHeld waiting .g0 = true ∧ lockHeld base .g0 = false ∧
      (let s := waiting.setAxle { waiting.axle with standstill := true };
        lockHeld s .g0 = false ∧ s.settings.locked.get .g0 = true ∧ s.settings.pending = [(0, 100)]) :=
  ⟨⟨rfl, rfl, rfl, rfl⟩, ⟨by decide, by decide, by decide⟩, by decide⟩

/-- A THAW that unlocks G1, G3, G4 and G6 with a value pending; a SET in G3 and in G6 in effect at once. -/
theorem witness_SettingsAreSetAndHeldBack_thaw :
    (([(.g1, 102, 0), (.g3, 300, 200), (.g4, 456, 30), (.g6, 600, 0)] : List (Group × Nat × Int)).all fun (g, n, v) =>
      let s := quiet (loosed g [(n, v)]);
      let t := after (.thaw 1 (Group.code g)) s;
      settingAllows n v && groupOf n == some g && !lockHeld s g && s.settings.locked.get g && heldBack s.settings n &&
        t.cfg n == v && t.settings.pending == [] && !t.settings.locked.get g &&
        raised t == [(6, Group.code g, 1)]) = true ∧
    (after (.thaw 1 3) (loosed .g3 [(300, 200)])).route.setLength = 200 ∧
    (let s := after (.halt 1) base;
      let t := after (.set 2 600 0) (ready s);
      s.lines.halting = true ∧ t.lines.halting = false ∧ t.cfg 600 = 0 ∧ LinkReady (ready s)) ∧
    (after (.set 1 300 200) (poised true)).route.setLength = 400 :=
  ⟨by decide +kernel, by decide, ⟨by decide, by decide, by decide, ⟨rfl, rfl, rfl, rfl⟩⟩, by decide⟩

/-! ### Well-formedness: what no pin or field can carry is refused -/

/-- Every request's tag stops at 255. -/
theorem test_wf_tags :
    ([.restartFull 256, .restartJourney 256, .axleRead 256 0, .axleReset 256 0, .halt 256, .resume 256, .routeStart 256 0,
      .routeEnd 256, .routeInsert 256 (record 0), .routeRemove 256 0, .routeRead 256 0 0, .loopReset 256,
      .junctionCancel 256 0, .junctionRetry 256 0, .mask 256 0, .unmask 256 0, .stopRequest 256 0, .stopClear 256,
      .buttonRead 256 0, .play 256 0, .silence 256 0, .patternLoad 256 ⟨6, 0, 0, 1, []⟩, .set 256 0 0, .get 256 0,
      .freeze 256 0, .thaw 256 0, .unknownKindRequest 256 0, .ident 256, .status 256, .events 256 0] : List Instr).all
      (fun c => !c.wf) = true := by
  decide +kernel

/-- Each one-byte argument stops at 255. -/
theorem test_wf_one_byte :
    (Instr.controlPeriod (handle 256)).wf = false ∧
      (Instr.axleRead 0 256).wf = false ∧ (Instr.axleReset 0 256).wf = false ∧ (Instr.buttonRead 0 256).wf = false ∧
      (Instr.mask 0 256).wf = false ∧ (Instr.unmask 0 256).wf = false ∧ (Instr.stopRequest 0 256).wf = false ∧
      (Instr.play 0 256).wf = false ∧ (Instr.silence 0 256).wf = false ∧ (Instr.freeze 0 256).wf = false ∧
      (Instr.thaw 0 256).wf = false ∧ (Instr.events 0 256).wf = false ∧ (Instr.routeRead 0 256 0).wf = false ∧
      (HostRequest.restart 256).wf = false := by
  decide

theorem test_wf_wider_fields :
    (Instr.get 0 65536).wf = false ∧ (Instr.set 0 65536 0).wf = false ∧ (Instr.set 0 0 2147483648).wf = false ∧
      (Instr.set 0 0 (-2147483649)).wf = false ∧ (Instr.routeStart 0 4294967296).wf = false ∧
      (Instr.routeRemove 0 65536).wf = false ∧ (Instr.routeRead 0 0 65536).wf = false ∧
      (Instr.junctionCancel 0 65536).wf = false ∧ (Instr.junctionRetry 0 65536).wf = false ∧
      (Instr.signalRepeatExpiry 0).wf = false ∧ (Instr.signalRepeatExpiry 65536).wf = false := by
  decide

theorem test_wf_measurements :
    (Instr.demandWindowExpiry 10001).wf = false ∧ (Instr.buttonStuck 24).wf = false ∧
      (Instr.scan (List.replicate 23 0)).wf = false ∧ (Instr.scan (List.replicate 25 0)).wf = false ∧
      (Instr.scan (4096 :: List.replicate 23 0)).wf = false ∧ (Instr.scan (4095 :: List.replicate 23 0)).wf = true := by
  decide

/-- A known kind is no UNKNOWN_KIND frame, and a frame of wrong length has a known kind. -/
theorem test_wf_link_refusals :
    (Instr.unknownKindRequest 0 0x70).wf = false ∧ (Instr.unknownKindRequest 0 0x71).wf = true ∧
      (HostRequest.badLength 0x71).wf = false ∧ (HostRequest.badLength 0x70).wf = true := by
  decide

theorem test_wf_entry_record :
    ({ record 0 with tag := 65536 } : EntryRecord).wf = false ∧ ({ record 0 with kind := 256 } : EntryRecord).wf = false ∧
      ({ record 0 with mark1 := 4294967296 } : EntryRecord).wf = false ∧
      ({ record 0 with mark2 := 4294967296 } : EntryRecord).wf = false ∧
      ({ record 0 with mark3 := 4294967296 } : EntryRecord).wf = false ∧
      ({ record 0 with mark4 := 4294967296 } : EntryRecord).wf = false ∧
      ({ record 0 with fix := 4294967296 } : EntryRecord).wf = false ∧ ({ record 0 with ident := 65536 } : EntryRecord).wf = false ∧
      ({ record 0 with option := 256 } : EntryRecord).wf = false ∧ ({ record 0 with ceiling := 65536 } : EntryRecord).wf = false ∧
      (record 0).wf = true := by
  decide

theorem test_wf_pattern_record :
    (⟨256, 0, 0, 0, []⟩ : PatternRecord).wf = false ∧ (⟨0, 256, 0, 0, []⟩ : PatternRecord).wf = false ∧
      (⟨0, 0, 256, 0, []⟩ : PatternRecord).wf = false ∧ (⟨0, 0, 0, 256, []⟩ : PatternRecord).wf = false ∧
      (⟨0, 0, 0, 0, [(256, 0)]⟩ : PatternRecord).wf = false ∧ (⟨0, 0, 0, 0, [(0, 256)]⟩ : PatternRecord).wf = false ∧
      (⟨0, 0, 0, 0, List.replicate 122 (0, 4)⟩ : PatternRecord).wf = false ∧
      (⟨6, 0, 0, 1, List.replicate 121 (0, 4)⟩ : PatternRecord).wf = true := by
  decide +kernel

/-! ### Encodings, against the figures of 11 -/

/-- R181: the ASCII digits 1 to 9 give 0x29B1. R183: they give 0x4B. -/
theorem test_crc_check_words :
    crc16 [0x31, 0x32, 0x33, 0x34, 0x35, 0x36, 0x37, 0x38, 0x39] = 0x29B1 ∧
      telegramCheck [0x31, 0x32, 0x33, 0x34, 0x35, 0x36, 0x37, 0x38, 0x39] = 0x4B := by
  decide +kernel

/-- 11 section 5: type, direction STRAIGHT and class PAIR in byte 0; the ID and the tram number, high byte first. -/
theorem test_telegrams_sent :
    (pointRequestBytes 0x1234 .straight true 0x5678).take 5 = [0b00010110, 0x12, 0x34, 0x56, 0x78] ∧
      (pointCancelBytes 0x1234 0x5678).take 5 = [0b00100000, 0x12, 0x34, 0x56, 0x78] ∧
      (priorityCallBytes 0x1234 3 0x5678).take 5 = [0b00111100, 0x12, 0x34, 0x56, 0x78] ∧
      (priorityClearBytes 0x1234 0x5678).take 5 = [0b01000000, 0x12, 0x34, 0x56, 0x78] := by
  decide +kernel

/-- 11 section 5: UNKNOWN, LOCKED, REFUSED in byte 1 of a POINT ANSWER; bits marked 0 are not judged; type 0x8 is discarded. -/
theorem test_telegrams_received :
    parsePointAnswer 0x5678 (withCheck [0b10011111, 0b10011011, 0x12, 0x34, 0x56, 0x78]) =
        some (0x1234, ⟨.unknown, true, .refused⟩) ∧
      parsePointAnswer 0x5678 (withCheck [0b10000000, 0b10011000, 0x12, 0x34, 0x56, 0x78]) = none ∧
      parsePointAnswer 0x5678 (withCheck [0b10010000, 0b10100000, 0x12, 0x34, 0x56, 0x78]) = none ∧
      parsePointAnswer 0x5678 (withCheck [0b10010000, 0b00001100, 0x12, 0x34, 0x56, 0x78]) = none ∧
      parsePriorityAck 0x5678 (withCheck [0b10100000, 0x12, 0x34, 0x56, 0x78]) = some 0x1234 := by
  decide +kernel

/-- 11 section 1: lead byte, length, kind, tag, payload; a signed value four bytes long. -/
theorem test_frame_layout :
    (frameBytes 0x10 7 (HostRequest.set 5 (-300)).payload).take 10 =
        [0x7B, 8, 0x10, 7, 0, 5, 0xFF, 0xFF, 0xFE, 0xD4] ∧
      parseRequest 0x10 [0, 5, 0xFF, 0xFF, 0xFE, 0xD4] = .set 5 (-300) ∧ parseRequest 0x10 [0] = .badLength 0x10 ∧
      parseRequest 0x04 [] = .unknownKind 0x04 := by
  decide +kernel

/-- 11 section 2: where a record's fields lie. -/
theorem test_record_layout :
    ({ record 2 with requestOnly := true } : EntryRecord).bytes =
      [0, 5, 2, 2, 0, 0, 3, 0xE8, 0, 0, 4, 0xB0, 0, 0, 5, 0x14, 0, 0, 5, 0x78, 0, 0, 0, 0, 0, 7, 1, 3, 0xE8] := by
  decide +kernel

/-- 11 section 3: the lengths 11 gives the STATUS snapshot, and 01 and 07 the two read replies. -/
theorem test_reply_lengths :
    (statusBytes base).length = 49 ∧ (axleBytes base .ax0).length = 61 ∧ (buttonBytes base 0 .atReset).length = 23 ∧
      (EventRecord.bytes ⟨28, 52, true, 710, 30060⟩) = [28, 0, 52, 1, 0, 0, 2, 0xC6, 0, 0, 0x75, 0x6C] := by
  decide +kernel

/-! ### The spec's worked figures -/

/-- Every axle turns at the reference speed `v`. -/
def atSpeed (v : Int) (s : State) : State := s.setAxle { s.axle with
  refSpeed := v, ax0 := { s.axle.ax0 with speed := v }, ax1 := { s.axle.ax1 with speed := v } }
def under (ceiling : Int) (s : State) : State := s.setRoute { s.route with ceiling := ceiling }
def fast (s : State) : State := s.setTraction { s.traction with overspeed := true }
/-- The status byte of the reply being sent. -/
def replied (s : State) : Option Byte :=
  match s.host.line with
  | .sending bytes _ => bytes[4]?
  | .free => none

/-- 01, "Worked figures: a healthy pair", with the travel setting of AX3 at 521. -/
theorem test_healthy_pair :
    (let s := travelling 8000 22;
      let r := withSettings [(107, 521)] (s.setRoute { s.route with residue := 20000 });
      let t := after .speedSample (r.setAxle { r.axle with
        ax2 := { r.axle.ax2 with ring := [0, 194, 0, 0, 0, 0, 0, 0, 0, 0] }
        ax3 := { r.axle.ax3 with ring := [0, 193, 0, 0, 0, 0, 0, 0, 0, 0], count := 21 } });
      (t.axle.ax2.speed, t.axle.ax3.speed, t.axle.source, t.axle.refSpeed, t.axle.refTravel) = (4370, 4355, .mean, 4362, 11168) ∧
        (t.route.distance, t.route.residue) = (8001, 5568)) := by
  decide

/-- 05, "Worked figures: advancing the route distance". -/
theorem test_advancing_distance :
    settleDistance 8000 20000 11168 = (8001, 5568) ∧ settleDistance 8001 5568 60000 = (8003, 14368) ∧
      settleDistance 8001 5568 (-11168) = (8000, 20000) ∧ settleDistance 0 3000 (-5000) = (0, 0) := by
  decide

/-- 02, "Worked example: through a restriction on the climb to a junction", with the slip of 03 at p9. -/
theorem test_climb_pass :
    (let s := under 5000 (atSpeed 4362 (withSettings [(8, 900)] (driving 300)));
      let r := (s.setAxle { s.axle with ax1 := { s.axle.ax1 with speed := 4780 } }).setAdhesion
        ⟨.adhering, ⟨.recovering, 850, none, false⟩, 1, .off, .off⟩;
      let t := after (.controlPeriod (handle 199)) r;
      (t.traction.effort, t.traction.effortA, t.traction.effortB) = (308, 277, 224) ∧
        (t.traction.lineA, t.traction.lineB) = (.duty 624, .duty 600) ∧ (t.adhesion.b.state, t.adhesion.b.k) = (.slipping, 810)) := by
  decide

/-- 02, the same example after the mark crossing: the first pass, and the next. -/
theorem test_taper_releases :
    (after (.controlPeriod (handle 199)) (under 5000 (atSpeed 4950 (driving 308)))).traction.effort = 288 ∧
      (after (.controlPeriod (handle 199)) (under 5000 (atSpeed 4951 (driving 288)))).traction.effort = 268 := by
  decide

/-- 02, "Worked example: overspeed on a 7 % descent": passes a, a + 1, b + 1 and b + 2. -/
theorem test_overspeed_passes :
    (let pass := fun s => after (.controlPeriod (handle 199)) (under 5000 s);
      let of := fun (t : State) => (t.traction.overspeed, t.traction.effort, t.traction.lineA);
      of (pass (atSpeed 5990 (driving 40))) = (false, 20, .duty 509) ∧
        of (pass (atSpeed 6000 (driving 20))) = (true, -12, .duty 495) ∧
        of (pass (atSpeed 4998 (fast (driving (-300))))) = (false, -280, .duty 374) ∧
        of (pass (atSpeed 4990 (driving (-280)))) = (false, -260, .duty 383)) := by
  decide

/-- 02, "Worked example: reversing at a terminus": on the move, and at standstill through NEUTRAL. -/
theorem test_reversing :
    (let t := after (.controlPeriod ⟨104, false, true, false, false⟩) (quiet (atSpeed 400 (driving 0)));
      (t.traction.direction, t.traction.ignored, raised t) = (.forward, some .reverse, [(9, 2, 400)])) ∧
    (let s := atSpeed 0 (driving 0);
      let t := after (.controlPeriod ⟨104, false, false, false, false⟩) (s.setAxle { s.axle with standstill := true });
      (t.traction.direction, t.traction.settle, t.traction.state) = (.neutral, some 510, .inhibited)) := by
  decide

/-- 03, "Worked sequence: a slip on bogie B on the climb", p12: the factor reaches the sand threshold. -/
theorem test_slip_asserts_sand :
    (let s := atSpeed 4362 (driving 300);
      let r := (s.setAxle { s.axle with ax1 := { s.axle.ax1 with speed := 4770 } }).setAdhesion
        ⟨.adhering, ⟨.slipping, 730, some 0, false⟩, 1, .off, .off⟩;
      let t := after (.controlPeriod (handle 199)) r;
      (t.adhesion.b.k, t.adhesion.sand, sandAsserted r, sandAsserted t) = (690, .on 10010, false, true)) := by
  decide

/-- 03, "Worked sequence: a slide on leaf fall": the step at 4,000 ms and the one at 4,010 ms. -/
theorem test_slide_fault :
    (let slide := fun (now : Nat) (v0 : Int) =>
        (let s := atSpeed 6000 (driving (-600));
          (quiet ((s.setAxle { s.axle with ax0 := { s.axle.ax0 with speed := v0 } }).setAdhesion
            ⟨⟨.slipping, 250, some 0, false⟩, .adhering, -1, .on 10070, .off⟩)).setNow now);
      let a := after (.controlPeriod (handle 46)) (slide 4000 5100);
      let b := after (.controlPeriod (handle 46)) (slide 4010 5120);
      a.adhesion.a.fault = false ∧ (b.adhesion.a.fault, b.adhesion.a.k, raised b) = (true, 250, [(23, 0, 880)])) := by
  decide

/-- 04, "Worked sequence: a vigilance halt in a coupled pair": code 10 on the halted lead, and what its partner decodes. -/
theorem test_demand_of_code_10 :
    (let t := after (.controlPeriod (handle 10)) (inRole .lead halted);
      (t.lines.previousDemand, t.lines.demandDrive) = (-979, some 60)) ∧ demandOf 60 = -977 := by
  decide

/-- 04, "Worked sequence: a partner late out of INHIBITED": the exit check at 55 ms delivers the retained pulse. -/
theorem test_retained_start :
    (let s := inRole .trail (poised true);
      let t := after (.controlPeriod ⟨104, false, false, true, false⟩)
        ((s.setLines { s.lines with retained := some 240, demandU := 500 }).setNow 55);
      (s.traction.state, t.traction.state, t.lines.retained) = (.inhibited, .running, none)) := by
  decide

/-- A junction of the grid of 05, "Worked example: the overlap check". -/
def grid (tag ident a x : Nat) : Entry := ⟨tag, 0, .junction ⟨a, a + 10, a + 20, x, none, ident, .left, .pending, none, 0, 0⟩⟩
def gridded (more : List Entry) : State :=
  listing ([grid 10 601 20000 20150, grid 11 602 20040 20200, grid 12 603 20080 20230, grid 13 604 20100 20260] ++ more)
def offered (tag ident a x : Nat) : Instr := .routeInsert 1 ⟨tag, 0, false, false, a, a + 10, a + 20, x, 0, ident, 0, 0⟩

/-- 05, "Worked example: the overlap check", its four offers. -/
theorem test_overlap_offers :
    (after (offered 14 605 20120 20300) (gridded [])).route.table.length = 4 ∧
      (after (offered 14 605 20150 20300) (gridded [])).route.table[4]?.map (·.tag) = some 14 ∧
      (after (offered 15 602 20190 20380) (gridded [grid 14 605 20150 20300])).route.table.length = 5 ∧
      (after (offered 15 602 20200 20380) (gridded [grid 14 605 20150 20300])).route.table[5]?.map (·.tag) = some 15 := by
  decide

/-- The table of 05, "Worked sequence: a fix over marks and a junction in a restriction", as the answer finds it. -/
def fixing : State :=
  let s := placed .j0 40 (listing [
    ⟨40, 1, .junction ⟨11980, 12140, 12180, 12260, some 12150, 501, .straight, .asking, none, 1, 0⟩⟩,
    ⟨41, 0, .signal ⟨12135, 12400, 77, 2, .ahead, none⟩⟩, ⟨42, 0, .stop ⟨12145, 12320, 3108, true, .ahead⟩⟩,
    ⟨43, 0, .restriction ⟨12170, 12300, 5000, .ahead⟩⟩,
    ⟨44, 0, .junction ⟨12190, 12230, 12280, 12340, none, 502, .left, .pending, none, 0, 0⟩⟩])
  transmitting (.listening ⟨.j0, some 40, .pointRequest 501 .straight false 1, 60, false⟩ 60)
    (s.setRoute { s.route with distance := 12130, residue := 9000, ceiling := 4200, term := .approach })

/-- 05, the same sequence, "The answer arrives". -/
theorem test_fix_sequence :
    (let t := after (.pointAnswer (pointAnswerBytes 501 1 ⟨.straight, true, .accepted⟩)) fixing;
      (t.route.distance, t.route.residue, t.route.ceiling, t.route.term, t.route.sandInhibit) = (12150, 0, 16700, .line, false) ∧
        t.route.table.map (fun e => (e.tag, e.crossed, e.body.stateCode)) =
          [(40, 2, JunctionState.code .set), (41, 1, SignalState.code .calling), (42, 1, StopState.code .approaching),
            (43, 0, RestrictionState.code .ahead), (44, 0, JunctionState.code .pending)] ∧
        t.junction.signalQueue = [⟨41, false, 77, 2⟩]) := by
  decide +kernel

/-- The slots and queues of 06, "Worked sequence: urgency against the rotation", with J0 waiting or not. -/
def arbiting (j0 j1 : Bool) (run : Nat) (rotation : RotationPosition) (cancels : List CancelItem) (calls : List SignalItem) : State :=
  let s := listing [
    ⟨40, 1, .junction ⟨11980, 12140, 12180, 12260, none, 501, .straight, .asking, none, 1, 0⟩⟩,
    ⟨47, 1, .junction ⟨12060, 12310, 12320, 12340, none, 520, .left, .asking, none, 0, 0⟩⟩]
  (s.setRoute { s.route with distance := 12070 }).setJunction { s.junction with
    j0 := ⟨.entry 40, j0, none⟩, j1 := ⟨.entry 47, j1, none⟩, j2 := ⟨.cancelled, false, none⟩
    cancelQueue := cancels, signalQueue := calls, rotation := rotation, urgentRun := run }
def granted (s : State) : Option Requester × Nat × RotationPosition :=
  (match (tryGrant s).junction.transmitter with
    | .sending x _ => some x.holder
    | _ => none, (tryGrant s).junction.urgentRun, (tryGrant s).junction.rotation)

/-- 06, the same sequence: the grants at 0, 268, 340 and 405 ms. -/
theorem test_arbiter_sequence :
    (let cancels : List CancelItem := [⟨.j2, 499⟩];
      let calls : List SignalItem := [⟨41, false, 77, 2⟩];
      granted (arbiting true true 0 (.at .cancel) cancels calls) = (some .j0, 1, .at .cancel) ∧
        granted (arbiting true true 4 (.at .cancel) cancels calls) = (some .cancel, 0, .low) ∧
        granted (arbiting false true 1 .low [] calls) = (some .signal, 0, .at .j0) ∧
        granted (arbiting false true 0 (.at .j0) [] []) = (some .j1, 0, .at .j2)) := by
  decide +kernel

/-- 06, "Worked sequence: refused, then retried or cancelled", with the records of 10's "collecting events after a junction
halt". -/
theorem test_refusal_halts :
    (let s := placed .j0 52 (listing [⟨52, 1, .junction ⟨30000, 30090, 30130, 30210, none, 710, .left, .asking, none, 1, 0⟩⟩]);
      let r := quiet (atSpeed 4000 (s.setRoute { s.route with distance := 30060, ceiling := 4200, term := .approach }));
      let t := after (.pointAnswer (pointAnswerBytes 710 1 ⟨.straight, true, .refused⟩)) r;
      raised t = [(30, 5, 4000), (28, 52, 710)] ∧ t.host.events.map (·.distance) = [30060, 30060] ∧
        t.halt.latch.map (·.first) = some .junction ∧ t.route.ceiling = 4200 ∧
        (t.junction.j0.holder, t.junction.j0.waiting) = (.entry 52, false)) := by
  decide +kernel

def sb (st : ButtonState) (confirm baseline : Nat) : Button := { button st confirm with baseline := baseline }

/-- 07, "Worked sequence: a press in a coupled pair": the scan of 180 ms confirms SB7. -/
theorem test_press_latches :
    (let s := base.setStop { base.stop with hot := true, buttons := base.stop.buttons.set 7 (sb .pressing 2 2600) };
      let t := after (.scan (List.replicate 7 0 ++ [2289] ++ List.replicate 16 0)) (quiet (s.setNow 180));
      t.stop.latch.map (fun r => (r.source, r.accessible, r.presses)) = some (.button 7, false, 1) ∧
        (15, 7, 0) ∈ raised t ∧ (t.stop.buttons[7]?).map (fun b => (b.state, b.delta)) = some (.pressed, 311)) := by
  decide +kernel

/-- 07, "Worked sequence: a bag on a button": 30 s after the press was confirmed. -/
theorem test_bag_on_button :
    (let s := base.setStop { base.stop with buttons := base.stop.buttons.set 15 (sb .pressed 0 2640) };
      let t := after (.scan (List.replicate 15 0 ++ [2421] ++ List.replicate 8 0)) (quiet (s.setNow 30000));
      (t.stop.buttons[15]?).map (fun b => (b.state, b.reading, b.baseline)) = some (.released, 2421, 2421) ∧
        (14, 15, 2421) ∈ raised t) := by
  decide +kernel

/-- 08, "Worked sequence: a vigilance trip behind a stop announcement": the grace expiry at 3,250 ms. -/
theorem test_warning_preempts :
    (let s := inRole .lead (quiet (rolling 5000 (onBuzzer ⟨.playing 9 0 0 9000, []⟩ base)));
      let t := after .graceExpiry ((s.setVigilance ⟨.released, some 3250⟩).setSound { s.sound with
        loaded := [(9, ⟨.buzzer, .normal, 1, [⟨.on, 250⟩]⟩)] });
      (8, 9, 4) ∈ raised t ∧ t.now = 3250 ∧ t.vigilance.timer = some 5250 ∧
        (match t.sound.buzzer.player with | .playing p step _ _ => (p, step) | _ => (99, 99)) = (4, 0)) := by
  decide +kernel

/-- The CHIME of 08, "Worked sequence: a full CHIME queue", after the PLAYs of 10 to 13 and 6. -/
def chiming : State :=
  let p : Pattern := ⟨.chime, .normal, 1, [⟨.high, 200⟩]⟩
  quiet (base.setSound { base.sound with
    loaded := [(6, p), (7, p), (10, p), (11, p), (12, p), (13, p)]
    chime := ⟨.playing 10 0 0 2000, [11, 12, 13, 6].map fun n => ⟨n, .normal, .host⟩⟩ })

/-- 08, the same sequence: PLAY 7 is refused; pattern 5 displaces pattern 6; a PLAY of it then merges. -/
theorem test_full_chime_queue :
    (after (.play 1 7) chiming).sound.chime = chiming.sound.chime ∧
      (let t := after (.stopRequest 1 1) chiming;
        t.sound.chime.queue = [11, 12, 13].map (fun n => (⟨n, .normal, .host⟩ : Waiting)) ++ [⟨5, .normal, .internal⟩] ∧
          (7, 6, 1) ∈ raised t ∧ (after (.play 2 5) (ready t)).sound.chime = t.sound.chime) := by
  decide +kernel

/-- 09, "Worked sequence: a ceiling held back through a junction": the SETs of 301 and the unlock at X. -/
theorem test_ceiling_held_back :
    (let s := placed .j0 60 (listing [⟨60, 3, .junction ⟨100, 200, 300, 400, none, 7, .left, .set, none, 1, 0⟩⟩]);
      let r := quiet ((s.setRoute { s.route with distance := 399, residue := 25599 }).setSettings { s.settings with
        locked := { s.settings.locked with g3 := true } });
      let a := after (.set 1 301 14000) r;
      let b := after (.set 2 301 26000) (ready a);
      let c := after .speedSample (let m := after (.set 3 308 80) (ready b);
        m.setAxle { m.axle with ax2 := { m.axle.ax2 with count := 1 }, ax3 := { m.axle.ax3 with count := 1 } });
      (a.settings.value 301, listed 301 a.settings.pending) = (16700, some 14000) ∧ replied a = some 1 ∧
        listed 301 b.settings.pending = some 14000 ∧ c.route.distance = 400 ∧
        (c.settings.value 301, c.settings.value 308, c.route.ceiling, c.settings.pending) = (14000, 80, 14000, []) ∧
        (6, 3, 2) ∈ raised c) := by
  decide +kernel

/-- 09, "Worked sequence: staging adhesion settings for wet rail": the THAW with E at 0. -/
theorem test_thaw_applies :
    (let s := quiet (base.setSettings { base.settings with
        pending := [(202, 60), (203, 300), (206, 800), (208, 12)]
        frozen := { PerGroup.clear with g2 := true }, locked := { PerGroup.clear with g2 := true } });
      let t := after (.thaw 1 2) s;
      (t.settings.pending, t.settings.locked.g2, t.settings.frozen.g2, raised t) = ([], false, false, [(6, 2, 4)]) ∧
        [202, 203, 206, 208].map t.settings.value = [60, 300, 800, 12]) := by
  decide

/-- 10, "Worked sequence: collecting events after a junction halt": the last paragraph's full set. -/
theorem test_full_event_set :
    (let full := fullSet;
      let joined := raise 19 52 5 full;
      joined.host.events.length = 64 ∧ joined.host.incomplete = true ∧ (19, 52, 5) ∈ raised joined ∧
        ¬(5, 63, 0) ∈ raised joined ∧ (6, 3, 2) ∈ raised (raise 6 3 2 full) ∧ raised (raise 2 0 1 full) = raised full) := by
  decide +kernel

/-- R17: a changed decode mode waits for the next sample, which empties the ring and closes the window before its delta. -/
theorem test_mode_waits_for_sample :
    (let r := onAx2 fun c => { c with count := 3, ring := [0, 0, 0, 0, 0, 0, 0, 0, 0, 9], window := some ⟨2, 900⟩ };
      let s := after (.set 1 102 0) r;
      let t := after .speedSample s;
      (s.cfg 102, s.axle.ax2.mode, s.axle.ax2.window) = (0, .phase4x, some ⟨2, 900⟩) ∧ s.axle.ax2.ring = r.axle.ax2.ring ∧
        (after (.encoderEdge .ax2 true false) s).axle.ax2.count = 4 ∧
        (t.axle.ax2.mode, t.axle.ax2.window, t.axle.ax2.ring) = (.phase1x, none, [0, 0, 0, 0, 0, 0, 0, 0, 0, 3])) := by
  decide

/-- R15: between samples AXLE READ sends the figures of the last one, AXLE RESET or not. -/
theorem test_axle_read_shows_last_sample :
    (let s := after (.encoderEdge .ax2 true true) (after (.encoderEdge .ax2 true false) base);
      let t := after (.axleReset 1 2) s;
      let u := after .speedSample s;
      s.axle.ax2.count = 2 ∧ t.axle.ax2.count = 2 ∧ axleBytes s .ax2 = axleBytes base .ax2 ∧ axleBytes t .ax2 = axleBytes base .ax2 ∧
        ((axleBytes s .ax2).drop 4).take 4 = [0, 0, 0, 0] ∧ ((axleBytes u .ax2).drop 4).take 4 = [0, 0, 0, 2]) := by
  decide

/-- R46: a limit set since the last pass waits for the next, also at a BREACH between passes. -/
theorem test_limits_wait_for_pass :
    (let s := withSettings [(9, 500)] (listening 3 .set);
      let t := after (.pointAnswer (pointAnswerBytes 7 1 ⟨.left, false, .accepted⟩)) s;
      (t.traction.effort, t.traction.effortA, t.traction.effortB) = (-1000, -1000, -1000) ∧
        (after (.controlPeriod (handle 104)) s).traction.brakeLimit = 500) := by
  decide +kernel

/-- R76: a handle that returns to the power it held through an invalid code's hold emits no START. -/
theorem test_held_power_emits_none :
    (let s := driving 100;
      let p := fun code s => after (.controlPeriod (handle code)) s;
      let a := (p 248 (p 200 s)).setLines { (p 248 (p 200 s)).lines with emission := none };
      let b := after .handleHoldExpiry a;
      a.lines.previousDemand = 510 ∧ b.lines.previousDemand = 510 ∧ (p 200 b).lines.emission = none) := by
  decide +kernel

/-- R119: the turn of a cancelled entry is no longer its own, nor that of a new entry under its tag. -/
theorem test_cancelled_turn_counts_nothing :
    (let s := listening 1 .asking;
      (match (after (.junctionCancel 1 1) s).junction.transmitter with
        | .listening turn x => (turn.entry, x)
        | _ => (some 9, 9)) = (none, 60)) := by
  decide

/-- R1 and R2: a backward cycle of the pair in each mode, a wrap past the largest count, and PULSE_DIR with B changing at the
edge. -/
theorem test_encoder_edges :
    (let cycle := [(false, true), (true, true), (true, false), (false, false)];
      let run := fun m => ((cycle.zip [(true, true), (true, false), (false, false), (false, true)]).map
        fun e => (countStep m e.1.1 e.1.2 e.2.1 e.2.2).toInt);
      run .phase4x = [-1, -1, -1, -1] ∧ run .phase2x = [-1, 0, -1, 0] ∧ run .phase1x = [-1, 0, 0, 0] ∧
        (countStep .pulseDir false false true true).toInt = 1 ∧ (countStep .pulseDir false true true false).toInt = -1) ∧
      (let s := onAx2 fun c => { c with count := 0x7FFFFFFF };
        (after (.encoderEdge .ax2 true false) s).axle.ax2.count.toInt = -2147483648) := by
  decide

/-- 10 section 2: NO_ROUTE 20, LOOP_BAD 18, DOORS_OPEN 17, BUSY 16; 10 section 3 asks EVENTS for 1 to 8 (RANGE). -/
theorem test_refusal_codes :
    replied (after (.routeInsert 1 (record 0)) base) = some 20 ∧
      replied (after (.loopReset 1) (ready (after (.loopOkReleased false) base))) = some 18 ∧
      replied (after (.stopRequest 1 0) (doorsOpen base)) = some 17 ∧ replied (after (.status 1) (crowded .free)) = some 16 ∧
      replied (after (.events 1 9) base) = replied (after (.events 1 0) base) ∧ replied (after (.events 1 8) base) = some 0 := by
  decide +kernel

/-- One command a step, first in, first out; an empty queue lets one millisecond pass. -/
theorem test_queue_order :
    (match step (base.setPending [.bellPedalPress, .hornPress]) with
      | .next t => (t.pending, t.pins.bellPedal, t.pins.hornButton)
      | _ => ([], false, false)) = ([.hornPress], true, false) ∧
      step base = .next (base.setNow 1) := by
  exact ⟨by decide, rfl⟩

/-- The row's table spells no command in bits: a word changes nothing. -/
theorem test_words_spell_none : decodeTableWord 8 5 = none ∧ State.withFetchWord base 8 5 = base := ⟨rfl, rfl⟩

end Sys2Proof.Tests
end

section
namespace Sys2Proof.Machine

/-! ### The reset state -/

theorem EventLaw.atReset : EventLaw HostLink.atReset := ⟨by decide, by decide, by decide⟩

theorem RouteLaw.atReset : RouteLaw RouteEngine.atReset where
  distance := by decide
  residue := by decide
  room := by decide
  entries := fun _ h => absurd h List.not_mem_nil
  tags := List.nodup_nil
  sorted := List.Pairwise.nil
  inactive := fun _ => rfl

theorem PowerLaw.atReset : PowerLaw State.reset where
  settings := ⟨by decide, by decide, by decide⟩
  halt := ⟨by decide, by decide⟩
  range := ⟨by decide, by decide⟩
  gate := fun h => absurd h (by decide)

theorem SoundUnit.atReset_line (c : SoundChannel) : SoundUnit.atReset.line c = .atReset := by cases c <;> rfl

theorem JunctionUnit.atReset_slot (i : SlotId) : JunctionUnit.atReset.slot i = .empty := by cases i <;> rfl

theorem QueueLaw.atReset : QueueLaw State.reset where
  sounds := fun c => by rw [show State.reset.sound = .atReset from rfl, SoundUnit.atReset_line]; decide
  signals := by decide
  requests := by decide

theorem CancelLaw.atReset : CancelLaw JunctionUnit.atReset where
  room := by decide
  once := List.nodup_nil
  kept := fun i => by rw [JunctionUnit.atReset_slot]; simp [JunctionUnit.atReset, Slot.empty]

theorem BogieLaw.atReset : BogieLaw State.reset where
  limits := by decide
  factors := fun i => by cases i <;> decide
  rest := fun _ i => by cases i <;> rfl
  held := by decide
  share := by decide

theorem LockLaw.atReset : LockLaw State.reset where
  moving := fun g _ => by cases g <;> decide
  effort := by decide
  judged := by decide
  route := by
    simp only [show State.reset.junction = .atReset from rfl, JunctionUnit.atReset_slot]
    simp [State.reset, RouteEngine.atReset, Slot.empty, SettingsStore.atReset, PerGroup.clear]
  buttons := by decide
  sound := by
    simp only [show State.reset.sound = .atReset from rfl, SoundUnit.atReset_line]
    simp [State.reset, SoundLine.atReset, SettingsStore.atReset, PerGroup.clear]

theorem MonitorLaw.atReset : MonitorLaw State.reset := ⟨by decide, by decide, by decide, by decide⟩

theorem CausesFollow.atReset : CausesFollow State.reset := by
  simp [CausesFollow, State.reset, RouteEngine.atReset, HaltLatch.atReset, Causes.none]

/-- Settles O3: each law read off the reset values of the blocks it speaks of. -/
theorem resetObeysEveryLaw : Obligations.ResetObeysEveryLaw := by
  have sand : SandLaw State.reset := fun h => absurd h (by decide)
  have lines : LineLaw State.reset.lines := fun h => absurd h (by decide)
  have vigil : VigilLaw State.reset.vigilance := by simp [VigilLaw, State.reset, Vigilance.atReset]
  have drive : DriveLaw State.reset := by unfold DriveLaw; decide
  have latch : LatchLaw State.reset := fun r h => nomatch h
  exact ⟨.atReset, .atReset, .atReset, sand, .atReset, lines, vigil, .atReset, drive, .atReset, .atReset, .atReset, latch,
    .atReset⟩

/-! ### A request that finds the link ready -/

/-- A request that finds the link ready executes at once, and its reply is being sent (R174, R175). -/
theorem submit_ready {s : State} (h : LinkReady s) (tag : Nat) (r : HostRequest) :
    submit tag r s = answering tag r (perform r (queued tag r s)).2 (perform r (queued tag r s)).1 := by
  obtain ⟨queue, line, busy, idle⟩ := h
  simp only [submit, queue, List.length_nil, Config.maxRequests, List.nil_append]
  simp [pump, mayExecute, executeHead, line, busy, idle, queued, answering]

/-- A request row that changes nothing, on a ready link. -/
theorem exec_replied {c : Instr} {tag : Nat} {r : HostRequest} {reply : Reply} {s : State} (hc : c.request = some (tag, r))
    (h : LinkReady s) (done : perform r (queued tag r s) = (queued tag r s, reply)) :
    exec c s = .next (Machine.replied tag r reply s) := by
  rw [exec_request hc, submit_ready h, done]; rfl

/-- The entry at the first place of its tag is found there (R93). -/
theorem indexOf_first {table : List Entry} {n : Nat} {e : Entry} (he : table[n]? = some e)
    (first : ∀ x ∈ table.take n, x.tag ≠ e.tag) : indexOf e.tag table = n := by
  obtain ⟨hn, rfl⟩ := List.getElem?_eq_some_iff.1 he
  refine (List.findIdx_eq hn).2 ⟨by simp, fun j hj => ?_⟩
  have := first table[j] (List.mem_take_iff_getElem.2 ⟨j, by omega, rfl⟩)
  simpa using this

/-- A tag that no entry carries is found nowhere. -/
theorem indexOf_absent {table : List Entry} {tag : Nat} (h : ∀ e ∈ table, e.tag ≠ tag) : table[indexOf tag table]? = none := by
  have : indexOf tag table = table.length := List.findIdx_eq_length.2 fun e he => by simpa using h e he
  simp [this]

/-- A number outside 0..3 names no channel. -/
theorem axleOf_eq_none {n : Nat} (h : 3 < n) : axleOf n = none := by
  obtain ⟨k, rfl⟩ := Nat.exists_eq_add_of_lt h
  rw [show 3 + k + 1 = k + 4 by omega]; rfl

theorem bogieBytes_length (sign : Int) (b : BogieState) : (bogieBytes sign b).length = 3 := by
  simp only [bogieBytes, List.length_append, bytesBE_length]

theorem haltBytes_length (h : HaltLatch) : (haltBytes h).length = 9 := by
  simp only [haltBytes, List.length_append, bytesBE_length]

theorem stopBytes_length (u : StopUnit) : (stopBytes u).length = 6 := by
  simp only [stopBytes, List.length_append, bytesBE_length]

/-- Settles O16: each reading request reports from a state that differs in the link alone, and the lengths are sums over the
layouts. -/
theorem readsChangeNothing : Obligations.ReadsChangeNothing := by
  intro tag s h
  refine ⟨exec_replied rfl h rfl, exec_replied rfl h rfl, fun n g hg => exec_replied rfl h ?_, fun n hg => exec_replied rfl h ?_,
    fun n i hi => exec_replied rfl h ?_, fun n hn => exec_replied rfl h ?_, fun n b hb => exec_replied rfl h ?_,
    fun n hb => exec_replied rfl h ?_, fun n e he => exec_replied rfl h ?_, fun n he => exec_replied rfl h ?_,
    exec_replied rfl h rfl, fun n e ht he first => exec_replied rfl h ?_, fun t ht absent => exec_replied rfl h ?_,
    fun sel n hs => exec_replied rfl h ?_, fun k => exec_replied rfl h rfl, ?_, ?_, fun i hr => ?_, fun n b => ?_⟩
  · simp only [perform, doGet, hg]; rfl
  · simp only [perform, doGet, hg]; rfl
  · simp only [perform, doAxleRead, hi]; rfl
  · simp only [perform, doAxleRead, axleOf_eq_none hn]; rfl
  · simp only [perform, doButtonRead, queued, State.setHost_stop, hb]; rfl
  · simp only [perform, doButtonRead, queued, State.setHost_stop, hb]; rfl
  · simp only [perform, doRouteRead, readAt, queued, State.setHost_route, he]; rfl
  · simp only [perform, doRouteRead, readAt, queued, State.setHost_route, he]; rfl
  · simp only [perform, doRouteRead, ht, readAt, queued, State.setHost_route, indexOf_first he first, he]; rfl
  · simp only [perform, doRouteRead, ht, readAt, queued, State.setHost_route, indexOf_absent absent]; rfl
  · match sel, hs with
    | sel + 2, _ => rfl
  · simp [identBytes]
  · unfold statusBytes
    simp only [List.length_append, bytesBE_length, bogieBytes_length, haltBytes_length, stopBytes_length]
  · simp [axleBytes, hr]
  · simp [buttonBytes]

end Sys2Proof.Machine
end
section
namespace Sys2Proof.Machine

/-! ### Edges and phase errors -/

/-- An edge that is no phase error adds what the tables of R1 and R2 give. -/
theorem countStep_of_tables (mode : DecodeMode) (a b a' b' : Bool) (single : mode = .pulseDir ∨ a = a' ∨ b = b') :
    countStep mode a b a' b' =
      if countsUp mode a b a' b' then 1 else if countsDown mode a b a' b' then -1 else 0 := by
  cases mode <;> revert a b a' b' <;> decide

/-- A phase error adds nothing in a PHASE mode (R3). -/
theorem countStep_phaseError (mode : DecodeMode) (a b : Bool) (h : mode ≠ .pulseDir) : countStep mode a b (!a) (!b) = 0 := by
  cases mode <;> revert a b h <;> decide

/-- An edge on one phase alone, or in PULSE_DIR, is no phase error (R3). -/
theorem phaseError_single {mode : DecodeMode} {a b a' b' : Bool} (single : mode = .pulseDir ∨ a = a' ∨ b = b') :
    phaseError mode a b a' b' = false := by
  rcases single with rfl | rfl | rfl <;> simp [phaseError]

@[simp] theorem AxleUnit.channel_setChannel (u : AxleUnit) (i : AxleId) (c : AxleChannel) :
    (u.setChannel i c).channel i = c := by cases i <;> rfl

@[simp] theorem AxleUnit.setChannel_setChannel (u : AxleUnit) (i : AxleId) (c d : AxleChannel) :
    (u.setChannel i c).setChannel i d = u.setChannel i d := by cases i <;> rfl

theorem setAxle_setAxle (s : State) (x y : AxleUnit) : (s.setAxle x).setAxle y = s.setAxle y := rfl

/-- Settles O19: the model's step of the count is the table's, and such an edge is no phase error. -/
theorem encoderEdgeCounts : Obligations.EncoderEdgeCounts := by
  intro i a b s c mode edge single
  show execEncoderEdge i a b s = _
  have isEdge : ¬(c.phaseA = a ∧ c.phaseB = b) := by tauto
  unfold execEncoderEdge takeEdge
  dsimp only
  rw [if_neg isEdge, phaseError_single single, ← countStep_of_tables mode c.phaseA c.phaseB a b single]
  rfl

/-- A channel's figures after a phase error (R3): `w` is the window the error is counted in. -/
def AxleChannel.erred (limit : Nat) (w : PhaseWindow) (c : AxleChannel) : AxleChannel :=
  { c with
    phaseA := !c.phaseA
    phaseB := !c.phaseB
    tally := min 255 (c.tally + 1)
    window := some w
    state := if limit < w.count then .failed else c.state }

/-- A phase error takes both new levels, leaves the count and is judged in its window (R3). -/
theorem takeEdge_phaseError (i : AxleId) (s : State) (h : (s.axle.channel i).mode ≠ .pulseDir) :
    let c := s.axle.channel i
    let w := openWindow s.now c.window
    let u := s.setAxle (s.axle.setChannel i (c.erred (s.cfgN Setting.phaseErrorLimit) w))
    takeEdge i (!c.phaseA) (!c.phaseB) s =
      if s.cfgN Setting.phaseErrorLimit < w.count ∧ c.state ≠ .failed then
        raise 24 (axleNumber i) (min 255 (c.tally + 1) : Nat) u else u := by
  intro c w u
  have error : phaseError c.mode c.phaseA c.phaseB (!c.phaseA) (!c.phaseB) = true := by simp [phaseError, c, h]
  have still : countStep (s.axle.channel i).mode (s.axle.channel i).phaseA (s.axle.channel i).phaseB (!c.phaseA) (!c.phaseB) =
      0 := countStep_phaseError _ _ _ h
  have limit : ∀ x, (s.setAxle x).cfgN Setting.phaseErrorLimit = s.cfgN Setting.phaseErrorLimit := fun _ => rfl
  unfold takeEdge takePhaseError
  dsimp only
  rw [if_pos error]
  simp only [onChannel, State.setAxle_axle, State.setAxle_now, AxleUnit.channel_setChannel, AxleUnit.setChannel_setChannel,
    setAxle_setAxle, limit, still, add_zero]
  by_cases beyond : s.cfgN Setting.phaseErrorLimit < w.count
  · by_cases failed : c.state = .failed
    · rw [if_neg (by tauto), if_neg (by tauto)]
      simp only [u, AxleChannel.erred, if_pos beyond, ← failed]; rfl
    · rw [if_pos ⟨beyond, failed⟩, if_pos ⟨beyond, failed⟩]
      simp only [u, AxleChannel.erred, if_pos beyond]; rfl
  · rw [if_neg (by tauto), if_neg (by tauto)]
    simp only [u, AxleChannel.erred, if_neg beyond]; rfl

/-- Settles O20: a phase error is judged in its window, and the window's expiry runs only while it is open. -/
theorem phaseErrorsFailChannel : Obligations.PhaseErrorsFailChannel := by
  intro i s c
  refine ⟨?_, ?_, ?_⟩
  · intro phase w d u
    show execEncoderEdge i (!c.phaseA) (!c.phaseB) s = _
    have isEdge : ¬(c.phaseA = !c.phaseA ∧ c.phaseB = !c.phaseB) := by simp
    have window : openWindow s.now c.window = w := by
      show openWindow s.now c.window = match c.window with
        | none => ⟨1, s.now + 1000⟩
        | some w => ⟨w.count + 1, w.expiry⟩
      cases c.window <;> rfl
    have taken := takeEdge_phaseError i s phase
    dsimp only at taken
    rw [show openWindow s.now (s.axle.channel i).window = w from window] at taken
    unfold execEncoderEdge
    exact (congrArg _ (if_neg isEdge)).trans (congrArg _ taken)
  · intro w hw
    show execPhaseErrorWindowExpiry i s = _
    unfold execPhaseErrorWindowExpiry
    rw [show (s.axle.channel i).window = some w from hw]; rfl
  · intro hw
    show execPhaseErrorWindowExpiry i s = _
    unfold execPhaseErrorWindowExpiry
    rw [show (s.axle.channel i).window = none from hw]; rfl

/-! ### AXLE RESET -/

/-- AXLE RESET changes nothing that AXLE READ reports (R15, R16). -/
theorem axleBytes_resetChannel (i j : AxleId) (s : State) : axleBytes (resetChannel i s) j = axleBytes s j := by
  cases i <;> cases j <;> rfl

/-- What AXLE RESET takes changes nothing that AXLE READ reports. -/
theorem axleBytes_doAxleReset (n : Nat) (s : State) (j : AxleId) : axleBytes (doAxleReset n s).1 j = axleBytes s j := by
  unfold doAxleReset
  split
  · rfl
  · split
    · simp only [taken, axleBytes_resetChannel]
    · split
      · rfl
      · simp only [taken, axleBytes_resetChannel]

/-- AXLE RESET where it is refused or taken, by what its execution answers (R16). -/
theorem exec_axleReset {tag n : Nat} {s : State} {reply : Reply} {x : AxleUnit} (h : LinkReady s)
    (done : ∀ q : HostLink, doAxleReset n (s.setHost q) = ((s.setAxle x).setHost q, reply)) :
    exec (.axleReset tag n) s = .next (replied tag (.axleReset n) reply (s.setAxle x)) := by
  rw [exec_request rfl, submit_ready h]
  simp only [perform, queued, done]; rfl

/-- AXLE RESET of one channel, at standstill (R16). -/
theorem doAxleReset_named (i : AxleId) {s : State} (still : s.axle.standstill = true) :
    doAxleReset (axleNumber i) s = taken (resetChannel i s) := by
  have named : axleOf (axleNumber i) = some i := by cases i <;> rfl
  have notAll : axleNumber i ≠ 255 := by cases i <;> decide
  unfold doAxleReset
  rw [if_neg (by simp [still]), if_neg notAll, named]

/-- AXLE RESET of all channels, at standstill (R16). -/
theorem doAxleReset_all {s : State} (still : s.axle.standstill = true) :
    doAxleReset 255 s = taken (resetChannel .ax3 (resetChannel .ax2 (resetChannel .ax1 (resetChannel .ax0 s)))) := by
  unfold doAxleReset
  rw [if_neg (by simp [still]), if_pos rfl]

/-- Settles O27: the refusals and the channels named, in the order in which AXLE RESET judges them. -/
theorem axleResetServicesChannels : Obligations.AxleResetServicesChannels := by
  intro tag s h fresh done
  refine ⟨fun moving n => ?_, fun still => ⟨fun n hn hall => ?_, ?_, ?_, ?_, ?_, ?_, fun n t ht i => ?_⟩⟩
  · exact exec_axleReset (x := s.axle) h fun q => by exact if_pos moving
  · exact exec_axleReset (x := s.axle) h fun q => by
      unfold doAxleReset
      rw [if_neg (by simp [still]), if_neg hall, axleOf_eq_none hn]; rfl
  · exact exec_axleReset h fun q => by exact doAxleReset_named .ax0 (s := s.setHost q) still
  · exact exec_axleReset h fun q => by exact doAxleReset_named .ax1 (s := s.setHost q) still
  · exact exec_axleReset h fun q => by exact doAxleReset_named .ax2 (s := s.setHost q) still
  · exact exec_axleReset h fun q => by exact doAxleReset_named .ax3 (s := s.setHost q) still
  · exact exec_axleReset h fun q => by exact doAxleReset_all (s := s.setHost q) still
  · rw [exec_request rfl, submit_ready h] at ht
    cases ht
    exact axleBytes_doAxleReset n (queued tag (.axleReset n) s) i

end Sys2Proof.Machine
end

section
/-! Quiet walks: what everything a speed sample does after its judgement of the reference leaves alone. The walks of Laws/Walk
let a primitive replace a whole block; a quiet walk also says which fields of the block stay, and which event kinds, lock groups
and halt causes an operation can touch. -/

namespace Sys2Proof.Machine

/-- The primitives of the sound unit, the halt latch, the route engine, the junction unit and the vigilance monitor, as an event
that changes neither the role nor the place uses them. No event of kinds 10, 11 and 29 is raised, which the axle unit alone
raises; of the causes only those of `C` change, TRAINLINE, VIGILANCE, JUNCTION, BREACH and DEMAND LOST among them. -/
structure QuietWalk (C : Cause → Prop) (P : State → Prop) : Prop where
  free : ∀ c, c ≠ .rollback → c ≠ .referenceLost → C c
  raise : ∀ {s k j v}, k ∉ [10, 11, 29] → At P s → At P (raise k j v s)
  lock : ∀ {s g b}, g = .g2 ∨ g = .g3 ∨ g = .g5 → At P s → At P (judgeLock g b s)
  effortHeld : ∀ {s b}, At P s → At P (s.setSettings { s.settings with effortHeld := b })
  sound : ∀ {s u}, u.loaded = s.sound.loaded → At P s → At P (s.setSound u)
  traction : ∀ {s x}, At P s → At P (s.setTraction x)
  latch : ∀ {s x}, x.causes = s.halt.causes → At P s → At P (s.setHalt x)
  cause : ∀ {s c b}, C c → At P s → At P (s.setHalt { s.halt with causes := s.halt.causes.put c b })
  lines : ∀ {s l}, l.role = s.lines.role → l.coupled = s.lines.coupled → l.demandU = s.lines.demandU → At P s →
    At P (s.setLines l)
  route : ∀ {s r}, r.active = s.route.active → r.distance = s.route.distance → r.residue = s.route.residue → At P s →
    At P (s.setRoute r)
  sand : ∀ {s}, At P s → At P (releaseSand s)
  junction : ∀ {s u}, u.masks = s.junction.masks → u.loop = s.junction.loop → At P s → At P (s.setJunction u)
  vigil : ∀ {s v}, At P s → At P (s.setVigilance v)

/-- The quiet primitives with those of the axle unit, of the lock groups of standstill and of the advance of the route. -/
structure TripWalk (C : Cause → Prop) (P : State → Prop) : Prop extends QuietWalk C P where
  axle : ∀ {s x}, At P s → At P (s.setAxle x)
  anyLock : ∀ {s g b}, At P s → At P (judgeLock g b s)
  move : ∀ {s d x}, At P s → At P (s.setRoute { s.route with distance := d, residue := x })

/-- P outlives a change of the role. -/
def KeepsRole (P : State → Prop) : Prop :=
  ∀ {s r c}, At P s → At P (s.setLines { s.lines with role := r, coupled := c })

variable {C : Cause → Prop} {P : State → Prop} {s : State}

/-! ### Sounds -/

@[simp] theorem SoundUnit.setLine_loaded (u : SoundUnit) (c : SoundChannel) (l : SoundLine) :
    (u.setLine c l).loaded = u.loaded := by cases c <;> rfl

theorem QuietWalk.line (W : QuietWalk C P) {c : SoundChannel} {l : SoundLine} (h : At P s) :
    At P (s.setSound (s.sound.setLine c l)) := W.sound (by simp) h

theorem judgeSound_quiet (W : QuietWalk C P) (h : At P s) : At P (judgeSound s) := W.lock (by simp) h

theorem strike_quiet (W : QuietWalk C P) (h : At P s) : At P (strike s) := by
  unfold strike; split
  · exact h
  · exact W.sound rfl h

theorem enterStep_quiet (W : QuietWalk C P) {c p st i j t} (h : At P s) : At P (enterStep c p st i j t s) := by
  unfold enterStep; dsimp only; split
  · exact strike_quiet W (W.line h)
  · exact W.line h

theorem takePattern_quiet (W : QuietWalk C P) {c p} (h : At P s) : At P (takePattern c p s) := by
  unfold takePattern; split
  · exact enterStep_quiet W h
  · exact h

theorem leavePlayer_quiet (W : QuietWalk C P) {c} (h : At P s) : At P (leavePlayer c s) := by
  unfold leavePlayer; split
  · exact judgeSound_quiet W (W.line h)
  · exact judgeSound_quiet W (takePattern_quiet W (W.line h))

theorem queueRequest_quiet (W : QuietWalk C P) {c w} (h : At P s) : At P (queueRequest c w s).1 := by
  unfold queueRequest; dsimp only; split
  · exact W.line h
  · split
    · exact h
    · exact W.raise (by decide) (W.line h)
    · exact W.raise (by decide) h

theorem requestPattern_quiet (W : QuietWalk C P) {p o} (h : At P s) : At P (requestPattern p o s).1 := by
  unfold requestPattern; split
  · exact h
  · dsimp only; split
    · exact h
    · split
      · exact W.line h
      · split
        · exact judgeSound_quiet W (takePattern_quiet W h)
        · split
          · exact takePattern_quiet W (W.raise (by decide) h)
          · exact queueRequest_quiet W h
        · exact queueRequest_quiet W h

theorem askFor_quiet (W : QuietWalk C P) {p} (h : At P s) : At P (askFor p s) := requestPattern_quiet W h

theorem silencePattern_quiet (W : QuietWalk C P) {p} (h : At P s) : At P (silencePattern p s) := by
  unfold silencePattern; split
  · exact h
  · dsimp only; split
    · exact leavePlayer_quiet W h
    · exact W.line h

theorem releaseBell_quiet (W : QuietWalk C P) (h : At P s) : At P (releaseBell s) := by
  unfold releaseBell; split
  · exact leavePlayer_quiet W (W.sound rfl h)
  · exact h

theorem endHorn_quiet (W : QuietWalk C P) (h : At P s) : At P (endHorn s) := leavePlayer_quiet W (W.sound rfl h)

theorem releaseControls_quiet (W : QuietWalk C P) (h : At P s) : At P (releaseControls s) := by
  unfold releaseControls; dsimp only; split
  · exact endHorn_quiet W (releaseBell_quiet W h)
  · exact releaseBell_quiet W h

/-! ### The halt latch and its causes -/

theorem judgeEffort_quiet (W : QuietWalk C P) (h : At P s) : At P (judgeEffort s) := W.lock (by simp) (W.effortHeld h)

theorem breachBraking_quiet (W : QuietWalk C P) (h : At P s) : At P (breachBraking s) :=
  judgeEffort_quiet W (W.traction (W.traction (W.traction h)))

theorem enterInhibited_quiet (W : QuietWalk C P) (h : At P s) : At P (enterInhibited s) := by
  rw [enterInhibited_eq]; exact W.traction h

theorem setLatch_quiet (W : QuietWalk C P) {c} (h : At P s) : At P (setLatch c s) :=
  askFor_quiet W (W.raise (by decide) (W.lines rfl rfl rfl (W.traction (W.latch rfl h))))

/-- Causes of `C` put one after another. -/
theorem QuietWalk.causes (W : QuietWalk C P) {b : Bool} {cs : List Cause} (hc : ∀ c ∈ cs, C c) (h : At P s) :
    At P (s.setHalt { s.halt with causes := cs.foldl (fun x c => x.put c b) s.halt.causes }) := by
  induction cs generalizing s with
  | nil => exact W.latch rfl h
  | cons c l ih =>
    exact ih (s := s.setHalt { s.halt with causes := s.halt.causes.put c b }) (fun x hx => hc x (List.mem_cons_of_mem _ hx))
      (W.cause (hc c List.mem_cons_self) h)

theorem joinCauses_quiet (W : QuietWalk C P) {cs} (hc : ∀ c ∈ cs, C c) (h : At P s) : At P (joinCauses cs s) := by
  unfold joinCauses; split
  · exact h
  next first more e =>
    have joined : ∀ c ∈ first :: more, C c := fun c hm => by
      rw [← e] at hm
      have := (List.mem_filter.1 hm).2
      simp only [Bool.and_eq_true, List.contains_iff_mem] at this
      exact hc c this.1
    have latched : At P (if s.halt.latch.isNone then setLatch first s else s) := ite_at (fun _ => setLatch_quiet W h) fun _ => h
    exact ite_at (fun _ => breachBraking_quiet W (W.causes joined latched)) fun _ => W.causes joined latched

theorem dropCauses_quiet (W : QuietWalk C P) {cs} (hc : ∀ c ∈ cs, C c) (h : At P s) : At P (dropCauses cs s) := W.causes hc h

theorem senseHalt_quiet (W : QuietWalk C P) (h : At P s) : At P (senseHalt s) := by
  have sensed : ∀ c ∈ [Cause.trainline], C c := by simpa using W.free .trainline (by decide) (by decide)
  unfold senseHalt; split
  · exact joinCauses_quiet W sensed h
  · exact dropCauses_quiet W sensed h

theorem judgeDrive_quiet (W : QuietWalk C P) (h : At P s) : At P (judgeDrive s) := by
  unfold judgeDrive; dsimp only; split
  · exact h
  · split
    · exact W.lines rfl rfl rfl h
    · exact senseHalt_quiet W (W.lines rfl rfl rfl h)

theorem addCauses_quiet (W : QuietWalk C P) {cs} (hc : ∀ c ∈ cs, C c) (h : At P s) : At P (addCauses cs s) :=
  judgeDrive_quiet W (joinCauses_quiet W hc h)

theorem removeCauses_quiet (W : QuietWalk C P) {cs} (hc : ∀ c ∈ cs, C c) (h : At P s) : At P (removeCauses cs s) :=
  judgeDrive_quiet W (dropCauses_quiet W hc h)

/-! ### The route engine -/

theorem changeEntry_quiet (W : QuietWalk C P) {tag f} (h : At P s) : At P (changeEntry tag f s) := W.route rfl rfl rfl h

theorem formCeiling_quiet (W : QuietWalk C P) (h : At P s) : At P (formCeiling s) := W.route rfl rfl rfl h

theorem judgeInhibit_quiet (W : QuietWalk C P) (h : At P s) : At P (judgeInhibit s) :=
  W.route rfl rfl rfl (ite_at (fun _ => W.sand h) fun _ => h)

theorem settleRoute_quiet (W : QuietWalk C P) (h : At P s) : At P (settleRoute s) :=
  judgeInhibit_quiet W (formCeiling_quiet W (W.route rfl rfl rfl h))

theorem settleAfter_quiet (W : QuietWalk C P) {l} (h : At P s) : At P (settleAfter l s) :=
  ite_at (fun _ => h) fun _ => settleRoute_quiet W h

theorem refreshSetLength_quiet (W : QuietWalk C P) (h : At P s) : At P (refreshSetLength s) :=
  ite_at (fun _ => h) fun _ => settleAfter_quiet W (W.route rfl rfl rfl h)

theorem endRoute_quiet (W : QuietWalk C P) (h : At P s) : At P (endRoute s) := settleRoute_quiet W (W.route rfl rfl rfl h)

/-! ### The junction unit -/

@[simp] theorem JunctionUnit.setSlot_masks (u : JunctionUnit) (i : SlotId) (x : Slot) : (u.setSlot i x).masks = u.masks := by
  cases i <;> rfl

@[simp] theorem JunctionUnit.setSlot_loop (u : JunctionUnit) (i : SlotId) (x : Slot) : (u.setSlot i x).loop = u.loop := by
  cases i <;> rfl

theorem onSlot_quiet (W : QuietWalk C P) {i f} (h : At P s) : At P (onSlot i f s) := W.junction (by simp) (by simp) h

theorem takeUpRoute_quiet (W : QuietWalk C P) {old} (h : At P s) : At P (takeUpRoute old s) := by
  have turned : At P (if Requester.all.all fun r => old.value (Setting.classOf r) == s.cfg (Setting.classOf r) then s
      else s.setJunction { s.junction with rotation := keptRotation s.settings s.junction.rotation }) :=
    ite_at (fun _ => h) fun _ => W.junction rfl rfl h
  exact ite_at (fun _ => turned) fun _ => refreshSetLength_quiet W turned

theorem judgeRoute_quiet (W : QuietWalk C P) (h : At P s) : At P (judgeRoute s) := takeUpRoute_quiet W (W.lock (by simp) h)

theorem beginTurn_quiet (W : QuietWalk C P) {r} (h : At P s) : At P (beginTurn r s) := by
  unfold beginTurn; split
  · exact h
  next t entry _ =>
    dsimp only
    refine W.junction rfl rfl ?_
    have withdrawn : At P (match r.slot? with
      | some i => onSlot i (fun x => { x with waiting := false }) s
      | none => s) := by
      split
      · exact onSlot_quiet W h
      · exact h
    split
    · exact changeEntry_quiet W withdrawn
    · exact withdrawn

theorem tryGrant_quiet (W : QuietWalk C P) (h : At P s) : At P (tryGrant s) := by
  unfold tryGrant; split
  · split
    · exact beginTurn_quiet W (W.junction rfl rfl h)
    · split
      · exact beginTurn_quiet W (W.junction rfl rfl h)
      · exact h
  · exact h

theorem startAsking_quiet (W : QuietWalk C P) {i} (h : At P s) : At P (startAsking i s) :=
  tryGrant_quiet W (onSlot_quiet W (onSlot_quiet W h))

theorem stopAskingFor_quiet (W : QuietWalk C P) {tag} (h : At P s) : At P (stopAskingFor tag s) := by
  unfold stopAskingFor; split
  · exact onSlot_quiet W h
  · exact h

theorem takeSlot_quiet (W : QuietWalk C P) {tag} (h : At P s) : At P (takeSlot tag s) := by
  unfold takeSlot; split
  · exact h
  · split
    · split
      · exact h
      · dsimp only; split
        · exact startAsking_quiet W (onSlot_quiet W h)
        · exact onSlot_quiet W h
    · exact h

theorem serveWaiting_quiet (W : QuietWalk C P) (h : At P s) : At P (serveWaiting s) :=
  foldl_at (fun _ h => takeSlot_quiet W h) _ h

theorem vacate_quiet (W : QuietWalk C P) {tag x} (h : At P s) : At P (vacate tag x s) := by
  unfold vacate; split
  · exact W.junction rfl rfl (onSlot_quiet W h)
  · exact h

theorem judgeJunctionCauses_quiet (W : QuietWalk C P) (h : At P s) : At P (judgeJunctionCauses s) := by
  have hb := W.free .breach (by decide) (by decide)
  have hj := W.free .junction (by decide) (by decide)
  refine removeCauses_quiet W ?_ (addCauses_quiet W ?_ h) <;> intro c hc <;>
    rcases List.mem_append.1 hc with hc | hc <;> split at hc <;> simp at hc <;> subst hc <;> assumption

theorem judgeWarning_quiet (W : QuietWalk C P) {b} (h : At P s) : At P (judgeWarning b s) :=
  ite_at (fun _ => silencePattern_quiet W h) fun _ => h

theorem enterJunction_quiet (W : QuietWalk C P) {tag st} (h : At P s) : At P (enterJunction tag st s) :=
  judgeWarning_quiet W (judgeJunctionCauses_quiet W (changeEntry_quiet W h))

theorem crossJunction_quiet (W : QuietWalk C P) {tag m j} (h : At P s) : At P (crossJunction tag m j s) := by
  unfold crossJunction; split
  · exact ite_at (fun _ => formCeiling_quiet W (judgeRoute_quiet W (takeSlot_quiet W (enterJunction_quiet W h)))) fun _ => h
  · exact ite_at (fun _ => W.raise (by decide) (askFor_quiet W (enterJunction_quiet W h))) fun _ => h
  · exact ite_at (fun _ => formCeiling_quiet W (W.raise (by decide)
      (enterJunction_quiet W (stopAskingFor_quiet W h)))) fun _ => h
  · exact ite_at (fun _ => judgeRoute_quiet W (serveWaiting_quiet W (vacate_quiet W (enterJunction_quiet W h)))) fun _ => h
  · exact h

theorem offerSignal_quiet (W : QuietWalk C P) {item} (h : At P s) : At P (offerSignal item s) := by
  unfold offerSignal; dsimp only
  refine ite_at (fun _ => h) fun _ => ite_at (fun _ => tryGrant_quiet W (W.junction rfl rfl h)) fun _ =>
    ite_at (fun _ => tryGrant_quiet W (W.junction rfl rfl h)) fun _ => ite_at (fun _ => ?_) fun _ => h
  exact W.raise (by decide) h

theorem crossSignal_quiet (W : QuietWalk C P) {tag m g} (h : At P s) : At P (crossSignal tag m g s) := by
  unfold crossSignal; split
  · exact ite_at (fun _ => judgeRoute_quiet W (offerSignal_quiet W (changeEntry_quiet W h))) fun _ => h
  · refine ite_at (fun _ => judgeRoute_quiet W (offerSignal_quiet W (ite_at (fun _ => ?_) fun _ => changeEntry_quiet W h)))
      fun _ => h
    exact W.raise (by decide) (changeEntry_quiet W h)
  · exact h

/-! ### Stops and the sweep -/

theorem crossStop_quiet (W : QuietWalk C P) {tag m p} (h : At P s) : At P (crossStop tag m p s) := by
  unfold crossStop; split
  · exact ite_at (fun _ => ite_at (fun _ => changeEntry_quiet W h) fun _ => askFor_quiet W (changeEntry_quiet W h)) fun _ => h
  · exact ite_at (fun _ => ite_at (fun _ => W.raise (by decide) (changeEntry_quiet W h)) fun _ =>
      changeEntry_quiet W h) fun _ => h
  · exact h

theorem crossMark_quiet (W : QuietWalk C P) {e} (h : At P s) : At P (crossMark e s) := by
  have counted : At P (bumpCrossed e.tag s) := changeEntry_quiet W h
  unfold crossMark; dsimp only; split
  · exact crossJunction_quiet W counted
  · exact crossSignal_quiet W counted
  · exact crossStop_quiet W counted
  · exact changeEntry_quiet W counted

theorem sweepMarks_quiet (W : QuietWalk C P) (n : Nat) (h : At P s) : At P (sweepMarks n s) := by
  induction n generalizing s with
  | zero => exact h
  | succ n ih =>
    unfold sweepMarks; split
    · exact ih (crossMark_quiet W h)
    · exact h

theorem serveEntry_quiet (W : QuietWalk C P) {e} (h : At P s) : At P (serveEntry s e) := by
  unfold serveEntry; split
  · exact ite_at (fun _ => W.raise (by decide) (changeEntry_quiet W h)) fun _ => h
  · exact h

theorem serveStops_quiet (W : QuietWalk C P) (h : At P s) : At P (serveStops s) :=
  ite_at (fun _ => settleAfter_quiet W (foldl_at (fun _ h => serveEntry_quiet W h) _ h)) fun _ => h

/-! ### Vigilance and the role -/

theorem judgeVigilance_quiet (W : QuietWalk C P) (h : At P s) : At P (judgeVigilance s) := by
  have tripped : ∀ c ∈ [Cause.vigilance], C c := by simpa using W.free .vigilance (by decide) (by decide)
  unfold judgeVigilance
  refine ite_at (fun _ => ite_at (fun _ => ite_at (fun _ => W.vigil h) fun _ => W.vigil h) fun _ => h) fun _ => ?_
  split
  · exact h
  · exact W.vigil h
  · exact W.vigil h
  · exact silencePattern_quiet W (W.vigil h)
  · exact silencePattern_quiet W (W.vigil h)
  · exact ite_at (fun _ => h) fun _ => silencePattern_quiet W (removeCauses_quiet W tripped (W.vigil h))

theorem leaveLead_quiet (W : QuietWalk C P) (h : At P s) : At P (leaveLead s) :=
  releaseControls_quiet W (W.traction (W.lines rfl rfl rfl h))

theorem leaveTrail_quiet (W : QuietWalk C P) (h : At P s) : At P (leaveTrail s) := by
  have lost : ∀ c ∈ [Cause.demandLost], C c := by simpa using W.free .demandLost (by decide) (by decide)
  exact tryGrant_quiet W (removeCauses_quiet W lost (W.traction h))

theorem enterTrail_quiet (W : QuietWalk C P) (h : At P s) : At P (enterTrail s) := by
  unfold enterTrail; split
  · exact h
  · exact W.junction rfl rfl h
  · exact W.junction rfl rfl h

theorem changeRole_quiet (W : QuietWalk C P) (R : KeepsRole P) {r c} (h : At P s) : At P (changeRole r c s) := by
  have taken : ∀ {u : State}, At P u → At P ((u.setLines { u.lines with role := r, coupled := c }).setHalt
      { u.halt with ackRun := none }) := fun hu => W.latch rfl (R hu)
  unfold changeRole; dsimp only
  refine judgeVigilance_quiet W (refreshSetLength_quiet W (enterInhibited_quiet W ?_))
  have left := taken (ite_at (c := s.lines.role = .lead ∧ r ≠ .lead) (fun _ => leaveLead_quiet W h) fun _ => h)
  exact ite_at (fun _ => enterTrail_quiet W (ite_at (fun _ => leaveTrail_quiet W left) fun _ => left)) fun _ =>
    ite_at (fun _ => leaveTrail_quiet W left) fun _ => left

theorem sampleRole_quiet (W : QuietWalk C P) (R : KeepsRole P) (h : At P s) : At P (sampleRole s) :=
  ite_at (fun _ => h) fun _ => changeRole_quiet W R h

/-! ### The parts of a sample -/

theorem judgeStandstillGroups_trip (W : TripWalk C P) (h : At P s) : At P (judgeStandstillGroups s) := by
  have judged : At P (judgeLock .g6 (!s.axle.standstill) (judgeLock .g1 (!s.axle.standstill)
      (judgeLock .g0 (!s.axle.standstill) s))) := W.anyLock (W.anyLock (W.anyLock h))
  exact ite_at (fun _ => judged) fun _ => judgeDrive_quiet W.toQuietWalk judged

theorem setStandstill_trip (W : TripWalk C P) (R : KeepsRole P) (rollback : C .rollback) (h : At P s) :
    At P (setStandstill s) := by
  have ended : ∀ c ∈ [Cause.rollback], C c := by simpa using rollback
  have W' := W.toQuietWalk
  exact sampleRole_quiet W' R (judgeStandstillGroups_trip W (serveStops_quiet W' (judgeVigilance_quiet W'
    (removeCauses_quiet W' ended (W.latch rfl (W.axle (W.sand h)))))))

theorem clearStandstill_trip (W : TripWalk C P) (h : At P s) : At P (clearStandstill s) :=
  judgeStandstillGroups_trip W (judgeVigilance_quiet W.toQuietWalk (W.latch rfl (W.latch rfl (W.axle h))))

theorem judgeStandstill_trip (W : TripWalk C P) (R : KeepsRole P) (rollback : C .rollback) (h : At P s) :
    At P (judgeStandstill s) :=
  ite_at (fun _ => h) fun _ => ite_at
    (fun _ => ite_at (fun _ => setStandstill_trip W R rollback (W.axle h)) fun _ => W.axle h)
    fun _ => ite_at (fun _ => clearStandstill_trip W (W.axle h)) fun _ => W.axle h

theorem judgeAgreement_trip (W : TripWalk C P) {r} (h : At P s) : At P (judgeAgreement r s) :=
  ite_at (fun _ => ite_at (fun _ => W.axle h) fun _ => W.axle h) fun _ => W.axle h

theorem routeSample_trip (W : TripWalk C P) (h : At P s) : At P (routeSample s) :=
  endRoute_quiet W.toQuietWalk (ite_at (fun _ => ite_at (fun _ => sweepMarks_quiet W.toQuietWalk _ (W.move h)) fun _ => W.move h)
    fun _ => h)

/-- All that a sample does once the reference is selected, but for the times it notes. -/
def afterReference (s : State) : State :=
  let judged := judgeStandstill (judgeAgreement .ax3 (judgeAgreement .ax2 s))
  routeSample (if judged.axle.standstill then sampleRole judged else judged)

theorem afterReference_trip (W : TripWalk C P) (R : KeepsRole P) (rollback : C .rollback) (h : At P s) :
    At P (afterReference s) := by
  have judged := judgeStandstill_trip W R rollback (judgeAgreement_trip W (r := .ax3) (judgeAgreement_trip W (r := .ax2) h))
  exact routeSample_trip W (ite_at (fun _ => sampleRole_quiet W.toQuietWalk R judged) fun _ => judged)

/-- A sample is its reference, what follows it, and the times it notes. -/
theorem speedSample_afterReference (s : State) : speedSample s =
    (afterReference (selectReference (judgeDisagreement (sampleChannels s)))).setAxle
      { (afterReference (selectReference (judgeDisagreement (sampleChannels s)))).axle with
        lastSample := s.now, sampleDue := s.now + Config.period } := rfl

end Sys2Proof.Machine
end

section
/-! The quiet walks of single fields: what a speed sample leaves of the blocks it does not own, and of the records it has raised. -/

namespace Sys2Proof.Machine

/-! ### Fields no part of a sample writes -/

/-- A property of neither settings nor events outlives a judged lock. -/
theorem judgeLock_other {P : State → Prop} (hs : ∀ {s st}, P s → P (s.setSettings st)) (hh : ∀ {s h}, P s → P (s.setHost h))
    {s : State} {g : Group} {b : Bool} (h : At P s) : At P (judgeLock g b s) := by
  rw [judgeLock_eq]; exact hh (hs h)

/-- Of the event set a judged lock changes at most the record of SETTINGS APPLIED (R168). -/
theorem judgeLock_events {P : State → Prop} (hs : ∀ {s st}, P s → P (s.setSettings st)) (hr : ∀ {s j v}, P s → P (raise 6 j v s))
    {s : State} {g : Group} {b : Bool} (h : At P s) : At P (judgeLock g b s) := by
  unfold judgeLock applyPending
  exact ite_at (fun _ => ite_at (fun _ => hs (hs h)) fun _ => hr (hs (hs h))) fun _ => hs h

/-- What no part of a sample writes: the pins, the clock, the adhesion section but for SAND, the stop-request unit, the freeze
flags, the host link but for its event set, and of the train lines, the route engine, the junction unit and the sound unit the
fields named. -/
structure TripKept (t u : State) : Prop where
  pins : u.pins = t.pins
  now : u.now = t.now
  adhesion : u.adhesion = { t.adhesion with sand := u.adhesion.sand }
  stop : u.stop = t.stop
  frozen : u.settings.frozen = t.settings.frozen
  host : u.host = { t.host with events := u.host.events, incomplete := u.host.incomplete }
  demandU : u.lines.demandU = t.lines.demandU
  active : u.route.active = t.route.active
  masks : u.junction.masks = t.junction.masks
  loop : u.junction.loop = t.junction.loop
  loaded : u.sound.loaded = t.sound.loaded

theorem TripKept.refl (t : State) : TripKept t t := ⟨rfl, rfl, rfl, rfl, rfl, rfl, rfl, rfl, rfl, rfl, rfl⟩

/-- Events of any kind are part of the event set alone. -/
theorem TripKept.raise {t u : State} {k j : Nat} {v : Int} (h : TripKept t u) : TripKept t (raise k j v u) :=
  { h with host := by unfold Machine.raise; rw [h.host]; rfl }

theorem TripKept.lock {t u : State} {g : Group} {b : Bool} (h : TripKept t u) : TripKept t (judgeLock g b u) where
  pins := (judgeLock_pins g b u).trans h.pins
  now := (judgeLock_now g b u).trans h.now
  adhesion := by rw [judgeLock_adhesion]; exact h.adhesion
  stop := (judgeLock_stop g b u).trans h.stop
  frozen := (judgeLock_frozen g b u).trans h.frozen
  host := judgeLock_events (P := fun u => u.host = { t.host with events := u.host.events, incomplete := u.host.incomplete })
    id (fun {s j v} e => by unfold Machine.raise; rw [e]; rfl) h.host
  demandU := by rw [judgeLock_lines]; exact h.demandU
  active := by rw [judgeLock_route]; exact h.active
  masks := by rw [judgeLock_junction]; exact h.masks
  loop := by rw [judgeLock_junction]; exact h.loop
  loaded := by rw [judgeLock_sound]; exact h.loaded

theorem tripKept_walk (t : State) : TripWalk (fun _ => True) (TripKept t) where
  free := fun _ _ _ => trivial
  raise := fun _ h => h.raise
  lock := fun _ h => h.lock
  effortHeld := fun h => { h with }
  sound := fun e h => { h with loaded := e.trans h.loaded }
  traction := fun h => { h with }
  latch := fun _ h => { h with }
  cause := fun _ h => { h with }
  lines := fun _ _ e h => { h with demandU := e.trans h.demandU }
  route := fun e _ _ h => { h with active := e.trans h.active }
  sand := fun {s} h => by
    have sand : (releaseSand s).adhesion = { s.adhesion with sand := (releaseSand s).adhesion.sand } := by
      unfold releaseSand; split <;> rfl
    rw [releaseSand_eq]
    refine { h with adhesion := ?_ }
    rw [State.setAdhesion_adhesion, sand, h.adhesion]
  junction := fun m l h => { h with masks := m.trans h.masks, loop := l.trans h.loop }
  vigil := fun h => { h with }
  axle := fun h => { h with }
  anyLock := fun h => h.lock
  move := fun h => { h with }

theorem tripKept_role (t : State) : KeepsRole (TripKept t) := fun h => { h with }

/-- What keeps the route distance where it is: all but the advance of a sample. -/
theorem quietPlace (d x : Nat) : QuietWalk (fun _ => True) fun u => u.route.distance = d ∧ u.route.residue = x where
  free := fun _ _ _ => trivial
  raise := fun _ h => h
  lock := fun _ h => judgeLock_other (fun h => h) (fun h => h) h
  effortHeld := fun h => h
  sound := fun _ h => h
  traction := fun h => h
  latch := fun _ h => h
  cause := fun _ h => h
  lines := fun _ _ _ h => h
  route := fun _ d x h => ⟨d.trans h.1, x.trans h.2⟩
  sand := fun h => by rw [releaseSand_eq]; exact h
  junction := fun _ _ h => h
  vigil := fun h => h

/-- The role and the coupled flag change with a change of role alone (R72). -/
theorem role_walk (r : Role) (c : Bool) : TripWalk (fun _ => True) fun u => u.lines.role = r ∧ u.lines.coupled = c where
  free := fun _ _ _ => trivial
  raise := fun _ h => h
  lock := fun _ h => judgeLock_other (fun h => h) (fun h => h) h
  effortHeld := fun h => h
  sound := fun _ h => h
  traction := fun h => h
  latch := fun _ h => h
  cause := fun _ h => h
  lines := fun e e' _ h => ⟨e.trans h.1, e'.trans h.2⟩
  route := fun _ _ _ h => h
  sand := fun h => by rw [releaseSand_eq]; exact h
  junction := fun _ _ h => h
  vigil := fun h => h
  axle := fun h => h
  anyLock := fun h => judgeLock_other (fun h => h) (fun h => h) h
  move := fun h => h

theorem Causes.has_put (c : Causes) (x y : Cause) (b : Bool) : (c.put x b).has y = if y = x then b else c.has y := by
  cases x <;> cases y <;> rfl

/-- A cause changes where it is judged alone. -/
theorem cause_walk (x : Cause) (only : x = .rollback ∨ x = .referenceLost) (b : Bool) :
    TripWalk (· ≠ x) fun u => u.halt.causes.has x = b where
  free := fun c hr hl e => by rcases only with rfl | rfl <;> contradiction
  raise := fun _ h => h
  lock := fun _ h => judgeLock_other (fun h => h) (fun h => h) h
  effortHeld := fun h => h
  sound := fun _ h => h
  traction := fun h => h
  latch := fun e h => (congrArg (Causes.has · x) e).trans h
  cause := fun {s c v} hc h =>
    ((Causes.has_put s.halt.causes c x v).trans (if_neg (Ne.symm hc))).trans h
  lines := fun _ _ _ h => h
  route := fun _ _ _ h => h
  sand := fun h => by rw [releaseSand_eq]; exact h
  junction := fun _ _ h => h
  vigil := fun h => h
  axle := fun h => h
  anyLock := fun h => judgeLock_other (fun h => h) (fun h => h) h
  move := fun h => h

/-! ### Settings -/

/-- A judged lock leaves the values of the other groups (R168). -/
theorem judgeLock_value {g : Group} {n : Nat} (b : Bool) (s : State) (other : settingGroup n ≠ g.code) :
    (judgeLock g b s).cfg n = s.cfg n := by
  have kept : ∀ (mine acc : List (Nat × Int)), (∀ p ∈ mine, p.1 ≠ n) →
      listed n (mine.foldl (fun l p => listSet p.1 p.2 l) acc) = listed n acc := fun mine => by
    induction mine with
    | nil => intro acc _; rfl
    | cons p l ih =>
      intro acc h
      rw [List.foldl_cons, ih _ fun q hq => h q (List.mem_cons_of_mem _ hq), listed_listSet,
        if_neg (h p List.mem_cons_self).symm]
  unfold State.cfg SettingsStore.value
  rw [(judgeLock_values g b s).2]
  split
  · rw [kept _ _ fun p hp e => other (by subst e; simpa using (List.mem_filter.1 hp).2)]
  · rfl

/-- The axle unit's settings, of G1, stay until standstill changes (R165, R168). -/
theorem axleSetting_walk {n : Nat} (hn : settingGroup n = 1) (v : Int) : QuietWalk (fun _ => True) fun u => u.cfg n = v where
  free := fun _ _ _ => trivial
  raise := fun _ h => h
  lock := fun {s g b} hg h => by
    refine (judgeLock_value b s ?_).trans h
    rw [hn]; rcases hg with rfl | rfl | rfl <;> decide
  effortHeld := fun h => h
  sound := fun _ h => h
  traction := fun h => h
  latch := fun _ h => h
  cause := fun _ h => h
  lines := fun _ _ _ h => h
  route := fun _ _ _ h => h
  sand := fun h => by rw [releaseSand_eq]; exact h
  junction := fun _ _ h => h
  vigil := fun h => h

/-! ### Records of the event set -/

/-- Before entering `r`, `x` was in the set already, unless it has the kind and subject of `r`. -/
theorem mem_enterEvent {r x : EventRecord} {l : List EventRecord} {i : Bool} (h : x ∈ (enterEvent r l i).1) :
    x.kind = r.kind ∧ x.subject = r.subject ∨ x ∈ l := by
  unfold enterEvent at h
  split at h
  · obtain ⟨y, hy, rfl⟩ := List.mem_map.1 h
    split
    next e => exact .inl e
    · exact .inr hy
  · split at h
    · rcases mem_insertEvent h with rfl | h
      · exact .inl ⟨rfl, rfl⟩
      · exact .inr h
    · split at h
      · split at h
        · rcases mem_insertEvent h with rfl | h
          · exact .inl ⟨rfl, rfl⟩
          · exact .inr (List.mem_of_mem_dropLast h)
        · exact .inr h
      · exact .inr h

/-- An insertion holds its own record and those there were. -/
theorem mem_insertEvent_iff {r x : EventRecord} {l : List EventRecord} : x ∈ insertEvent r l ↔ x = r ∨ x ∈ l := by
  refine ⟨mem_insertEvent, fun h => ?_⟩
  induction l with
  | nil => simpa [insertEvent] using h
  | cons y l ih =>
    unfold insertEvent; split
    · simpa using h
    · simp only [List.mem_cons] at h ⊢
      tauto

/-- The set of `u` has overflowed, or holds a record of this kind, subject and value. -/
def Recorded (k j : Nat) (v : Int) (u : State) : Prop :=
  u.host.incomplete = true ∨ ∃ x ∈ u.host.events, x.kind = k ∧ x.subject = j ∧ x.value = v

/-- The set of `u` holds no record of this kind and subject. -/
def Unrecorded (k j : Nat) (u : State) : Prop := ∀ x ∈ u.host.events, ¬(x.kind = k ∧ x.subject = j)

theorem Recorded.told {k j : Nat} {v : Int} {s t : State} (h : Recorded k j v t) : Told s t k j v := fun _ whole => by
  rcases h with h | h
  · rw [whole] at h; cases h
  · exact h

/-- A record raised is in the set, unless the set has overflowed (R177). -/
theorem raise_recorded (k j : Nat) (v : Int) (s : State) : Recorded k j v (raise k j v s) := by
  unfold Recorded raise enterEvent
  dsimp only [State.setHost_host]
  split
  next h =>
    obtain ⟨x, hx, hk⟩ := List.any_eq_true.1 h
    simp only [Bool.and_eq_true, decide_eq_true_eq] at hk
    exact .inr ⟨{ x with repeated := true, value := v }, List.mem_map.2 ⟨x, hx, by rw [if_pos hk]⟩, hk.1, hk.2, rfl⟩
  · split
    · exact .inr ⟨_, mem_insertEvent_iff.2 (.inl rfl), rfl, rfl, rfl⟩
    · split
      · split <;> exact .inl rfl
      · exact .inl rfl

/-- A record stays where an event of another kind is raised, unless the set has overflowed (R177). -/
theorem Recorded.raise {k j k' j' : Nat} {v v' : Int} {s : State} (hk : k' ≠ k) (h : Recorded k j v s) :
    Recorded k j v (raise k' j' v' s) := by
  unfold Recorded Machine.raise enterEvent
  dsimp only [State.setHost_host]
  have stays : ∀ x ∈ s.host.events, x.kind = k → ¬(x.kind = k' ∧ x.subject = j') := fun x _ e h => hk (h.1.symm.trans e)
  split
  · refine h.imp id ?_
    rintro ⟨x, hx, e⟩
    exact ⟨x, List.mem_map.2 ⟨x, hx, by rw [if_neg (stays x hx e.1)]⟩, e⟩
  · split
    · refine h.imp id ?_
      rintro ⟨x, hx, e⟩
      exact ⟨x, mem_insertEvent_iff.2 (.inr hx), e⟩
    · split
      · split <;> exact .inl rfl
      · exact .inl rfl

theorem Unrecorded.raise {k j k' j' : Nat} {v' : Int} {s : State} (hk : k' ≠ k) (h : Unrecorded k j s) :
    Unrecorded k j (raise k' j' v' s) := fun x hx e => by
  rcases mem_enterEvent hx with ⟨h', _⟩ | h'
  · exact hk (h'.symm.trans e.1)
  · exact h x h' e

/-- A property of the event set that outlives events of all kinds but 10, 11 and 29 outlives what follows the reference. -/
theorem events_walk {P : State → Prop} (hr : ∀ {s k j v}, k ∉ [10, 11, 29] → P s → P (raise k j v s))
    (only : ∀ s u, u.host = s.host → P s → P u) : TripWalk (fun _ => True) P where
  free := fun _ _ _ => trivial
  raise := hr
  lock := fun _ h => judgeLock_events (P := P) (only _ _ rfl) (hr (by decide)) h
  effortHeld := fun {s b} h => only s _ rfl h
  sound := fun {s u} _ h => only s _ rfl h
  traction := fun {s x} h => only s _ rfl h
  latch := fun {s x} _ h => only s _ rfl h
  cause := fun {s c b} _ h => only s _ rfl h
  lines := fun {s l} _ _ _ h => only s _ rfl h
  route := fun {s r} _ _ _ h => only s _ rfl h
  sand := fun {s} h => by rw [releaseSand_eq]; exact only s _ rfl h
  junction := fun {s u} _ _ h => only s _ rfl h
  vigil := fun {s v} h => only s _ rfl h
  axle := fun {s x} h => only s _ rfl h
  anyLock := fun h => judgeLock_events (P := P) (only _ _ rfl) (hr (by decide)) h
  move := fun {s d x} h => only s _ rfl h

theorem recorded_walk {k : Nat} (hk : k ∈ [10, 11, 29]) (j : Nat) (v : Int) : TripWalk (fun _ => True) (Recorded k j v) :=
  events_walk (fun hn h => h.raise fun e => hn (e ▸ hk)) fun s u e h => by unfold Recorded at *; rwa [e]

theorem unrecorded_walk {k : Nat} (hk : k ∈ [10, 11, 29]) (j : Nat) : TripWalk (fun _ => True) (Unrecorded k j) :=
  events_walk (fun hn h => h.raise fun e => hn (e ▸ hk)) fun s u e h => by unfold Unrecorded at *; rwa [e]

theorem recorded_role (k j : Nat) (v : Int) : KeepsRole (Recorded k j v) := fun h => h
theorem unrecorded_role (k j : Nat) : KeepsRole (Unrecorded k j) := fun h => h

end Sys2Proof.Machine
end

section
/-! A speed sample, stage by stage: the channels' figures, the reference and its report, the runs, standstill and the role. -/

namespace Sys2Proof.Machine

variable {C : Cause → Prop} {P : State → Prop}

/-! ### The channels -/

/-- A channel's part of a sample that starts in `s` (R5, R17). -/
def sampled (s : State) (i : AxleId) : AxleChannel :=
  sampleChannel s.axle.sense (s.cfg (Setting.travel i)) ((s.axle.channel i).takeMode (modeOf s.settings i))

theorem sampleChannels_channel (s : State) (i : AxleId) : (sampleChannels s).axle.channel i = sampled s i := by
  cases i <;> rfl

@[simp] theorem takeMode_state (m : DecodeMode) (c : AxleChannel) : (c.takeMode m).state = c.state := by
  unfold AxleChannel.takeMode; split <;> rfl
@[simp] theorem takeMode_count (m : DecodeMode) (c : AxleChannel) : (c.takeMode m).count = c.count := by
  unfold AxleChannel.takeMode; split <;> rfl
@[simp] theorem takeMode_prevCount (m : DecodeMode) (c : AxleChannel) : (c.takeMode m).prevCount = c.prevCount := by
  unfold AxleChannel.takeMode; split <;> rfl
@[simp] theorem takeMode_phaseA (m : DecodeMode) (c : AxleChannel) : (c.takeMode m).phaseA = c.phaseA := by
  unfold AxleChannel.takeMode; split <;> rfl
@[simp] theorem takeMode_phaseB (m : DecodeMode) (c : AxleChannel) : (c.takeMode m).phaseB = c.phaseB := by
  unfold AxleChannel.takeMode; split <;> rfl
@[simp] theorem takeMode_tally (m : DecodeMode) (c : AxleChannel) : (c.takeMode m).tally = c.tally := by
  unfold AxleChannel.takeMode; split <;> rfl
@[simp] theorem takeMode_agreement (m : DecodeMode) (c : AxleChannel) : (c.takeMode m).agreement = c.agreement := by
  unfold AxleChannel.takeMode; split <;> rfl
@[simp] theorem takeMode_mode (m : DecodeMode) (c : AxleChannel) : (c.takeMode m).mode = m := by
  unfold AxleChannel.takeMode; split <;> simp_all
theorem takeMode_ring (m : DecodeMode) (c : AxleChannel) : (c.takeMode m).ring = if m = c.mode then c.ring else emptyRing := by
  unfold AxleChannel.takeMode; split <;> rfl
theorem takeMode_window (m : DecodeMode) (c : AxleChannel) : (c.takeMode m).window = if m = c.mode then c.window else none := by
  unfold AxleChannel.takeMode; split <;> rfl

/-- The reference is chosen, published and reported in this state: the channels sampled, their disagreement judged. -/
def formed (s : State) : State := judgeDisagreement (sampleChannels s)

/-- The reference of a sample selected. -/
def referenced (s : State) : State := selectReference (formed s)

/-- A sample that starts in `s`, but for the times it notes. -/
def tripped (s : State) : State := afterReference (referenced s)

theorem speedSample_tripped (s : State) : speedSample s =
    (tripped s).setAxle { (tripped s).axle with lastSample := s.now, sampleDue := s.now + Config.period } := by
  unfold tripped referenced formed
  exact speedSample_afterReference s

/-- A channel once the disagreement is judged: as sampled, or SUSPECT (R8). -/
theorem formed_channel (s : State) (i : AxleId) :
    (formed s).axle.channel i = sampled s i ∨ (formed s).axle.channel i = (sampled s i).judged .suspect := by
  obtain ⟨-, -, -, -, -, -, -, channels⟩ := judgeDisagreement_kept (sampleChannels s)
  have := channels i
  rwa [sampleChannels_channel] at this

theorem referenced_channel (s : State) (i : AxleId) : (referenced s).axle.channel i = (formed s).axle.channel i := by
  unfold referenced; rw [selectReference_axle]; cases i <;> rfl

/-- What a channel forms at a sample stays through it; only its state is judged on, with the state shown (R5, R15). -/
structure SampledAs (c d : AxleChannel) : Prop where
  mode : d.mode = c.mode
  phaseA : d.phaseA = c.phaseA
  phaseB : d.phaseB = c.phaseB
  count : d.count = c.count
  prevCount : d.prevCount = c.prevCount
  ring : d.ring = c.ring
  tally : d.tally = c.tally
  window : d.window = c.window
  was : d.sampled = c.sampled
  speed : d.speed = c.speed
  shown : d.shown = { c.shown with state := d.state }

/-- After the reference is selected a channel keeps what it formed. -/
theorem speedSample_sampledAs {s : State} {i : AxleId} (h : ((referenced s).axle.channel i).shown.state =
    ((referenced s).axle.channel i).state) : SampledAs ((referenced s).axle.channel i) ((speedSample s).axle.channel i) := by
  have kept : AxleKept (referenced s).axle (speedSample s).axle := speedSample_kept s
  obtain ⟨count, prevCount, speed, tally, phaseA, phaseB, was, mode, ring, window⟩ := kept.channels i
  exact ⟨mode, phaseA, phaseB, count, prevCount, ring, tally, window, was, speed, kept.shown i h⟩

theorem speedSample_channel (s : State) (i : AxleId) : SampledAs (sampled s i) ((speedSample s).axle.channel i) := by
  have same := referenced_channel s i
  rcases formed_channel s i with e | e
  · have kept := speedSample_sampledAs (s := s) (i := i) (by rw [same, e]; rfl)
    rwa [same, e] at kept
  · have kept := speedSample_sampledAs (s := s) (i := i) (by rw [same, e]; rfl)
    rw [same, e] at kept
    exact { kept with }

theorem formed_sense (s : State) : (formed s).axle.sense = s.axle.sense := (judgeDisagreement_kept (sampleChannels s)).1

theorem speedSample_sense (s : State) : (speedSample s).axle.sense = s.axle.sense := by
  have kept : AxleKept (referenced s).axle (speedSample s).axle := speedSample_kept s
  have selected : (referenced s).axle.sense = (formed s).axle.sense := by
    unfold referenced; rw [selectReference_axle]
  exact (kept.sense.trans selected).trans (formed_sense s)

/-! ### The report of the reference -/

/-- What the report of the source brings, event by event and cause by cause (R10, R11). -/
theorem reportSource_quiet (W : QuietWalk C P) (lost : C .referenceLost) {before after : RefSource} {v : Int} {s : State}
    (h11 : ∀ {u}, after.isDegraded = true → before.isDegraded = false → At P u → At P (raise 11 after.motor v u))
    (h29 : ∀ {u}, after = .lost → before ≠ .lost → At P u → At P (raise 29 0 v u)) (h : At P s) :
    At P (reportSource before after v s) := by
  have cause : ∀ c ∈ [Cause.referenceLost], C c := by simpa using lost
  have degraded : At P (if after.isDegraded && !before.isDegraded then raise 11 after.motor v s else s) :=
    ite_at (fun e => by simp only [Bool.and_eq_true, Bool.not_eq_true'] at e; exact h11 e.1 e.2 h) fun _ => h
  exact ite_at (fun e => addCauses_quiet W cause (h29 e.1 e.2 degraded)) fun _ =>
    ite_at (fun _ => removeCauses_quiet W cause degraded) fun _ => degraded

/-- A sample keeps the fields no part of it writes. -/
theorem speedSample_tripKept (s : State) : TripKept s (speedSample s) := by
  have W := tripKept_walk s
  have start : TripKept s (formed s) := by
    unfold formed judgeDisagreement suspectSlower onChannel
    have sampled : TripKept s (sampleChannels s) := W.axle (.refl s)
    exact ite_at (fun _ => ite_at (fun _ => (W.axle (W.axle sampled) : TripKept s _).raise) fun _ => W.axle sampled) fun _ =>
      W.axle sampled
  have reference : TripKept s (referenced s) :=
    reportSource_quiet W.toQuietWalk trivial (fun _ _ h => TripKept.raise h) (fun _ _ h => TripKept.raise h) (W.axle start)
  exact W.axle (afterReference_trip W (tripKept_role s) trivial reference)

/-! ### O21 -/

/-- Settles O21: the figures are those the channel formed, which the rest of the sample keeps. -/
theorem sampleFormsSpeeds : Obligations.SampleFormsSpeeds := by
  intro s
  refine ⟨speedSample (s.reach s.axle.sampleDue), rfl, fun i => ?_, ?_⟩
  · intro c d code mode old ring
    have kept := speedSample_channel (s.reach s.axle.sampleDue) i
    have hring : d.ring = ring := by
      rw [kept.ring]
      show ((s.axle.channel i).takeMode mode).ring.tail ++ [_] = ring
      rw [takeMode_ring, takeMode_count, takeMode_prevCount, ← List.drop_one]; rfl
    have hwindow : d.window = if mode = c.mode then c.window else none := kept.window.trans (takeMode_window mode c)
    have hspeed : d.speed = (sampled (s.reach s.axle.sampleDue) i).speed := kept.speed
    have hshown : d.shown = _ := kept.shown
    refine ⟨?_, ?_, ?_, ?_, ?_, ?_, ?_, hring, ?_, hwindow, ?_⟩
    · rw [hspeed]
      show ringSpeed s.axle.sense _ (sampled (s.reach s.axle.sampleDue) i).ring = _
      rw [← kept.ring, show ((speedSample (s.reach s.axle.sampleDue)).axle.channel i).ring = ring from hring]
      unfold ringSpeed; rw [ringSum_eq, apply_signed]; rfl
    · exact kept.prevCount.trans (takeMode_count _ _)
    · exact kept.count.trans (takeMode_count _ _)
    · exact kept.phaseA.trans (takeMode_phaseA _ _)
    · exact kept.phaseB.trans (takeMode_phaseB _ _)
    · exact kept.tally.trans (takeMode_tally _ _)
    · exact kept.was.trans (takeMode_state _ _)
    · exact kept.mode.trans (takeMode_mode _ _)
    · have figures : (sampled (s.reach s.axle.sampleDue) i).shown = ⟨c.state, s.cfg (Setting.travel i), ring, c.tally,
          (d.window.map (·.count)).getD 0⟩ := by
        rw [← hring, kept.ring, kept.window]
        show ChannelFigures.mk (c.takeMode mode).state _ _ (c.takeMode mode).tally _ = _
        rw [takeMode_state, takeMode_tally]; rfl
      rw [hshown, figures]
      cases d.window <;> rfl
  · have kept := speedSample_tripKept (s.reach s.axle.sampleDue)
    exact ⟨speedSample_sense _, kept.adhesion, kept.demandU, kept.active, kept.masks, kept.loop, kept.stop, kept.loaded, kept.frozen,
      kept.pins, kept.now, kept.host⟩

end Sys2Proof.Machine
end

section
/-! What a speed sample judges: the disagreement, the reference and its report, the agreement runs, standstill and the role. -/

namespace Sys2Proof.Machine

variable {C : Cause → Prop} {P : State → Prop}

theorem AxleUnit.channel_ax2 (u : AxleUnit) : u.channel .ax2 = u.ax2 := rfl
theorem AxleUnit.channel_ax3 (u : AxleUnit) : u.channel .ax3 = u.ax3 := rfl

/-! ### Blocks that the report of the reference leaves -/

@[simp] theorem reportSource_pins (b a : RefSource) (v : Int) (s : State) : (reportSource b a v s).pins = s.pins := by
  unfold reportSource; dsimp only; repeat' split
  all_goals simp
@[simp] theorem reportSource_route (b a : RefSource) (v : Int) (s : State) : (reportSource b a v s).route = s.route := by
  unfold reportSource; dsimp only; repeat' split
  all_goals simp

/-! ### Disagreement -/

/-- The reference axles disagree: both are OK, and their speeds lie further apart than the tolerance (R8). -/
def disagrees (s : State) : Prop := s.axle.ax2.state = .ok ∧ s.axle.ax3.state = .ok ∧ s.cfg Setting.agreeTolerance < refDifference s

theorem refsAgree_iff (s : State) : refsAgree s = true ↔ refDifference s ≤ s.cfg Setting.agreeTolerance := by simp [refsAgree]

/-- Without disagreement no run is kept (R8). -/
theorem judgeDisagreement_none {s : State} (h : ¬disagrees s) :
    judgeDisagreement s = s.setAxle { s.axle with disagreement := none, shownRun := 0 } := by
  unfold judgeDisagreement
  rw [if_neg]
  simp only [bothRefsOk, Bool.and_eq_true, beq_iff_eq, Bool.not_eq_true', refsAgree, decide_eq_false_iff_not, not_le]
  exact fun e => h ⟨e.1.1, e.1.2, e.2⟩

/-- A disagreement that has not outlasted its time runs on (R8). -/
theorem judgeDisagreement_runs {s : State} (h : disagrees s)
    (hn : ¬s.axle.disagreement.getD s.now + s.cfgN Setting.disagreementTime < s.now) :
    judgeDisagreement s = s.setAxle { s.axle with
      disagreement := some (s.axle.disagreement.getD s.now), shownRun := s.now - s.axle.disagreement.getD s.now } := by
  unfold judgeDisagreement
  rw [if_pos, if_neg hn]
  simp [bothRefsOk, h.1, h.2.1, refsAgree, h.2.2]

/-- A disagreement that outlasts its time makes the slower axle SUSPECT (R8). -/
theorem judgeDisagreement_outlasts {s : State} (h : disagrees s)
    (hl : s.axle.disagreement.getD s.now + s.cfgN Setting.disagreementTime < s.now) :
    judgeDisagreement s = suspectSlower s := by
  unfold judgeDisagreement
  rw [if_pos, if_pos hl]
  simp [bothRefsOk, h.1, h.2.1, refsAgree, h.2.2]

/-! ### The reference -/

theorem chooseReference_both {s : State} (h2 : s.axle.ax2.state = .ok) (h3 : s.axle.ax3.state = .ok) :
    chooseReference s = if refDifference s ≤ s.cfg Setting.agreeTolerance then
        (.mean, (s.axle.ax2.speed + s.axle.ax3.speed).tdiv 2)
      else if s.axle.ax2.speed.natAbs < s.axle.ax3.speed.natAbs then (.larger .ax3, s.axle.ax3.speed)
      else (.larger .ax2, s.axle.ax2.speed) := by
  unfold chooseReference
  simp only [h2, h3, decide_true, refsAgree_iff]

theorem chooseReference_first {s : State} (h2 : s.axle.ax2.state = .ok) (h3 : s.axle.ax3.state ≠ .ok) :
    chooseReference s = (.single .ax2, s.axle.ax2.speed) := by
  unfold chooseReference
  simp only [h2, h3, decide_true, decide_false]

theorem chooseReference_second {s : State} (h2 : s.axle.ax2.state ≠ .ok) (h3 : s.axle.ax3.state = .ok) :
    chooseReference s = (.single .ax3, s.axle.ax3.speed) := by
  unfold chooseReference
  simp only [h2, h3, decide_true, decide_false]

theorem chooseReference_neither {s : State} (h2 : s.axle.ax2.state ≠ .ok) (h3 : s.axle.ax3.state ≠ .ok) :
    chooseReference s = chooseFallback s := by
  unfold chooseReference
  simp only [h2, h3, decide_false]

/-- A motor axle fits the fallback: its channel OK, its bogie ADHERING (R10). -/
theorem qualifies_iff (c : AxleChannel) (b : BogieState) : qualifies c b = true ↔ c.state = .ok ∧ b.state = .adhering := by
  simp [qualifies]

theorem chooseFallback_first {s : State} (h0 : qualifies s.axle.ax0 s.adhesion.a = true)
    (h1 : qualifies s.axle.ax1 s.adhesion.b = false ∨ s.axle.ax0.speed.natAbs ≤ s.axle.ax1.speed.natAbs) :
    chooseFallback s = (.degraded .ax0, s.axle.ax0.speed) := by
  unfold chooseFallback
  cases e : qualifies s.axle.ax1 s.adhesion.b with
  | false => simp only [h0]
  | true => simp only [h0]; rw [if_neg (not_lt.2 (h1.resolve_left (by simp [e])))]

theorem chooseFallback_second {s : State} (h1 : qualifies s.axle.ax1 s.adhesion.b = true)
    (h0 : qualifies s.axle.ax0 s.adhesion.a = false ∨ s.axle.ax1.speed.natAbs < s.axle.ax0.speed.natAbs) :
    chooseFallback s = (.degraded .ax1, s.axle.ax1.speed) := by
  unfold chooseFallback
  cases e : qualifies s.axle.ax0 s.adhesion.a with
  | false => simp only [h1]
  | true => simp only [h1]; rw [if_pos (h0.resolve_left (by simp [e]))]

theorem chooseFallback_lost {s : State} (h0 : qualifies s.axle.ax0 s.adhesion.a = false)
    (h1 : qualifies s.axle.ax1 s.adhesion.b = false) : chooseFallback s = (.lost, s.axle.refSpeed) := by
  unfold chooseFallback
  simp only [h0, h1]

/-! ### Agreement -/

/-- The agreement run of a channel judged at `now`, its partner in state `partner`; `agree` says that the speeds agree (R9). -/
def agreementRun (now : Nat) (agree : Bool) (partner : ChannelState) (c : AxleChannel) : AxleChannel :=
  if c.state = .suspect ∧ partner = .ok ∧ agree = true then
    if c.agreement.getD now + 10000 ≤ now then { c.judged .ok with agreement := none }
    else { c with agreement := some (c.agreement.getD now) }
  else { c with agreement := none }

/-- A reference axle's channel after the agreement judgement (R9). -/
def agreementOf (r : RefAxle) (s : State) : AxleChannel :=
  agreementRun s.now (refsAgree s) (s.axle.channel (refChannel (otherRef r))).state (s.axle.channel (refChannel r))

/-- The agreement judgement writes the axle's channel alone (R9). -/
theorem judgeAgreement_eq (r : RefAxle) (s : State) :
    judgeAgreement r s = s.setAxle (s.axle.setChannel (refChannel r) (agreementOf r s)) := by
  unfold judgeAgreement agreementOf agreementRun returnToOk onChannel
  dsimp only
  split
  · split <;> rfl
  · rfl

end Sys2Proof.Machine
end

section
/-! The reference of a speed sample and the records it raises. -/

namespace Sys2Proof.Machine

variable {C : Cause → Prop} {P : State → Prop} {s : State}

/-! ### From the stages to the sample -/

/-- What holds once the reference is selected, and outlives what follows, holds of the sample. -/
theorem speedSample_of_referenced (W : TripWalk C P) (R : KeepsRole P) (rollback : C .rollback) (h : At P (referenced s)) :
    At P (speedSample s) := by
  rw [speedSample_tripped]; exact W.axle (afterReference_trip W R rollback h)

/-- What holds once the disagreement is judged, and outlives the report of the source, holds of the sample. -/
theorem speedSample_of_formed (W : TripWalk C P) (R : KeepsRole P) (rollback : C .rollback) (lost : C .referenceLost)
    (h11 : ∀ {u}, (chooseReference (formed s)).1.isDegraded = true → (formed s).axle.source.isDegraded = false → At P u →
      At P (raise 11 (chooseReference (formed s)).1.motor (chooseReference (formed s)).2 u))
    (h29 : ∀ {u}, (chooseReference (formed s)).1 = .lost → (formed s).axle.source ≠ .lost → At P u →
      At P (raise 29 0 (chooseReference (formed s)).2 u))
    (h : At P (formed s)) : At P (speedSample s) :=
  speedSample_of_referenced W R rollback (reportSource_quiet W.toQuietWalk lost h11 h29 (W.axle h))

/-- What a sample publishes of the reference and of the disagreement run (R7, R8). -/
theorem speedSample_reference (s : State) : (speedSample s).axle.source = (chooseReference (formed s)).1 ∧
    (speedSample s).axle.refSpeed = (chooseReference (formed s)).2 ∧
    (speedSample s).axle.disagreement = (formed s).axle.disagreement ∧
    (speedSample s).axle.shownRun = (formed s).axle.shownRun ∧
    (speedSample s).axle.refTravel = s.axle.sense.apply (travelOf (formed s) (chooseReference (formed s)).1) := by
  have kept : AxleKept (referenced s).axle (speedSample s).axle := speedSample_kept s
  have selected : (referenced s).axle = _ := selectReference_axle (formed s)
  rw [kept.source, kept.refSpeed, kept.disagreement, kept.shownRun, kept.refTravel, selected, ← formed_sense s]
  exact ⟨rfl, rfl, rfl, rfl, rfl⟩

theorem formed_speed (s : State) (i : AxleId) : ((formed s).axle.channel i).speed = ((speedSample s).axle.channel i).speed := by
  rw [(speedSample_channel s i).speed]
  rcases formed_channel s i with e | e <;> rw [e]; rfl

theorem sampleChannels_speed (s : State) (i : AxleId) :
    ((sampleChannels s).axle.channel i).speed = ((speedSample s).axle.channel i).speed := by
  rw [(speedSample_channel s i).speed, sampleChannels_channel]

theorem refDifference_congr {a b : State} (h : ∀ i, (a.axle.channel i).speed = (b.axle.channel i).speed) :
    refDifference a = refDifference b := by
  have h2 : a.axle.ax2.speed = b.axle.ax2.speed := h .ax2
  have h3 : a.axle.ax3.speed = b.axle.ax3.speed := h .ax3
  unfold refDifference; rw [h2, h3]

theorem sampleChannels_difference (s : State) : refDifference (sampleChannels s) = refDifference (speedSample s) :=
  refDifference_congr (sampleChannels_speed s)

theorem formed_difference (s : State) : refDifference (formed s) = refDifference (speedSample s) :=
  refDifference_congr (formed_speed s)

theorem formed_cfg (s : State) (n : Nat) : (formed s).cfg n = s.cfg n := by
  obtain ⟨-, -, -, settings, -⟩ := judgeDisagreement_kept (sampleChannels s)
  exact congrArg (SettingsStore.value · n) settings

theorem sampleChannels_state (s : State) (i : AxleId) : ((sampleChannels s).axle.channel i).state = (s.axle.channel i).state := by
  rw [sampleChannels_channel]; exact takeMode_state _ _

/-- The disagreement of a sample, by the states the channels had and the speeds it formed. -/
theorem disagrees_iff (s : State) : disagrees (sampleChannels s) ↔ s.axle.ax2.state = .ok ∧ s.axle.ax3.state = .ok ∧
    s.cfg Setting.agreeTolerance < refDifference (speedSample s) := by
  unfold disagrees
  rw [show (sampleChannels s).axle.ax2.state = _ from sampleChannels_state s .ax2,
    show (sampleChannels s).axle.ax3.state = _ from sampleChannels_state s .ax3, sampleChannels_difference]; rfl

/-- The slower axle's channel is SUSPECT, the other as sampled (R8). -/
theorem suspectSlower_channel (s : State) (i : AxleId) : (suspectSlower s).axle.channel i =
    if i = slowerRef s then (s.axle.channel i).judged .suspect else s.axle.channel i := by
  unfold suspectSlower onChannel
  rw [raise_axle]
  cases slowerRef s <;> cases i <;> rfl

/-! ### Disagreement at a sample -/

/-- Where the run does not outlast its time, the channels are as sampled and no event is raised (R8). -/
theorem formed_unless_suspect (s : State) (h : ¬(disagrees (sampleChannels s) ∧
    s.axle.disagreement.getD s.now + s.cfgN Setting.disagreementTime < s.now)) :
    (∀ i, (formed s).axle.channel i = sampled s i) ∧ (formed s).host = s.host := by
  unfold formed
  by_cases d : disagrees (sampleChannels s)
  · rw [judgeDisagreement_runs d fun hl => h ⟨d, hl⟩]
    exact ⟨fun i => by rw [← sampleChannels_channel]; cases i <;> rfl, rfl⟩
  · rw [judgeDisagreement_none d]
    exact ⟨fun i => by rw [← sampleChannels_channel]; cases i <;> rfl, rfl⟩

@[simp] theorem AxleUnit.setChannel_standstillRun (u : AxleUnit) (i : AxleId) (c : AxleChannel) :
    (u.setChannel i c).standstillRun = u.standstillRun := by cases i <;> rfl

@[simp] theorem AxleUnit.setChannel_lastSample (u : AxleUnit) (i : AxleId) (c : AxleChannel) :
    (u.setChannel i c).lastSample = u.lastSample := by cases i <;> rfl

/-- What the judgement of the disagreement leaves: all but the axle unit and the event set, and of the axle unit standstill. -/
structure SameBlocks (a b : State) : Prop where
  halt : b.halt = a.halt
  lines : b.lines = a.lines
  route : b.route = a.route
  pins : b.pins = a.pins
  now : b.now = a.now
  junction : b.junction = a.junction
  standstill : b.axle.standstill = a.axle.standstill
  standstillRun : b.axle.standstillRun = a.axle.standstillRun
  lastSample : b.axle.lastSample = a.axle.lastSample

theorem judgeDisagreement_blocks (s : State) : SameBlocks s (judgeDisagreement s) := by
  unfold judgeDisagreement suspectSlower onChannel
  dsimp only
  split
  · split
    · constructor <;> simp
    · constructor <;> rfl
  · constructor <;> rfl

theorem formed_blocks (s : State) : SameBlocks s (formed s) :=
  have start : SameBlocks (sampleChannels s) (formed s) := judgeDisagreement_blocks (sampleChannels s)
  { start with }

/-! ### The cause REFERENCE LOST -/

theorem joinCauses_referenceLost (s : State) : (joinCauses [.referenceLost] s).halt.causes.referenceLost = true := by
  cases h : s.halt.causes.referenceLost with
  | true =>
    have none : Cause.descending.filter (fun c => [Cause.referenceLost].contains c && !s.halt.causes.has c) = [] := by
      simp [Cause.descending, Causes.has, h]
    unfold joinCauses; rw [none]; exact h
  | false =>
    have one : Cause.descending.filter (fun c => [Cause.referenceLost].contains c && !s.halt.causes.has c) = [.referenceLost] := by
      simp [Cause.descending, Causes.has, h]
    unfold joinCauses; rw [one]; rfl

theorem addCauses_referenceLost (s : State) : (addCauses [.referenceLost] s).halt.causes.has .referenceLost = true :=
  judgeDrive_quiet (cause_walk .referenceLost (.inr rfl) true).toQuietWalk (joinCauses_referenceLost s)

theorem removeCauses_referenceLost (s : State) : (removeCauses [.referenceLost] s).halt.causes.has .referenceLost = false :=
  judgeDrive_quiet (cause_walk .referenceLost (.inr rfl) false).toQuietWalk rfl

/-- REFERENCE LOST after the report of the source (R11). -/
theorem reportSource_referenceLost (before after : RefSource) (v : Int) (s : State) :
    (reportSource before after v s).halt.causes.has .referenceLost =
      if after = .lost then (if before = .lost then s.halt.causes.has .referenceLost else true) else false := by
  unfold reportSource
  by_cases lost : after = .lost
  · by_cases was : before = .lost
    · rw [if_neg (by tauto), if_neg (by tauto), if_pos lost, if_pos was, lost]; rfl
    · rw [if_pos ⟨lost, was⟩, if_pos lost, if_neg was]; exact addCauses_referenceLost _
  · rw [if_neg (by tauto), if_pos lost, if_neg lost]; exact removeCauses_referenceLost _

end Sys2Proof.Machine
end

section
/-! The statement about the reference: each clause from the stage that judges it. -/

namespace Sys2Proof.Machine

variable {s : State}

/-! ### Agreement at a sample -/

@[simp] theorem judgeStandstill_channel (s : State) (i : AxleId) : (judgeStandstill s).axle.channel i = s.axle.channel i := by
  unfold judgeStandstill; dsimp only; repeat' split
  all_goals cases i <;> simp [AxleUnit.channel]

theorem afterReference_channel (s : State) (i : AxleId) :
    (afterReference s).axle.channel i = (judgeAgreement .ax3 (judgeAgreement .ax2 s)).axle.channel i := by
  unfold afterReference
  dsimp only
  rw [routeSample_axle]
  split
  · rw [sampleRole_axle, judgeStandstill_channel]
  · rw [judgeStandstill_channel]

/-- Where the partner is not OK the agreement judgement leaves the state (R9). -/
theorem agreementRun_state {now : Nat} {agree : Bool} {partner : ChannelState} {c : AxleChannel} (h : partner ≠ .ok) :
    (agreementRun now agree partner c).state = c.state := by
  unfold agreementRun
  rw [if_neg (fun e => h e.2.1)]

/-- Of a channel that is not SUSPECT the partner's state is not read (R9). -/
theorem agreementRun_partner {now : Nat} {agree : Bool} {p q : ChannelState} {c : AxleChannel} (h : c.state ≠ .suspect) :
    agreementRun now agree p c = agreementRun now agree q c := by
  unfold agreementRun
  rw [if_neg (fun e => h e.1), if_neg (fun e => h e.1)]

theorem judgeAgreement_speed (r : RefAxle) (s : State) (i : AxleId) :
    ((judgeAgreement r s).axle.channel i).speed = (s.axle.channel i).speed := ((judgeAgreement_kept r s).channels i).2.2.1

theorem refsAgree_congr {a b : State} (speeds : refDifference a = refDifference b)
    (cfg : a.cfg Setting.agreeTolerance = b.cfg Setting.agreeTolerance) : refsAgree a = refsAgree b := by
  unfold refsAgree; rw [speeds, cfg]

/-- AX3 is judged after AX2, which never changes what is judged of it (R9). -/
theorem agreementOf_second (s : State) : agreementOf .ax3 (judgeAgreement .ax2 s) = agreementOf .ax3 s := by
  have agree : refsAgree (judgeAgreement .ax2 s) = refsAgree s :=
    refsAgree_congr (refDifference_congr (judgeAgreement_speed .ax2 s)) (by rw [judgeAgreement_eq]; rfl)
  have own : (judgeAgreement .ax2 s).axle.channel .ax3 = s.axle.channel .ax3 := by rw [judgeAgreement_eq]; rfl
  have partner : (judgeAgreement .ax2 s).axle.channel .ax2 = agreementOf .ax2 s := by rw [judgeAgreement_eq]; rfl
  have now : (judgeAgreement .ax2 s).now = s.now := by rw [judgeAgreement_eq]; rfl
  show agreementRun _ _ ((judgeAgreement .ax2 s).axle.channel .ax2).state ((judgeAgreement .ax2 s).axle.channel .ax3) = _
  rw [own, partner, agree, now]
  by_cases suspect : (s.axle.channel .ax3).state = .suspect
  · have same : (agreementOf .ax2 s).state = (s.axle.channel .ax2).state :=
      agreementRun_state (show (s.axle.channel .ax3).state ≠ .ok by rw [suspect]; decide)
    rw [same]; rfl
  · exact agreementRun_partner suspect

/-- A reference axle's channel after a sample is what the agreement judgement makes of it (R9). -/
theorem speedSample_agreement (r : RefAxle) (s : State) :
    (speedSample s).axle.channel (refChannel r) = agreementOf r (referenced s) := by
  have stamped : (speedSample s).axle.channel (refChannel r) = (afterReference (referenced s)).axle.channel (refChannel r) := by
    rw [speedSample_tripped]
    unfold tripped
    generalize afterReference (referenced s) = u
    cases r <;> rfl
  rw [stamped, afterReference_channel]
  generalize referenced s = u
  cases r with
  | ax2 => rw [judgeAgreement_eq .ax3, judgeAgreement_eq .ax2]; rfl
  | ax3 => rw [← agreementOf_second, judgeAgreement_eq .ax3]; rfl

/-! ### What the selection of the reference leaves -/

theorem referenced_now (s : State) : (referenced s).now = s.now := by
  unfold referenced selectReference
  dsimp only
  rw [reportSource_now, State.setAxle_now, (formed_blocks s).now]

/-- The axle unit's settings stay through the report of the reference (R165). -/
theorem referenced_cfg (s : State) {n : Nat} (hn : settingGroup n = 1) : (referenced s).cfg n = s.cfg n :=
  reportSource_quiet (axleSetting_walk hn (s.cfg n)) trivial (fun _ _ h => h) (fun _ _ h => h) (formed_cfg s n)

theorem referenced_difference (s : State) : refDifference (referenced s) = refDifference (speedSample s) := by
  rw [← formed_difference]
  exact refDifference_congr fun i => by rw [referenced_channel]

/-- The run of a reference axle at a sample, by the states the channels had and the speeds it formed (R9). -/
theorem speedSample_agreement_cases (r : RefAxle) (s : State) :
    let c := s.axle.channel (refChannel r)
    let d := (speedSample s).axle.channel (refChannel r)
    let agrees := c.state = .suspect ∧ (s.axle.channel (refChannel (otherRef r))).state = .ok ∧
      refDifference (speedSample s) ≤ s.cfg Setting.agreeTolerance
    let began := c.agreement.getD s.now
    (agrees → s.now < began + 10000 → d.state = .suspect ∧ d.agreement = some began) ∧
    (agrees → began + 10000 ≤ s.now → d.state = .ok ∧ d.agreement = none) ∧
    (¬agrees → d.agreement = none ∧ (c.state ≠ .ok → d.state = c.state)) := by
  intro c d agrees began
  have hd : d = agreementOf r (referenced s) := speedSample_agreement r s
  clear_value d
  have agree : refsAgree (referenced s) = true ↔ refDifference (speedSample s) ≤ s.cfg Setting.agreeTolerance := by
    rw [refsAgree_iff, referenced_difference, referenced_cfg s rfl]
  unfold agreementOf agreementRun at hd
  simp only [agree, referenced_now, referenced_channel] at hd
  by_cases suspected : disagrees (sampleChannels s) ∧ s.axle.disagreement.getD s.now + s.cfgN Setting.disagreementTime < s.now
  · obtain ⟨h2, h3, apart⟩ := (disagrees_iff s).1 suspected.1
    have ok : c.state = .ok := by cases r with
      | ax2 => exact h2
      | ax3 => exact h3
    rw [if_neg (fun e => absurd e.2.2 (not_le.2 apart))] at hd
    have never : ¬agrees := fun e => absurd e.2.2 (not_le.2 apart)
    exact ⟨fun e => absurd e never, fun e => absurd e never, fun _ => ⟨by rw [hd], fun e => absurd ok e⟩⟩
  · obtain ⟨channels, -⟩ := formed_unless_suspect s suspected
    rw [channels, channels] at hd
    have state : ∀ i, (sampled s i).state = (s.axle.channel i).state := fun i => takeMode_state _ _
    have agreement : (sampled s (refChannel r)).agreement = c.agreement := takeMode_agreement _ _
    rw [state, state, agreement] at hd
    refine ⟨fun e early => ?_, fun e late => ?_, fun e => ?_⟩
    · rw [if_pos e, if_neg (by omega)] at hd
      exact ⟨by rw [hd]; exact e.1, by rw [hd]⟩
    · rw [if_pos e, if_pos late] at hd
      exact ⟨by rw [hd]; rfl, by rw [hd]⟩
    · rw [if_neg e] at hd
      exact ⟨by rw [hd], fun _ => by rw [hd]⟩

/-! ### The reference by the states and speeds -/

theorem formed_state_unless_suspect (h : ¬(disagrees (sampleChannels s) ∧
    s.axle.disagreement.getD s.now + s.cfgN Setting.disagreementTime < s.now)) (i : AxleId) :
    ((formed s).axle.channel i).state = (s.axle.channel i).state := by
  rw [(formed_unless_suspect s h).1]; exact takeMode_state _ _

/-- A figure that every channel of two axle units shares. -/
theorem AxleUnit.same_figure {α : Type} (f : AxleChannel → α) {a b : AxleUnit}
    (h : ∀ i, f (a.channel i) = f (b.channel i)) : f a.ax0 = f b.ax0 ∧ f a.ax1 = f b.ax1 ∧ f a.ax2 = f b.ax2 ∧ f a.ax3 = f b.ax3 :=
  ⟨h .ax0, h .ax1, h .ax2, h .ax3⟩

/-- What the reference is chosen from, where no axle becomes SUSPECT at the sample. -/
theorem chooseReference_unless_suspect (h : ¬(disagrees (sampleChannels s) ∧
    s.axle.disagreement.getD s.now + s.cfgN Setting.disagreementTime < s.now)) :
    (s.axle.ax2.state = .ok → s.axle.ax3.state = .ok → chooseReference (formed s) =
      if refDifference (speedSample s) ≤ s.cfg Setting.agreeTolerance then
        (.mean, ((speedSample s).axle.ax2.speed + (speedSample s).axle.ax3.speed).tdiv 2)
      else if (speedSample s).axle.ax2.speed.natAbs < (speedSample s).axle.ax3.speed.natAbs then
        (.larger .ax3, (speedSample s).axle.ax3.speed)
      else (.larger .ax2, (speedSample s).axle.ax2.speed)) ∧
    (s.axle.ax2.state = .ok → s.axle.ax3.state ≠ .ok →
      chooseReference (formed s) = (.single .ax2, (speedSample s).axle.ax2.speed)) ∧
    (s.axle.ax2.state ≠ .ok → s.axle.ax3.state = .ok →
      chooseReference (formed s) = (.single .ax3, (speedSample s).axle.ax3.speed)) ∧
    (s.axle.ax2.state ≠ .ok → s.axle.ax3.state ≠ .ok → chooseReference (formed s) = chooseFallback (formed s)) := by
  obtain ⟨-, -, state2, state3⟩ := AxleUnit.same_figure AxleChannel.state (formed_state_unless_suspect h)
  obtain ⟨-, -, speed2, speed3⟩ := AxleUnit.same_figure AxleChannel.speed (formed_speed s)
  rw [← state2, ← state3, ← speed2, ← speed3, ← formed_difference, ← formed_cfg]
  exact ⟨chooseReference_both, chooseReference_first, chooseReference_second, chooseReference_neither⟩

/-- What the fallback chooses from at a sample (R10, R11). -/
theorem chooseFallback_formed (h : ¬(disagrees (sampleChannels s) ∧
    s.axle.disagreement.getD s.now + s.cfgN Setting.disagreementTime < s.now)) :
    let fits0 := s.axle.ax0.state = .ok ∧ s.adhesion.a.state = .adhering
    let fits1 := s.axle.ax1.state = .ok ∧ s.adhesion.b.state = .adhering
    let v0 := (speedSample s).axle.ax0.speed
    let v1 := (speedSample s).axle.ax1.speed
    (fits0 → ¬fits1 → chooseFallback (formed s) = (.degraded .ax0, v0)) ∧
    (¬fits0 → fits1 → chooseFallback (formed s) = (.degraded .ax1, v1)) ∧
    (fits0 → fits1 → v0.natAbs ≤ v1.natAbs → chooseFallback (formed s) = (.degraded .ax0, v0)) ∧
    (fits0 → fits1 → v1.natAbs < v0.natAbs → chooseFallback (formed s) = (.degraded .ax1, v1)) ∧
    (¬fits0 → ¬fits1 → chooseFallback (formed s) = (.lost, s.axle.refSpeed)) := by
  intro fits0 fits1 v0 v1
  obtain ⟨-, held, -, -, -, bogies, -⟩ := judgeDisagreement_kept (sampleChannels s)
  obtain ⟨state0, state1, -, -⟩ := AxleUnit.same_figure AxleChannel.state (formed_state_unless_suspect h)
  obtain ⟨speed0, speed1, -, -⟩ := AxleUnit.same_figure AxleChannel.speed (formed_speed s)
  have q0 : qualifies (formed s).axle.ax0 (formed s).adhesion.a = true ↔ fits0 := by
    rw [qualifies_iff, state0, show (formed s).adhesion = s.adhesion from bogies]
  have q1 : qualifies (formed s).axle.ax1 (formed s).adhesion.b = true ↔ fits1 := by
    rw [qualifies_iff, state1, show (formed s).adhesion = s.adhesion from bogies]
  have refSpeed : (formed s).axle.refSpeed = s.axle.refSpeed := held
  change (formed s).axle.ax0.speed = v0 at speed0
  change (formed s).axle.ax1.speed = v1 at speed1
  clear_value fits0 fits1 v0 v1
  rw [← speed0, ← speed1, ← refSpeed, ← q0, ← q1, Bool.not_eq_true, Bool.not_eq_true]
  exact ⟨fun h0 h1 => chooseFallback_first h0 (.inl h1), fun h0 h1 => chooseFallback_second h1 (.inl h0),
    fun h0 _ le => chooseFallback_first h0 (.inr le), fun _ h1 lt => chooseFallback_second h1 (.inr lt), chooseFallback_lost⟩

end Sys2Proof.Machine
end

section
/-! The statement about the reference (R7 to R11), clause by clause. -/

namespace Sys2Proof.Machine

variable {s : State}

/-! ### The slower axle SUSPECT -/

/-- The run of disagreement outlasts its time at the sample (R8). -/
def outlasts (s : State) : Prop := s.axle.disagreement.getD s.now + s.cfgN Setting.disagreementTime < s.now

/-- An axle whose partner it disagrees with keeps its state (R9). -/
theorem agreementRun_apart {now : Nat} {partner : ChannelState} {c : AxleChannel} :
    agreementRun now false partner c = { c with agreement := none } := by
  unfold agreementRun
  rw [if_neg (fun e => Bool.false_ne_true e.2.2)]

/-- The states the disagreement leaves stay where the speeds still disagree. -/
theorem speedSample_state_apart (h : s.cfg Setting.agreeTolerance < refDifference (speedSample s)) (r : RefAxle) :
    ((speedSample s).axle.channel (refChannel r)).state = ((formed s).axle.channel (refChannel r)).state := by
  have apart : refsAgree (referenced s) = false := by
    rw [Bool.eq_false_iff, Ne, refsAgree_iff, referenced_difference, referenced_cfg s rfl]
    exact not_le.2 h
  rw [speedSample_agreement]
  unfold agreementOf
  rw [apart, agreementRun_apart, referenced_channel]

/-- The slower reference axle of a sample (R8). -/
theorem slowerRef_sampled (s : State) : slowerRef (sampleChannels s) =
    if (speedSample s).axle.ax2.speed.natAbs < (speedSample s).axle.ax3.speed.natAbs then .ax2 else .ax3 := by
  obtain ⟨-, -, speed2, speed3⟩ := AxleUnit.same_figure AxleChannel.speed (sampleChannels_speed s)
  unfold slowerRef
  rw [speed2, speed3]

/-- What the outlasted run of disagreement leaves (R8): its end, the slower axle SUSPECT and the other as it was, AXLE SUSPECT. -/
theorem formed_suspect (d : disagrees (sampleChannels s)) (o : outlasts s) :
    (formed s).axle.disagreement = none ∧
    (∀ i, ((formed s).axle.channel i).state =
      if i = slowerRef (sampleChannels s) then .suspect else (s.axle.channel i).state) ∧
    Recorded 10 (axleNumber (slowerRef (sampleChannels s))) (refDifference (speedSample s)) (formed s) := by
  unfold formed
  rw [judgeDisagreement_outlasts d o, ← sampleChannels_difference]
  refine ⟨?_, fun i => ?_, raise_recorded _ _ _ _⟩
  · unfold suspectSlower; rw [raise_axle]; rfl
  · rw [suspectSlower_channel]
    split
    · rfl
    · exact sampleChannels_state s i

/-- A record of kind 10 made by the disagreement stays in the set (R177). -/
theorem speedSample_recorded {j : Nat} {v : Int} (h : Recorded 10 j v (formed s)) : Recorded 10 j v (speedSample s) :=
  speedSample_of_formed (recorded_walk (by decide) j v) (recorded_role 10 j v) trivial trivial
    (fun _ _ h => Recorded.raise (by decide) h) (fun _ _ h => Recorded.raise (by decide) h) h

theorem speedSample_suspect (d : disagrees (sampleChannels s)) (o : outlasts s) :
    let t := speedSample s
    t.axle.disagreement = none ∧
    if t.axle.ax2.speed.natAbs < t.axle.ax3.speed.natAbs then
      t.axle.ax2.state = .suspect ∧ t.axle.source = .single .ax3 ∧ t.axle.refSpeed = t.axle.ax3.speed ∧
        Recorded 10 2 (refDifference t) t
    else t.axle.ax3.state = .suspect ∧ t.axle.source = .single .ax2 ∧ t.axle.refSpeed = t.axle.ax2.speed ∧
      Recorded 10 3 (refDifference t) t := by
  generalize ht : speedSample s = t
  dsimp only
  obtain ⟨ok2, ok3, apart⟩ := (disagrees_iff s).1 d
  obtain ⟨ended, states, record⟩ := formed_suspect d o
  obtain ⟨source, refSpeed, disagreement, -⟩ := speedSample_reference s
  obtain ⟨-, -, speed2, speed3⟩ := AxleUnit.same_figure AxleChannel.speed (formed_speed s)
  have state2 := states .ax2
  have state3 := states .ax3
  have kept2 := speedSample_state_apart apart .ax2
  have kept3 := speedSample_state_apart apart .ax3
  have told := speedSample_recorded record
  simp only [refChannel, AxleUnit.channel_ax2, AxleUnit.channel_ax3] at state2 state3 kept2 kept3
  rw [slowerRef_sampled] at state2 state3 told
  rw [ht] at state2 state3 kept2 kept3 told source refSpeed disagreement speed2 speed3
  refine ⟨disagreement.trans ended, ?_⟩
  split
  next slower =>
    rw [if_pos slower] at state2 state3 told
    rw [if_pos rfl] at state2
    rw [if_neg (by decide)] at state3
    have chosen := chooseReference_second (s := formed s) (by rw [state2]; decide) (by rw [state3]; exact ok3)
    exact ⟨kept2.trans state2, by rw [source, chosen], by rw [refSpeed, chosen]; exact speed3, told⟩
  next slower =>
    rw [if_neg slower] at state2 state3 told
    rw [if_neg (by decide)] at state2
    rw [if_pos rfl] at state3
    have chosen := chooseReference_first (s := formed s) (by rw [state2]; exact ok2) (by rw [state3]; decide)
    exact ⟨kept3.trans state3, by rw [source, chosen], by rw [refSpeed, chosen]; exact speed2, told⟩

/-! ### Records a sample does not make -/

/-- No record of kind 10 comes of a sample at which no axle becomes SUSPECT. -/
theorem speedSample_unrecorded (h : ¬(disagrees (sampleChannels s) ∧ outlasts s)) (j : Nat) (empty : Unrecorded 10 j s) :
    Unrecorded 10 j (speedSample s) := by
  refine speedSample_of_formed (unrecorded_walk (by decide) j) (unrecorded_role 10 j) trivial trivial
    (fun _ _ h => Unrecorded.raise (by decide) h) (fun _ _ h => Unrecorded.raise (by decide) h) ?_
  show Unrecorded 10 j (formed s)
  unfold Unrecorded
  rw [(formed_unless_suspect s h).2]; exact empty

/-- The disagreement makes no record of another kind. -/
theorem formed_unrecorded {k j : Nat} (hk : k ≠ 10) (empty : Unrecorded k j s) : Unrecorded k j (formed s) := by
  unfold formed judgeDisagreement suspectSlower onChannel
  dsimp only
  split
  · split
    · exact Unrecorded.raise (Ne.symm hk) empty
    · exact empty
  · exact empty

theorem Unrecorded.untold {t : State} {k j : Nat} (h : Unrecorded k j s → Unrecorded k j t) : Untold s t k j := fun empty =>
  h fun x hx => by rw [empty] at hx; cases hx

/-! ### The report of the source -/

theorem isDegraded_iff (x : RefSource) : x.isDegraded = true ↔ ∃ i, x = .degraded i := by cases x <;> simp [RefSource.isDegraded]

theorem speedSample_source_kept (s : State) : (formed s).axle.source = s.axle.source := (judgeDisagreement_kept (sampleChannels s)).2.2.1

theorem referenced_eq (s : State) : ∃ x, referenced s = reportSource s.axle.source (speedSample s).axle.source
    (speedSample s).axle.refSpeed ((formed s).setAxle x) := by
  obtain ⟨source, refSpeed, -⟩ := speedSample_reference s
  rw [source, refSpeed, ← speedSample_source_kept]
  exact ⟨_, rfl⟩

end Sys2Proof.Machine
end

section
/-! The statement about the reference, assembled: `t` is what a sample makes of `s`. -/

namespace Sys2Proof.Machine

variable {s t : State}

theorem sample_choice (ht : speedSample s = t) {c : RefSource × Int} (h : chooseReference (formed s) = c) :
    t.axle.source = c.1 ∧ t.axle.refSpeed = c.2 := by
  obtain ⟨source, refSpeed, -⟩ := speedSample_reference s
  rw [ht] at source refSpeed
  rw [source, refSpeed, h]; exact ⟨rfl, rfl⟩

/-- No axle becomes SUSPECT where one of them is not OK, or where they agree (R8). -/
theorem no_suspect (ht : speedSample s = t) (h : s.axle.ax2.state ≠ .ok ∨ s.axle.ax3.state ≠ .ok ∨
    refDifference t ≤ s.cfg Setting.agreeTolerance) : ¬disagrees (sampleChannels s) := fun d => by
  obtain ⟨h2, h3, apart⟩ := (disagrees_iff s).1 d
  rw [ht] at apart
  rcases h with h | h | h
  · exact h h2
  · exact h h3
  · exact absurd h (not_le.2 apart)

theorem sample_mean (ht : speedSample s = t) (h2 : s.axle.ax2.state = .ok) (h3 : s.axle.ax3.state = .ok)
    (agree : refDifference t ≤ s.cfg Setting.agreeTolerance) :
    t.axle.source = .mean ∧ t.axle.refSpeed = (t.axle.ax2.speed + t.axle.ax3.speed).tdiv 2 ∧ t.axle.disagreement = none := by
  have calm := no_suspect ht (.inr (.inr agree))
  have chosen := (chooseReference_unless_suspect fun e => calm e.1).1 h2 h3
  rw [ht, if_pos agree] at chosen
  obtain ⟨source, refSpeed⟩ := sample_choice ht chosen
  obtain ⟨-, -, ended, -⟩ := speedSample_reference s
  rw [ht] at ended
  exact ⟨source, refSpeed, ended.trans (by unfold formed; rw [judgeDisagreement_none calm]; rfl)⟩

theorem sample_disagreement (ht : speedSample s = t) (h2 : s.axle.ax2.state = .ok) (h3 : s.axle.ax3.state = .ok)
    (apart : s.cfg Setting.agreeTolerance < refDifference t) :
    if s.axle.disagreement.getD s.now + s.cfgN Setting.disagreementTime < s.now then
      t.axle.disagreement = none ∧
      if t.axle.ax2.speed.natAbs < t.axle.ax3.speed.natAbs then
        t.axle.ax2.state = .suspect ∧ t.axle.source = .single .ax3 ∧ t.axle.refSpeed = t.axle.ax3.speed ∧
          Told s t 10 2 (refDifference t)
      else t.axle.ax3.state = .suspect ∧ t.axle.source = .single .ax2 ∧ t.axle.refSpeed = t.axle.ax2.speed ∧
        Told s t 10 3 (refDifference t)
    else
      t.axle.disagreement = some (s.axle.disagreement.getD s.now) ∧ Untold s t 10 2 ∧ Untold s t 10 3 ∧
      if t.axle.ax2.speed.natAbs < t.axle.ax3.speed.natAbs then t.axle.source = .larger .ax3 ∧ t.axle.refSpeed = t.axle.ax3.speed
      else t.axle.source = .larger .ax2 ∧ t.axle.refSpeed = t.axle.ax2.speed := by
  have d : disagrees (sampleChannels s) := (disagrees_iff s).2 ⟨h2, h3, by rw [ht]; exact apart⟩
  split
  next o =>
    have suspect := speedSample_suspect d o
    rw [ht] at suspect
    obtain ⟨ended, axles⟩ := suspect
    refine ⟨ended, ?_⟩
    split
    next slower =>
      rw [if_pos slower] at axles
      exact ⟨axles.1, axles.2.1, axles.2.2.1, axles.2.2.2.told⟩
    next slower =>
      rw [if_neg slower] at axles
      exact ⟨axles.1, axles.2.1, axles.2.2.1, axles.2.2.2.told⟩
  next o =>
    have calm : ¬(disagrees (sampleChannels s) ∧ outlasts s) := fun e => o e.2
    have chosen := (chooseReference_unless_suspect calm).1 h2 h3
    rw [ht, if_neg (not_le.2 apart)] at chosen
    obtain ⟨-, -, runs, -⟩ := speedSample_reference s
    rw [ht] at runs
    have untold : ∀ j, Untold s t 10 j := fun j => Unrecorded.untold fun empty => ht ▸ speedSample_unrecorded calm j empty
    refine ⟨runs.trans (by unfold formed; rw [judgeDisagreement_runs d o]; rfl), untold 2, untold 3, ?_⟩
    split
    next slower => rw [if_pos slower] at chosen; exact sample_choice ht chosen
    next slower => rw [if_neg slower] at chosen; exact sample_choice ht chosen

theorem sample_single (ht : speedSample s = t) :
    (s.axle.ax2.state = .ok → s.axle.ax3.state ≠ .ok → t.axle.source = .single .ax2 ∧ t.axle.refSpeed = t.axle.ax2.speed) ∧
    (s.axle.ax2.state ≠ .ok → s.axle.ax3.state = .ok → t.axle.source = .single .ax3 ∧ t.axle.refSpeed = t.axle.ax3.speed) := by
  refine ⟨fun h2 h3 => ?_, fun h2 h3 => ?_⟩
  · have chosen := (chooseReference_unless_suspect fun e => no_suspect ht (.inr (.inl h3)) e.1).2.1 h2 h3
    rw [ht] at chosen
    exact sample_choice ht chosen
  · have chosen := (chooseReference_unless_suspect fun e => no_suspect ht (.inl h2) e.1).2.2.1 h2 h3
    rw [ht] at chosen
    exact sample_choice ht chosen

theorem sample_fallback (ht : speedSample s = t) (h2 : s.axle.ax2.state ≠ .ok) (h3 : s.axle.ax3.state ≠ .ok) :
    let fits0 := s.axle.ax0.state = .ok ∧ s.adhesion.a.state = .adhering
    let fits1 := s.axle.ax1.state = .ok ∧ s.adhesion.b.state = .adhering
    let v0 := t.axle.ax0.speed
    let v1 := t.axle.ax1.speed
    (fits0 → ¬fits1 → t.axle.source = .degraded .ax0 ∧ t.axle.refSpeed = v0) ∧
    (¬fits0 → fits1 → t.axle.source = .degraded .ax1 ∧ t.axle.refSpeed = v1) ∧
    (fits0 → fits1 → v0.natAbs ≤ v1.natAbs → t.axle.source = .degraded .ax0 ∧ t.axle.refSpeed = v0) ∧
    (fits0 → fits1 → v1.natAbs < v0.natAbs → t.axle.source = .degraded .ax1 ∧ t.axle.refSpeed = v1) ∧
    (¬fits0 → ¬fits1 → t.axle.source = .lost ∧ t.axle.refSpeed = s.axle.refSpeed) := by
  have calm := no_suspect ht (.inl h2)
  have chosen := (chooseReference_unless_suspect fun e => calm e.1).2.2.2 h2 h3
  obtain ⟨first, second, slowFirst, slowSecond, none⟩ := chooseFallback_formed (s := s) fun e => calm e.1
  rw [ht] at first second slowFirst slowSecond
  exact ⟨fun a b => sample_choice ht (chosen.trans (first a b)), fun a b => sample_choice ht (chosen.trans (second a b)),
    fun a b c => sample_choice ht (chosen.trans (slowFirst a b c)),
    fun a b c => sample_choice ht (chosen.trans (slowSecond a b c)), fun a b => sample_choice ht (chosen.trans (none a b))⟩

/-! ### What the report of the source tells -/

/-- From the report of the source on, the sample keeps what a record walk keeps. -/
theorem sample_of_report {C : Cause → Prop} {P : State → Prop} (ht : speedSample s = t) (W : TripWalk C P) (R : KeepsRole P)
    (rollback : C .rollback)
    (h : ∀ x, At P (reportSource s.axle.source t.axle.source t.axle.refSpeed ((formed s).setAxle x))) : P t := by
  obtain ⟨x, e⟩ := referenced_eq s
  rw [ht] at e
  rw [← ht]
  exact speedSample_of_referenced W R rollback (by rw [e]; exact h x)

theorem sample_degraded_told (ht : speedSample s = t) {i : AxleId} (h : t.axle.source = .degraded i)
    (fresh : ¬∃ i, s.axle.source = .degraded i) : Told s t 11 (axleNumber i) t.axle.refSpeed := by
  refine Recorded.told (sample_of_report ht (recorded_walk (by decide) _ _) (recorded_role _ _ _) trivial fun x => ?_)
  have entered : (t.axle.source.isDegraded && !s.axle.source.isDegraded) = true := by
    rw [← isDegraded_iff, Bool.not_eq_true] at fresh
    rw [h, fresh]; rfl
  unfold reportSource
  dsimp only
  rw [if_pos entered, if_neg (by rw [h]; exact fun e => nomatch e.1), if_pos (by rw [h]; exact fun e => nomatch e), h]
  exact removeCauses_quiet (recorded_walk (by decide) _ _).toQuietWalk (fun _ _ => trivial) (raise_recorded _ _ _ _)

theorem sample_degraded_untold (ht : speedSample s = t)
    (h : (∃ i, s.axle.source = .degraded i) ∨ ¬∃ i, t.axle.source = .degraded i) (n : Nat) : Untold s t 11 n := by
  refine Unrecorded.untold fun empty => sample_of_report ht (unrecorded_walk (by decide) n) (unrecorded_role 11 n) trivial fun x => ?_
  refine reportSource_quiet (unrecorded_walk (by decide) n).toQuietWalk trivial (fun a b _ => ?_)
    (fun _ _ h => Unrecorded.raise (by decide) h) (formed_unrecorded (by decide) empty)
  rw [isDegraded_iff] at a
  rw [← isDegraded_iff, b] at h
  exact absurd a (h.resolve_left (by decide))

theorem sample_lost_told (ht : speedSample s = t) (h : t.axle.source = .lost) (fresh : s.axle.source ≠ .lost) :
    Told s t 29 0 t.axle.refSpeed := by
  refine Recorded.told (sample_of_report ht (recorded_walk (by decide) _ _) (recorded_role _ _ _) trivial fun x => ?_)
  unfold reportSource
  rw [if_pos ⟨h, fresh⟩]
  exact addCauses_quiet (recorded_walk (by decide) _ _).toQuietWalk (fun _ _ => trivial) (raise_recorded _ _ _ _)

theorem sample_lost_untold (ht : speedSample s = t) (h : t.axle.source ≠ .lost ∨ s.axle.source = .lost) : Untold s t 29 0 := by
  refine Unrecorded.untold fun empty => sample_of_report ht (unrecorded_walk (by decide) 0) (unrecorded_role 29 0) trivial fun x => ?_
  refine reportSource_quiet (unrecorded_walk (by decide) 0).toQuietWalk trivial (fun _ _ h => Unrecorded.raise (by decide) h)
    (fun a b _ => ?_) (formed_unrecorded (by decide) empty)
  tauto

/-- REFERENCE LOST after a sample (R11). -/
theorem sample_referenceLost (ht : speedSample s = t) : t.halt.causes.referenceLost =
    if t.axle.source = .lost then (if s.axle.source = .lost then s.halt.causes.referenceLost else true) else false := by
  have kept : ∀ b, (∀ x, (reportSource s.axle.source t.axle.source t.axle.refSpeed ((formed s).setAxle x)).halt.causes.has
      .referenceLost = b) → t.halt.causes.has .referenceLost = b := fun b h =>
    sample_of_report ht (cause_walk .referenceLost (.inr rfl) b) (fun h => h) (by decide) h
  refine kept _ fun x => ?_
  rw [reportSource_referenceLost, State.setAxle_halt, (formed_blocks s).halt]; rfl

/-- The time of the disagreement run AXLE READ sends (R15). -/
theorem sample_shownRun (ht : speedSample s = t) : t.axle.shownRun = match t.axle.disagreement with
    | some x => s.now - x
    | none => 0 := by
  obtain ⟨-, -, run, shown, -⟩ := speedSample_reference s
  obtain ⟨-, -, -, -, -, -, figure, -⟩ := judgeDisagreement_kept (sampleChannels s)
  rw [ht] at run shown
  rw [shown, run]
  refine figure.trans ?_
  show _ = match (formed s).axle.disagreement with
    | some x => s.now - x
    | none => 0
  unfold formed
  cases (judgeDisagreement (sampleChannels s)).axle.disagreement <;> rfl

/-- A sample acts at its due time (R5). -/
theorem exec_speedSample (h : exec .speedSample s = .next t) : speedSample (s.reach s.axle.sampleDue) = t :=
  Host.Outcome.next.inj ((show exec .speedSample s = .next (speedSample (s.reach s.axle.sampleDue)) from rfl).symm.trans h)

/-- Settles O22: a sample acts at its due time, and each clause is that of the stage that judges it. -/
theorem sampleSelectsReference : Obligations.SampleSelectsReference := by
  intro s t ht
  have sample := exec_speedSample ht
  have lost := sample_referenceLost sample
  have agreement := fun r => speedSample_agreement_cases r (s.reach s.axle.sampleDue)
  rw [sample] at agreement
  have mean := sample_mean sample
  have disagreement := sample_disagreement sample
  have fallback := sample_fallback sample
  have degradedTold := fun i => sample_degraded_told (i := i) sample
  have degradedUntold := sample_degraded_untold sample
  have lostTold := sample_lost_told sample
  have lostUntold := sample_lost_untold sample
  have shownRun := sample_shownRun sample
  obtain ⟨single2, single3⟩ := sample_single sample
  exact ⟨mean, disagreement, single2, single3, fallback, agreement, ⟨degradedTold, degradedUntold⟩,
    fun h fresh => ⟨lost.trans (by rw [if_pos h]; exact if_neg fresh), lostTold h fresh⟩,
    fun h was => lost.trans (by rw [if_pos h]; exact if_pos was), lostUntold, fun h => lost.trans (if_neg h), shownRun⟩

end Sys2Proof.Machine
end

section
/-! Standstill and the role: what the flag brings, and what a sampling of the role leaves (R14, R72). -/

namespace Sys2Proof.Machine

variable {C : Cause → Prop} {P : State → Prop} {s : State}

/-! ### The role -/

theorem roleFrom_eq (r : Role) (a c : Bool) : roleFrom r a c = roleTable r a c := by
  cases a <;> cases c <;> simp [roleFrom, roleTable]

theorem roleTable_again (r : Role) (a c : Bool) : roleTable (roleTable r a c) a c = roleTable r a c := by
  cases a <;> cases c <;> cases r <;> rfl

/-- A change of the role leaves the role and the coupled flag it is told (R72). -/
theorem changeRole_role (r : Role) (c : Bool) (s : State) :
    (changeRole r c s).lines.role = r ∧ (changeRole r c s).lines.coupled = c := by
  have W := (role_walk r c).toQuietWalk
  have taken : ∀ u : State, ((u.setLines { u.lines with role := r, coupled := c }).setHalt
      { u.halt with ackRun := none }).lines.role = r ∧ ((u.setLines { u.lines with role := r, coupled := c }).setHalt
      { u.halt with ackRun := none }).lines.coupled = c := fun _ => ⟨rfl, rfl⟩
  unfold changeRole
  refine judgeVigilance_quiet W (refreshSetLength_quiet W (enterInhibited_quiet W ?_))
  exact ite_at (fun _ => enterTrail_quiet W (ite_at (fun _ => leaveTrail_quiet W (taken _)) fun _ => taken _)) fun _ =>
    ite_at (fun _ => leaveTrail_quiet W (taken _)) fun _ => taken _

/-- A sampling leaves the role of R72's table and the coupled flag of the pin. -/
theorem sampleRole_role (s : State) : (sampleRole s).lines.role = roleTable s.lines.role s.pins.activeCab s.pins.coupling ∧
    (sampleRole s).lines.coupled = s.pins.coupling := by
  unfold sampleRole
  dsimp only
  rw [roleFrom_eq]
  split
  next same => exact ⟨same.1.symm, same.2.symm⟩
  · exact changeRole_role _ _ s

/-! ### The flag set -/

/-- What follows the end of ROLLBACK at the event that sets the standstill flag (R68, R149, R165, R72). -/
def afterRollback (s : State) : State := sampleRole (judgeStandstillGroups (serveStops (judgeVigilance s)))

theorem setStandstill_afterRollback (s : State) : setStandstill s = afterRollback (removeCauses [.rollback]
    (latchStopped true ((releaseSand s).setAxle { (releaseSand s).axle with standstill := true }))) := rfl

theorem afterRollback_trip (W : TripWalk C P) (R : KeepsRole P) (h : At P s) : At P (afterRollback s) :=
  sampleRole_quiet W.toQuietWalk R (judgeStandstillGroups_trip W (serveStops_quiet W.toQuietWalk
    (judgeVigilance_quiet W.toQuietWalk h)))

/-- What the flag brings before the role is sampled leaves the role and the pins (R72). -/
theorem setStandstill_role (s : State) :
    (setStandstill s).lines.role = roleTable s.lines.role s.pins.activeCab s.pins.coupling ∧
      (setStandstill s).lines.coupled = s.pins.coupling := by
  rw [setStandstill_afterRollback]
  unfold afterRollback
  generalize hu : judgeStandstillGroups (serveStops (judgeVigilance (removeCauses [.rollback]
    (latchStopped true ((releaseSand s).setAxle { (releaseSand s).axle with standstill := true }))))) = u
  have brings : ∀ {C P}, TripWalk C P → C .rollback → At P s → At P u := fun W c h => hu ▸
    judgeStandstillGroups_trip W (serveStops_quiet W.toQuietWalk (judgeVigilance_quiet W.toQuietWalk
      (removeCauses_quiet W.toQuietWalk (by simpa using c) (W.latch rfl (W.axle (W.sand h))))))
  have role := brings (role_walk s.lines.role s.lines.coupled) trivial ⟨rfl, rfl⟩
  have kept := brings (tripKept_walk s) trivial (.refl s)
  obtain ⟨role', coupled'⟩ := sampleRole_role u
  rw [role.1, kept.pins] at role'
  rw [kept.pins] at coupled'
  exact ⟨role', coupled'⟩

/-- No part of it asserts SAND. -/
theorem unsanded_walk : TripWalk (fun _ => True) fun u => sandAsserted u = false where
  free := fun _ _ _ => trivial
  raise := fun _ h => h
  lock := fun _ h => judgeLock_other (fun h => h) (fun h => h) h
  effortHeld := fun h => h
  sound := fun _ h => h
  traction := fun h => h
  latch := fun _ h => h
  cause := fun _ h => h
  lines := fun _ _ _ h => h
  route := fun _ _ _ h => h
  sand := fun _ => releaseSand_off _
  junction := fun _ _ h => h
  vigil := fun h => h
  axle := fun h => h
  anyLock := fun h => judgeLock_other (fun h => h) (fun h => h) h
  move := fun h => h

theorem setStandstill_sand (s : State) : sandAsserted (setStandstill s) = false := by
  have W := unsanded_walk
  rw [setStandstill_afterRollback]
  exact afterRollback_trip W (fun h => h) (removeCauses_quiet W.toQuietWalk (fun _ _ => trivial)
    (W.latch rfl (W.axle (releaseSand_off s))))

/-- ROLLBACK is absent at the flag (R65). -/
theorem setStandstill_rollback (s : State) : (setStandstill s).halt.causes.rollback = false := by
  have W := cause_walk .rollback (.inl rfl) false
  rw [setStandstill_afterRollback]
  exact afterRollback_trip W (fun h => h) (judgeDrive_quiet W.toQuietWalk rfl)

theorem judgeStandstillGroups_halt_walk (W : HaltWalk P) (h : At P s) : At P (judgeStandstillGroups s) := by
  have judged : At P (judgeLock .g6 (!s.axle.standstill) (judgeLock .g1 (!s.axle.standstill)
      (judgeLock .g0 (!s.axle.standstill) s))) := W.lock (W.lock (W.lock h))
  exact ite_at (fun _ => judged) fun _ => judgeDrive_at W judged

/-- A set latch outlives a change of role and what the flag brings (R67). -/
theorem keepsLatch_role (r : LatchRecord) : RoleWalk fun s => s.halt.latch = some r :=
  { HaltWalk.keepsLatch r, RouteWalk.other (P := fun s => s.halt.latch = some r) (fun _ _ h => h) (fun _ _ h => h) with
    junction := fun _ h => h
    stop := fun h => h
    vigil := fun _ h => h
    role := fun _ h => h }

/-- The record of a set latch becomes STOPPED at the flag, and stays (R64). -/
theorem setStandstill_latch {r : LatchRecord} (h : s.halt.latch = some r) :
    (setStandstill s).halt.latch = some { r with stopped := true } := by
  have W := keepsLatch_role { r with stopped := true }
  have flagged : (latchStopped true ((releaseSand s).setAxle { (releaseSand s).axle with standstill := true })).halt.latch =
      some { r with stopped := true } := by
    rw [releaseSand_eq]
    show s.halt.latch.map _ = _
    rw [h]; rfl
  exact sampleRole_at W (judgeStandstillGroups_halt_walk W.toHaltWalk (serveStops_at W.toStoreWalk W.toRouteWalk
    (judgeVigilance_at W.toVigilWalk (removeCauses_at W.toHaltWalk flagged))))

@[simp] theorem judgeStandstillGroups_route (s : State) : (judgeStandstillGroups s).route = s.route := by
  unfold judgeStandstillGroups; dsimp only; split <;> simp

/-- The route distance and residue. -/
def Stands (d x : Nat) (u : State) : Prop := u.route.distance = d ∧ u.route.residue = x

theorem stands_of_route {d x : Nat} {u v : State} (same : v.route = u.route) (h : Stands d x u) : Stands d x v := by
  unfold Stands at *; rwa [same]

theorem stands_walk (d x : Nat) : QuietWalk (fun _ => True) (Stands d x) := quietPlace d x

/-- The flag moves nothing. -/
theorem setStandstill_stands {d x : Nat} (h : Stands d x s) : Stands d x (setStandstill s) := by
  have W := stands_walk d x
  have flagged : At (Stands d x) (latchStopped true ((releaseSand s).setAxle { (releaseSand s).axle with standstill := true })) :=
    W.sand (s := s) h
  have served := serveStops_quiet W (judgeVigilance_quiet W (removeCauses_quiet W (cs := [.rollback]) (fun _ _ => trivial) flagged))
  exact sampleRole_quiet W (fun h => h) (stands_of_route (judgeStandstillGroups_route _) served)

theorem setStandstill_distance (s : State) : (setStandstill s).route.distance = s.route.distance :=
  (setStandstill_stands (d := s.route.distance) (x := s.route.residue) ⟨rfl, rfl⟩).1

/-! ### The judgement of standstill -/

/-- A judgement that leaves the flag clear leaves the role and the coupled flag (R72). -/
theorem judgeStandstill_moving (h : (judgeStandstill s).axle.standstill = false) :
    (judgeStandstill s).lines.role = s.lines.role ∧ (judgeStandstill s).lines.coupled = s.lines.coupled := by
  have W := role_walk s.lines.role s.lines.coupled
  have start : At (fun u => u.lines.role = s.lines.role ∧ u.lines.coupled = s.lines.coupled) s := ⟨rfl, rfl⟩
  revert h
  unfold judgeStandstill
  dsimp only
  split
  · exact fun _ => start
  · split
    · split
      · intro h; rw [setStandstill_axle] at h; cases h
      · exact fun _ => start
    · split
      · exact fun _ => clearStandstill_trip W (W.axle start)
      · exact fun _ => start

/-- A judgement of standstill keeps the role, or samples it (R72). -/
theorem judgeStandstill_role (s : State) :
    (judgeStandstill s).lines.role = s.lines.role ∨
      (judgeStandstill s).lines.role = roleTable s.lines.role s.pins.activeCab s.pins.coupling := by
  have W := role_walk s.lines.role s.lines.coupled
  have start : At (fun u => u.lines.role = s.lines.role ∧ u.lines.coupled = s.lines.coupled) s := ⟨rfl, rfl⟩
  unfold judgeStandstill
  dsimp only
  split
  · exact .inl rfl
  · split
    · split
      · exact .inr (setStandstill_role _).1
      · exact .inl rfl
    · split
      · exact .inl (clearStandstill_trip W (W.axle start)).1
      · exact .inl rfl

/-- The flag and the run after a judgement of standstill (R14). -/
theorem judgeStandstill_lost (h : s.axle.source = .lost) : judgeStandstill s = s := if_pos h

theorem judgeStandstill_slow (h : s.axle.source ≠ .lost)
    (slow : (s.axle.refSpeed.natAbs : Int) < s.cfg Setting.standstillThreshold) :
    (judgeStandstill s).axle.standstillRun = some (continuedRun s) ∧
      ((judgeStandstill s).axle.standstill = true ↔ s.axle.standstill = true ∨ 500 ≤ continuedRun s) := by
  unfold judgeStandstill
  rw [if_neg h, if_pos slow]
  dsimp only
  split
  next long => rw [setStandstill_axle]; exact ⟨rfl, by simp [long.1]⟩
  next short =>
    refine ⟨rfl, ?_⟩
    show s.axle.standstill = true ↔ _
    cases e : s.axle.standstill with
    | true => simp
    | false => simpa [e] using short

theorem judgeStandstill_fast (h : s.axle.source ≠ .lost)
    (fast : ¬(s.axle.refSpeed.natAbs : Int) < s.cfg Setting.standstillThreshold) :
    (judgeStandstill s).axle.standstillRun = none ∧ (judgeStandstill s).axle.standstill = false := by
  unfold judgeStandstill
  rw [if_neg h, if_neg fast]
  dsimp only
  split
  · rw [clearStandstill_axle]; exact ⟨rfl, rfl⟩
  next clear => exact ⟨rfl, by simpa using clear⟩

end Sys2Proof.Machine
end

section
/-! The statements about standstill, the role and the axle unit's thresholds. -/

namespace Sys2Proof.Machine

variable {s t : State}

/-! ### Standstill and the role at a sample -/

/-- The state of a sample in which standstill is judged. -/
def agreed (s : State) : State := judgeAgreement .ax3 (judgeAgreement .ax2 (referenced s))

/-- What the stages before the judgement of standstill leave, and what they have published. -/
structure ReadyForStandstill (s t v : State) : Prop where
  now : v.now = s.now
  pins : v.pins = s.pins
  role : v.lines.role = s.lines.role
  coupled : v.lines.coupled = s.lines.coupled
  standstill : v.axle.standstill = s.axle.standstill
  run : v.axle.standstillRun = s.axle.standstillRun
  last : v.axle.lastSample = s.axle.lastSample
  source : v.axle.source = t.axle.source
  refSpeed : v.axle.refSpeed = t.axle.refSpeed
  threshold : v.cfg Setting.standstillThreshold = s.cfg Setting.standstillThreshold

/-- The agreement judgement touches none of it. -/
theorem ReadyForStandstill.agreement {v : State} (h : ReadyForStandstill s t v) (r : RefAxle) :
    ReadyForStandstill s t (judgeAgreement r v) := by
  rw [judgeAgreement_eq]
  have kept := judgeAgreement_kept r v
  rw [judgeAgreement_eq] at kept
  exact { h with
    standstill := by simpa using h.standstill
    run := by simpa using h.run
    last := by simpa using h.last
    source := kept.source.trans h.source
    refSpeed := kept.refSpeed.trans h.refSpeed }

theorem referenced_ready (ht : speedSample s = t) : ReadyForStandstill s t (referenced s) := by
  obtain ⟨source, refSpeed, -⟩ := speedSample_reference s
  rw [ht] at source refSpeed
  have blocks := formed_blocks s
  have selected : (referenced s).axle = _ := selectReference_axle (formed s)
  have W := role_walk s.lines.role s.lines.coupled
  have lines : At (fun u => u.lines.role = s.lines.role ∧ u.lines.coupled = s.lines.coupled) (referenced s) :=
    reportSource_quiet W.toQuietWalk trivial (fun _ _ h => h) (fun _ _ h => h)
      (show At _ ((formed s).setAxle _) from ⟨congrArg (·.role) blocks.lines, congrArg (·.coupled) blocks.lines⟩)
  exact {
    now := referenced_now s
    pins := (reportSource_pins _ _ _ _).trans blocks.pins
    role := lines.1
    coupled := lines.2
    standstill := (congrArg (·.standstill) selected).trans blocks.standstill
    run := (congrArg (·.standstillRun) selected).trans blocks.standstillRun
    last := (congrArg (·.lastSample) selected).trans blocks.lastSample
    source := (congrArg (·.source) selected).trans source.symm
    refSpeed := (congrArg (·.refSpeed) selected).trans refSpeed.symm
    threshold := referenced_cfg s rfl }

theorem agreed_ready (ht : speedSample s = t) : ReadyForStandstill s t (agreed s) :=
  ((referenced_ready ht).agreement .ax2).agreement .ax3

theorem afterReference_eq (u : State) : afterReference u =
    routeSample (if (judgeStandstill (judgeAgreement .ax3 (judgeAgreement .ax2 u))).axle.standstill then
      sampleRole (judgeStandstill (judgeAgreement .ax3 (judgeAgreement .ax2 u)))
    else judgeStandstill (judgeAgreement .ax3 (judgeAgreement .ax2 u))) := rfl

/-- A sample from the judgement of standstill on: the role sampled at standstill, the route, the times noted. -/
theorem speedSample_agreed (s : State) : ∃ u, u = routeSample (if (judgeStandstill (agreed s)).axle.standstill then
      sampleRole (judgeStandstill (agreed s)) else judgeStandstill (agreed s)) ∧
    speedSample s = u.setAxle { u.axle with lastSample := s.now, sampleDue := s.now + Config.period } :=
  ⟨tripped s, by unfold tripped agreed; exact afterReference_eq _, speedSample_tripped s⟩

/-- The flag, its run, the role and the coupled flag of a sample are those left when the role has been sampled (R14, R72). -/
theorem speedSample_role (ht : speedSample s = t) :
    t.axle.standstill = (judgeStandstill (agreed s)).axle.standstill ∧
    t.axle.standstillRun = (judgeStandstill (agreed s)).axle.standstillRun ∧
    (t.axle.standstill = true → t.lines.role = (sampleRole (judgeStandstill (agreed s))).lines.role ∧
      t.lines.coupled = (sampleRole (judgeStandstill (agreed s))).lines.coupled) ∧
    (t.axle.standstill = false → t.lines.role = (judgeStandstill (agreed s)).lines.role ∧
      t.lines.coupled = (judgeStandstill (agreed s)).lines.coupled) := by
  obtain ⟨m, hm, e⟩ := speedSample_agreed s
  rw [ht] at e
  generalize judgeStandstill (agreed s) = u at hm ⊢
  have routed : ∀ v : State, (routeSample v).lines.role = v.lines.role ∧ (routeSample v).lines.coupled = v.lines.coupled :=
    fun v => routeSample_trip (role_walk v.lines.role v.lines.coupled) ⟨rfl, rfl⟩
  subst e hm
  cases h : u.axle.standstill with
  | true =>
    obtain ⟨role, coupled⟩ := routed (sampleRole u)
    simp only [if_true, State.setAxle_axle, State.setAxle_lines, routeSample_axle, sampleRole_axle, h, role, coupled]
    simp
  | false =>
    obtain ⟨role, coupled⟩ := routed u
    simp only [Bool.false_eq_true, if_false, State.setAxle_axle, State.setAxle_lines, routeSample_axle, h, role, coupled]
    simp

theorem sample_standstill_slow (ht : speedSample s = t) (source : t.axle.source ≠ .lost)
    (slow : (t.axle.refSpeed.natAbs : Int) < s.cfg Setting.standstillThreshold) :
    t.axle.standstillRun = some (continuedRun s) ∧
      (t.axle.standstill = true ↔ s.axle.standstill = true ∨ 500 ≤ continuedRun s) := by
  have ready := agreed_ready ht
  obtain ⟨flag, run, -⟩ := speedSample_role ht
  have judged := judgeStandstill_slow (by rw [ready.source]; exact source) (by rw [ready.refSpeed, ready.threshold]; exact slow)
  have same : continuedRun (agreed s) = continuedRun s := by
    unfold continuedRun; rw [ready.run, ready.now, ready.last]
  rwa [← flag, ← run, same, ready.standstill] at judged

theorem sample_standstill_fast (ht : speedSample s = t) (source : t.axle.source ≠ .lost)
    (fast : ¬(t.axle.refSpeed.natAbs : Int) < s.cfg Setting.standstillThreshold) :
    t.axle.standstillRun = none ∧ t.axle.standstill = false := by
  have ready := agreed_ready ht
  obtain ⟨flag, run, -⟩ := speedSample_role ht
  have judged := judgeStandstill_fast (by rw [ready.source]; exact source) (by rw [ready.refSpeed, ready.threshold]; exact fast)
  rwa [← flag, ← run] at judged

theorem sample_standstill_lost (ht : speedSample s = t) (source : t.axle.source = .lost) :
    t.axle.standstill = s.axle.standstill ∧ t.axle.standstillRun = s.axle.standstillRun := by
  have ready := agreed_ready ht
  obtain ⟨flag, run, -⟩ := speedSample_role ht
  have judged := judgeStandstill_lost (ready.source.trans source)
  exact ⟨flag.trans ((congrArg (·.axle.standstill) judged).trans ready.standstill),
    run.trans ((congrArg (·.axle.standstillRun) judged).trans ready.run)⟩

/-- At standstill the role is that of R72's table, sampled once or, in the sample that sets the flag, twice. -/
theorem sample_role_stopped (ht : speedSample s = t) (h : t.axle.standstill = true) :
    t.lines.role = roleTable s.lines.role s.pins.activeCab s.pins.coupling ∧ t.lines.coupled = s.pins.coupling := by
  have ready := agreed_ready ht
  obtain ⟨-, -, stopped, -⟩ := speedSample_role ht
  obtain ⟨role, coupled⟩ := sampleRole_role (judgeStandstill (agreed s))
  have pins : (judgeStandstill (agreed s)).pins = s.pins :=
    (judgeStandstill_trip (tripKept_walk (agreed s)) (tripKept_role _) trivial (.refl _)).pins.trans ready.pins
  rw [← (stopped h).1, pins] at role
  rw [← (stopped h).2, pins] at coupled
  refine ⟨role.trans ?_, coupled⟩
  rcases judgeStandstill_role (agreed s) with e | e
  · rw [e, ready.role]
  · rw [e, ready.role, ready.pins, roleTable_again]

theorem sample_role_moving (ht : speedSample s = t) (h : t.axle.standstill = false) :
    t.lines.role = s.lines.role ∧ t.lines.coupled = s.lines.coupled := by
  have ready := agreed_ready ht
  obtain ⟨flag, -, -, moving⟩ := speedSample_role ht
  obtain ⟨role, coupled⟩ := judgeStandstill_moving (flag.symm.trans h)
  exact ⟨(moving h).1.trans (role.trans ready.role), (moving h).2.trans (coupled.trans ready.coupled)⟩

/-- Settles O24, clause by clause, at the sample's due time. -/
theorem standstillGatesRole : Obligations.StandstillGatesRole := by
  intro s t ht
  have sample := exec_speedSample ht
  have lost := sample_standstill_lost sample
  have slow := sample_standstill_slow sample
  have fast := sample_standstill_fast sample
  have stopped := sample_role_stopped sample
  have moving := sample_role_moving sample
  exact ⟨lost, slow, fast, stopped, moving⟩

/-! ### The thresholds -/

/-- AXLE_SUSPECT at the end of the run: the slower axle SUSPECT, the reference taken on the other (R8). -/
theorem execAxleSuspect_due {start : Nat} (h2 : s.axle.ax2.state = .ok) (h3 : s.axle.ax3.state = .ok)
    (run : s.axle.disagreement = some start) :
    execAxleSuspect s = .next (singleOnOther (slowerRef s)
      (suspectSlower (s.reach (start + (s.cfgN Setting.disagreementTime / 10 + 1) * 10)))) := by
  have due : suspectAt s = some (start + (s.cfgN Setting.disagreementTime / 10 + 1) * 10) := by
    unfold suspectAt bothRefsOk
    rw [h2, h3, run]; rfl
  unfold execAxleSuspect
  rw [due]; rfl

theorem axleSuspect_due (start : Nat) (h2 : s.axle.ax2.state = .ok) (h3 : s.axle.ax3.state = .ok)
    (run : s.axle.disagreement = some start) :
    let suspect := fun c : AxleChannel => { c with state := .suspect, shown := { c.shown with state := .suspect } }
    let v2 := s.axle.ax2.speed
    let v3 := s.axle.ax3.speed
    let u := raise 10 (if v2.natAbs < v3.natAbs then 2 else 3) ((v2 - v3).natAbs : Nat)
      (s.reach (start + (s.cfgN Setting.disagreementTime / 10 + 1) * 10))
    exec .axleSuspect s = .next (u.setAxle (
      if v2.natAbs < v3.natAbs then { s.axle with
        disagreement := none, shownRun := 0, ax2 := suspect s.axle.ax2, source := .single .ax3, refSpeed := v3 }
      else { s.axle with
        disagreement := none, shownRun := 0, ax3 := suspect s.axle.ax3, source := .single .ax2, refSpeed := v2 })) := by
  intro suspect v2 v3 u
  refine (execAxleSuspect_due h2 h3 run).trans (congrArg Host.Outcome.next ?_)
  by_cases slower : v2.natAbs < v3.natAbs
  · have first : slowerRef s = .ax2 := if_pos slower
    have first' : ∀ n, slowerRef (s.reach n) = .ax2 := fun _ => first
    unfold suspectSlower
    rw [first, first', if_pos slower]
    show _ = (raise 10 _ _ _).setAxle _
    rw [if_pos slower]; rfl
  · have second : slowerRef s = .ax3 := if_neg slower
    have second' : ∀ n, slowerRef (s.reach n) = .ax3 := fun _ => second
    unfold suspectSlower
    rw [second, second', if_neg slower]
    show _ = (raise 10 _ _ _).setAxle _
    rw [if_neg slower]; rfl

/-- AGREEMENT_RUN_COMPLETE at the end of the run (R9). -/
theorem agreementRunComplete_due (r : RefAxle) {start : Nat} (own : (s.axle.channel (refChannel r)).state = .suspect)
    (partner : (s.axle.channel (refChannel (otherRef r))).state = .ok)
    (run : (s.axle.channel (refChannel r)).agreement = some start) :
    execAgreementRunComplete r s = .next (returnToOk r (s.reach (start + 10000))) := by
  have due : agreedAt r s = some (start + 10000) := by
    unfold agreedAt
    rw [if_pos ⟨own, partner⟩, run]; rfl
  unfold execAgreementRunComplete
  rw [due]; rfl

/-- STANDSTILL_SET at the moment the run reaches 500 ms (R14). -/
theorem standstillSet_due {run : Nat} (flag : s.axle.standstill = false) (source : s.axle.source ≠ .lost)
    (under : s.axle.standstillRun = some run) : ∃ n, exec .standstillSet s = .next (setStandstill
      ((s.reach n).setAxle { s.axle with standstillRun := some 500 })) := by
  have due : standstillAt s = some (s.axle.lastSample + (500 - run)) := by
    unfold standstillAt
    rw [if_neg (by simp [flag, source]), under]; rfl
  refine ⟨s.axle.lastSample + (500 - run), ?_⟩
  show execStandstillSet s = _
  unfold execStandstillSet
  rw [due]; rfl

/-- Settles O25. -/
theorem axleThresholdsAct : Obligations.AxleThresholdsAct := by
  intro s suspect agreed
  refine ⟨axleSuspect_due, fun start own partner run => ?_, fun start own partner run => ?_, fun run flag source under => ?_⟩
  · exact agreementRunComplete_due .ax2 own partner run
  · exact agreementRunComplete_due .ax3 own partner run
  · obtain ⟨n, done⟩ := standstillSet_due flag source under
    obtain ⟨role, coupled⟩ := setStandstill_role ((s.reach n).setAxle { s.axle with standstillRun := some 500 })
    refine ⟨_, done, ?_, ?_, setStandstill_sand _, setStandstill_rollback _, fun r latch => setStandstill_latch latch, role,
      coupled, setStandstill_distance _⟩
    · rw [setStandstill_axle]
    · rw [setStandstill_axle]; rfl

end Sys2Proof.Machine
end

section
/-! POWER-UP (R180): the reset values, and what the pins make of them. -/

namespace Sys2Proof.Machine

/-- POWER-UP before it samples its pins: every block at its reset values, at time 0. -/
def fresh (s : State) : State := (resetBlocks (s.setNow 0)).setHost .atReset

/-- The role sampled on the reset values (R72, R81). -/
def roled (s : State) : State :=
  { fresh s with
    lines := { TrainLines.atReset 0 with
      role := roleTable .noCab s.pins.activeCab s.pins.coupling, coupled := s.pins.coupling }
    route := { RouteEngine.atReset with setLength := if s.pins.coupling then 640 else 320 } }

theorem sampleRole_fresh (s : State) : sampleRole (fresh s) = roled s := by
  unfold sampleRole
  rw [roleFrom_eq]
  unfold roled
  have a : (fresh s).pins.activeCab = s.pins.activeCab := rfl
  have c : (fresh s).pins.coupling = s.pins.coupling := rfl
  rw [a, c]
  cases s.pins.activeCab <;> cases s.pins.coupling <;> rfl

theorem senseHalt_released (s : State) (h : s.pins.haltLine = false) : senseHalt (roled s) = roled s := by
  have e : (roled s).pins.haltLine = false := h
  unfold senseHalt
  rw [e]; rfl

/-- A HALT line asserted at the reset sets the latch (R62, log entry 55). -/
theorem senseHalt_asserted (s : State) (h : s.pins.haltLine = true) : senseHalt (roled s) =
    (setLatch .trainline (roled s)).setHalt { (setLatch .trainline (roled s)).halt with
      causes := { Causes.none with trainline := true } } := by
  have e : (roled s).pins.haltLine = true := h
  unfold senseHalt
  rw [e]; rfl

/-- What POWER-UP leaves, but for the junction unit: `u` is the state once the HALT line is sensed, or once the loop is judged. -/
structure Restored (s u : State) : Prop where
  now : u.now = 0
  pins : u.pins = s.pins
  role : u.lines.role = roleTable .noCab s.pins.activeCab s.pins.coupling
  coupled : u.lines.coupled = s.pins.coupling
  route : u.route = { RouteEngine.atReset with setLength := if s.pins.coupling then 640 else 320 }
  causes : u.halt.causes = { Causes.none with trainline := s.pins.haltLine }
  latch : u.halt.latch.isSome = s.pins.haltLine
  axle : u.axle = (fresh s).axle
  effort : u.traction.effort = 0
  effective : u.settings.effective = []
  pending : u.settings.pending = []
  powerUp : ⟨1, 0, false, 0, 0⟩ ∈ u.host.events
  lastReset : u.host.lastReset = .powerUp

theorem senseHalt_restored (s : State) : Restored s (senseHalt (roled s)) ∧ (senseHalt (roled s)).junction = .atReset ∧
    (senseHalt (roled s)).host.events.length < Config.maxEvents := by
  cases h : s.pins.haltLine with
  | false =>
    rw [senseHalt_released s h]
    exact ⟨⟨rfl, rfl, rfl, rfl, rfl, by rw [h]; rfl, by rw [h]; rfl, rfl, rfl, rfl, rfl, List.mem_cons_self, rfl⟩, rfl,
      (by decide : 1 < Config.maxEvents)⟩
  | true =>
    rw [senseHalt_asserted s h]
    have held : (setLatch .trainline (roled s)).host.events = [⟨30, 3, false, 0, 0⟩, ⟨1, 0, false, 0, 0⟩] := rfl
    rw [← State.setHalt_host] at held
    exact ⟨⟨rfl, rfl, rfl, rfl, rfl, by rw [h]; rfl, by rw [h]; rfl, rfl, rfl, rfl, rfl, by rw [held]; decide, rfl⟩, rfl,
      by rw [held]; decide⟩

/-- A set with room keeps its records where an event of another kind is raised (R177). -/
theorem raise_keeps {k j : Nat} {v : Int} {s : State} {x : EventRecord} (room : s.host.events.length < Config.maxEvents)
    (other : k ≠ x.kind) (h : x ∈ s.host.events) : x ∈ (raise k j v s).host.events := by
  unfold raise enterEvent
  rw [State.setHost_host]
  dsimp only
  split
  · exact List.mem_map.2 ⟨x, h, if_neg fun e => other e.1.symm⟩
  · exact mem_insertEvent_iff.2 (.inr h)

theorem powerUp_eq (s : State) : powerUp s =
    if s.pins.loopOk then senseHalt (roled s) else enterLoopFault (senseHalt (roled s)) := by
  have pins : (senseHalt (roled s)).pins = s.pins := (senseHalt_restored s).1.pins
  have roled := sampleRole_fresh s
  show endReset (fresh s) = _
  unfold endReset
  dsimp only
  rw [roled, pins]

/-- A FAULT of the loop touches the junction unit and the event set alone (R106). -/
theorem Restored.loopFault {s u : State} (h : Restored s u) (room : u.host.events.length < Config.maxEvents) :
    Restored s (enterLoopFault u) :=
  { h with powerUp := raise_keeps room (by decide) h.powerUp }

/-- Settles O45. -/
theorem powerUpRestoresReset : Obligations.PowerUpRestoresReset := by
  intro s
  refine ⟨fun cab partner halt loop => ?_, ?_⟩
  · show Host.Outcome.next (powerUp s) = _
    rw [powerUp_eq, if_pos loop, senseHalt_released s halt]
    unfold roled
    rw [cab, partner]; rfl
  · obtain ⟨sensed, junction, room⟩ := senseHalt_restored s
    have ended : Restored s (powerUp s) ∧ (powerUp s).junction.loop = (if s.pins.loopOk then .normal else .fault) ∧
        (powerUp s).junction.transmitter = .idle := by
      rw [powerUp_eq]
      cases s.pins.loopOk with
      | true => exact ⟨sensed, congrArg (·.loop) junction, congrArg (·.transmitter) junction⟩
      | false => exact ⟨sensed.loopFault room, rfl, rfl⟩
    obtain ⟨done, loop, transmitter⟩ := ended
    exact ⟨powerUp s, rfl, done.now, done.pins, done.role, done.coupled, congrArg (·.setLength) done.route, done.causes,
      by rw [done.latch], loop, transmitter, congrArg (·.standstill) done.axle, congrArg (·.refSpeed) done.axle, done.effort,
      congrArg (·.table) done.route, done.effective, done.pending, done.powerUp, done.lastReset⟩

end Sys2Proof.Machine
end

section
/-! The reference travel of a sample, and the route distance it moves to (R12, R84, R85). -/

namespace Sys2Proof.Machine

variable {s t : State}

/-! ### The reference travel -/

/-- A channel's travel at a sample: its delta in units of T (R12). -/
theorem formed_travel (s : State) (i : AxleId) : channelTravel (formed s) i =
    ((s.axle.channel i).count - (s.axle.channel i).prevCount).toInt * s.cfg (Setting.travel i) := by
  have ring : ((formed s).axle.channel i).ring = (sampled s i).ring := by
    rcases formed_channel s i with e | e <;> rw [e]; rfl
  unfold channelTravel
  rw [ring, formed_cfg]
  show (((s.axle.channel i).takeMode _).ring.tail ++ [_]).getLastD 0 * _ = _
  rw [takeMode_count, takeMode_prevCount, List.getLastD_concat]

/-- The reference travel under the source of the sample (R12). -/
theorem sample_refTravel (ht : speedSample s = t) :
    let gain := fun i => ((s.axle.channel i).count - (s.axle.channel i).prevCount).toInt * s.cfg (Setting.travel i)
    t.axle.refTravel = signed s.axle.sense (match t.axle.source with
      | .mean => (gain .ax2 + gain .ax3).tdiv 2
      | .larger i => gain i
      | .single i => gain i
      | .degraded i => gain i
      | .lost => 0) := by
  intro gain
  obtain ⟨source, -, -, -, travel⟩ := speedSample_reference s
  rw [ht] at source travel
  rw [travel, ← source, apply_signed]
  congr 1
  unfold travelOf
  cases t.axle.source <;> simp only [formed_travel] <;> rfl

/-! ### The settled distance -/

theorem settleDistance_eq (d x : Nat) (v : Int) : settleDistance d x v =
    if ((d : Int) * 25600 + x + v) / 25600 < 0 then (0, 0)
    else if 16000000 < ((d : Int) * 25600 + x + v) / 25600 then (16000000, 0)
    else ((((d : Int) * 25600 + x + v) / 25600).toNat, (((d : Int) * 25600 + x + v) % 25600).toNat) := rfl

theorem settleDistance_below {d x : Nat} {v : Int} (h : (d : Int) * 25600 + x + v < 0) : settleDistance d x v = (0, 0) := by
  rw [settleDistance_eq, if_pos (by omega)]

theorem settleDistance_above {d x : Nat} {v : Int} (h : 16000001 * 25600 ≤ (d : Int) * 25600 + x + v) :
    settleDistance d x v = (16000000, 0) := by
  rw [settleDistance_eq, if_neg (by omega), if_pos (by omega)]

theorem settleDistance_within {d x : Nat} {v : Int} (h : 0 ≤ (d : Int) * 25600 + x + v)
    (h' : (d : Int) * 25600 + x + v < 16000001 * 25600) :
    ((settleDistance d x v).1 : Int) * 25600 + (settleDistance d x v).2 = (d : Int) * 25600 + x + v ∧
      (settleDistance d x v).2 < 25600 := by
  rw [settleDistance_eq, if_neg (by omega), if_neg (by omega)]
  dsimp only
  omega

/-! ### From the stages to the route distance -/

/-- The state in which a sample comes to the route engine. -/
def beforeRoute (s : State) : State :=
  if (judgeStandstill (agreed s)).axle.standstill then sampleRole (judgeStandstill (agreed s)) else judgeStandstill (agreed s)

/-- A sample is its route part, and the times it notes. -/
theorem speedSample_routed (ht : speedSample s = t) : ∃ last due, t = (routeSample (beforeRoute s)).setAxle
    { (routeSample (beforeRoute s)).axle with lastSample := last, sampleDue := due } := by
  obtain ⟨u, hu, e⟩ := speedSample_agreed s
  rw [ht] at e
  unfold beforeRoute
  rw [e, ← hu]; exact ⟨_, _, rfl⟩

/-- The agreement runs leave all but the axle unit. -/
theorem agreed_eq (s : State) : ∃ x, agreed s = (referenced s).setAxle x := by
  unfold agreed
  rw [judgeAgreement_eq .ax3, judgeAgreement_eq .ax2]; exact ⟨_, rfl⟩

theorem agreed_route (s : State) : (agreed s).route = s.route := by
  obtain ⟨x, e⟩ := agreed_eq s
  have selected : (referenced s).route = (formed s).route := reportSource_route _ _ _ _
  rw [e, State.setAxle_route, selected, (formed_blocks s).route]

theorem clearStandstill_route (s : State) : (clearStandstill s).route = s.route := by
  unfold clearStandstill latchStopped; simp

theorem judgeStandstill_stands {d x : Nat} (h : Stands d x s) : Stands d x (judgeStandstill s) := by
  have counted : ∀ run, Stands d x (s.setAxle { s.axle with standstillRun := run }) := fun _ => h
  unfold judgeStandstill
  exact ite_at (P := Stands d x) (fun _ => h) fun _ => ite_at
    (fun _ => ite_at (fun _ => setStandstill_stands (counted _)) fun _ => counted _) fun _ =>
    ite_at (fun _ => stands_of_route (clearStandstill_route _) (counted none)) fun _ => counted none

/-- What comes before the route engine moves nothing. -/
theorem beforeRoute_stands (s : State) : Stands s.route.distance s.route.residue (beforeRoute s) := by
  have start : Stands s.route.distance s.route.residue (agreed s) := stands_of_route (agreed_route s) ⟨rfl, rfl⟩
  unfold beforeRoute
  generalize agreed s = u at start ⊢
  have judged := judgeStandstill_stands start
  exact ite_at (fun _ => sampleRole_quiet (stands_walk _ _) (fun h => h) judged) fun _ => judged

/-- The place a sample moves the route to (R84, R85). -/
def placeAfter (active : Bool) (source : RefSource) (d x : Nat) (travel : Int) : Nat × Nat :=
  if active = true ∧ source ≠ .lost then settleDistance d x travel else (d, x)

/-- The place the route engine moves to at a sample. -/
def movedPlace (u : State) : Nat × Nat :=
  placeAfter u.route.active u.axle.source u.route.distance u.route.residue u.axle.refTravel

theorem routeSample_stands (u : State) : Stands (movedPlace u).1 (movedPlace u).2 (routeSample u) := by
  have W := stands_walk (movedPlace u).1 (movedPlace u).2
  unfold routeSample
  refine endRoute_quiet W ?_
  split
  next moving =>
    have place : movedPlace u = settleDistance u.route.distance u.route.residue u.axle.refTravel := if_pos moving
    have moved : Stands (movedPlace u).1 (movedPlace u).2 (u.setRoute { u.route with
        distance := (settleDistance u.route.distance u.route.residue u.axle.refTravel).1
        residue := (settleDistance u.route.distance u.route.residue u.axle.refTravel).2 }) := by rw [place]; exact ⟨rfl, rfl⟩
    exact ite_at (fun _ => sweepMarks_quiet W _ moved) fun _ => moved
  next standing =>
    have place : movedPlace u = (u.route.distance, u.route.residue) := if_neg standing
    rw [place]; exact ⟨rfl, rfl⟩

/-- What the route engine of a sample is handed of the reference, and of the route. -/
theorem beforeRoute_reference (ht : speedSample s = t) : (beforeRoute s).axle.source = t.axle.source ∧
    (beforeRoute s).axle.refTravel = t.axle.refTravel ∧ (beforeRoute s).route.active = s.route.active ∧
    t.route.active = s.route.active := by
  have active : t.route.active = s.route.active := ht ▸ (speedSample_tripKept s).active
  obtain ⟨last, due, e⟩ := speedSample_routed ht
  generalize beforeRoute s = u at e ⊢
  have kept : TripKept u (routeSample u) := routeSample_trip (tripKept_walk u) (.refl u)
  subst e
  rw [State.setAxle_route, kept.active] at active
  rw [State.setAxle_axle, State.setAxle_route, routeSample_axle, kept.active]
  exact ⟨rfl, rfl, active, active⟩

/-- The place of the tram after a sample (R84, R85). -/
theorem sample_place (ht : speedSample s = t) : ∃ p,
    p = placeAfter s.route.active t.axle.source s.route.distance s.route.residue t.axle.refTravel ∧ Stands p.1 p.2 t := by
  obtain ⟨source, travel, active, -⟩ := beforeRoute_reference ht
  have stood := beforeRoute_stands s
  obtain ⟨last, due, e⟩ := speedSample_routed ht
  rw [← source, ← travel, ← active, ← stood.1, ← stood.2]
  exact ⟨_, rfl, stands_of_route (congrArg (·.route) e) (routeSample_stands (beforeRoute s))⟩

/-- The route distance and residue after a sample (R12, R84, R85). -/
theorem sample_moves (ht : speedSample s = t) :
    let total : Int := (s.route.distance : Int) * 25600 + s.route.residue + t.axle.refTravel
    (s.route.active = false ∨ t.axle.source = .lost →
      t.route.distance = s.route.distance ∧ t.route.residue = s.route.residue) ∧
    (s.route.active = true → t.axle.source ≠ .lost →
      (total < 0 → t.route.distance = 0 ∧ t.route.residue = 0) ∧
      (0 ≤ total → total < 16000001 * 25600 →
        (t.route.distance : Int) * 25600 + t.route.residue = total ∧ t.route.residue < 25600) ∧
      (16000001 * 25600 ≤ total → t.route.distance = 16000000 ∧ t.route.residue = 0)) := by
  obtain ⟨p, place, distance, residue⟩ := sample_place ht
  unfold placeAfter at place
  refine ⟨fun still => ?_, fun active source => ?_⟩
  · have stands : ¬(s.route.active = true ∧ t.axle.source ≠ .lost) := fun h => by
      rcases still with e | e
      · rw [e] at h; cases h.1
      · exact h.2 e
    rw [if_neg stands] at place
    subst place
    exact ⟨distance, residue⟩
  · rw [if_pos ⟨active, source⟩] at place
    rw [distance, residue, place]
    exact ⟨fun h => by rw [settleDistance_below h]; exact ⟨rfl, rfl⟩, settleDistance_within,
      fun h => by rw [settleDistance_above h]; exact ⟨rfl, rfl⟩⟩

end Sys2Proof.Machine
end

section
/-! The effective ceiling and the sand inhibit as a settled route has them (R101, R102). -/

namespace Sys2Proof.Machine

variable {s t : State}

/-! ### The terms in force -/

theorem mem_activeCeilings (s : State) (c : Int) : c ∈ activeCeilings s.route.table ↔ limits s c := by
  unfold activeCeilings limits
  rw [List.mem_filterMap]
  refine exists_congr fun e => and_congr_right fun _ => ?_
  cases e.body <;> simp

theorem anyJunction_iff (table : List Entry) (p : JunctionEntry → Bool) :
    anyJunction table p = true ↔ ∃ e ∈ table, ∃ j, e.body = .junction j ∧ p j = true := by
  unfold anyJunction Entry.junction?
  rw [List.any_eq_true]
  refine exists_congr fun e => and_congr_right fun _ => ?_
  cases e.body <;> simp

theorem approachHolds_iff (s : State) : approachHolds s = true ↔ approaches s := by
  unfold approachHolds approaches
  rw [anyJunction_iff]
  simp [JunctionState.approaching, or_assoc]

theorem referenceDegraded_iff (s : State) : referenceDegraded s = true ↔ degrades s := by
  unfold referenceDegraded degrades
  cases s.axle.source <;> simp

/-! ### The lowest term -/

/-- Of terms of one kind the lowest is taken, where it is lower than what there was (R101). -/
theorem foldl_lowerTerm (l : List Int) (a : Int × CeilingTerm) (x : CeilingTerm) :
    (l.map (·, x)).foldl lowerTerm a = a ∧ (∀ c ∈ l, a.1 ≤ c) ∨
      ∃ c ∈ l, (l.map (·, x)).foldl lowerTerm a = (c, x) ∧ c < a.1 ∧ ∀ b ∈ l, c ≤ b := by
  induction l generalizing a with
  | nil => exact .inl ⟨rfl, by simp⟩
  | cons b l ih =>
    rw [List.map_cons, List.foldl_cons]
    by_cases lower : b < a.1
    · have first : lowerTerm a (b, x) = (b, x) := if_pos lower
      rw [first]
      rcases ih (b, x) with ⟨e, le⟩ | ⟨c, hc, e, lt, le⟩
      · exact .inr ⟨b, List.mem_cons_self, e, lower, by simpa using le⟩
      · refine .inr ⟨c, List.mem_cons_of_mem _ hc, e, lt_trans lt lower, ?_⟩
        simpa using ⟨lt.le, le⟩
    · have first : lowerTerm a (b, x) = a := if_neg lower
      rw [first]
      rcases ih a with ⟨e, le⟩ | ⟨c, hc, e, lt, le⟩
      · exact .inl ⟨e, by simpa using ⟨not_lt.1 lower, le⟩⟩
      · exact .inr ⟨c, List.mem_cons_of_mem _ hc, e, lt, by simpa using ⟨lt.le.trans (not_lt.1 lower), le⟩⟩

/-- A term that may be in force is taken where it is lower than what there was (R101). -/
theorem lowerTerm_if (b : Bool) (c : Int) (a : Int × CeilingTerm) (x : CeilingTerm) : ∃ r,
    (if b then [(c, x)] else []).foldl lowerTerm a = r ∧ r.1 ≤ a.1 ∧ (b = true → r.1 ≤ c) ∧
      (r = a ∨ b = true ∧ r = (c, x) ∧ c < a.1) := by
  cases b with
  | false => exact ⟨a, rfl, le_rfl, nofun, .inl rfl⟩
  | true =>
    by_cases lower : c < a.1
    · exact ⟨(c, x), if_pos lower, lower.le, fun _ => le_rfl, .inr ⟨rfl, rfl, lower⟩⟩
    · exact ⟨a, if_neg lower, le_rfl, fun _ => not_lt.1 lower, .inl rfl⟩

/-- The line ceiling and the restrictions' (R101). -/
theorem lowerTerm_restrictions (l : List Int) (line : Int) : ∃ r,
    (l.map (·, .restriction)).foldl lowerTerm (line, .line) = r ∧ r.1 ≤ line ∧ (∀ c ∈ l, r.1 ≤ c) ∧
      (r = (line, .line) ∨ r.2 = .restriction ∧ r.1 ∈ l ∧ r.1 < line) := by
  rcases foldl_lowerTerm l (line, .line) .restriction with ⟨e, le⟩ | ⟨c, hc, e, lt, le⟩
  · exact ⟨_, e, le_rfl, le, .inl rfl⟩
  · exact ⟨_, e, lt.le, le, .inr ⟨rfl, hc, lt⟩⟩

/-- The ceiling formed is the smallest of the terms in force, and the term is the first of those (R101). -/
theorem formCeiling_formed (s : State) : CeilingFormed (formCeiling s) := by
  have limit : ∀ c, limits (formCeiling s) c ↔ c ∈ activeCeilings s.route.table := fun c => (mem_activeCeilings s c).symm
  have approach : approaches (formCeiling s) ↔ approachHolds s = true := (approachHolds_iff s).symm
  have degraded : degrades (formCeiling s) ↔ referenceDegraded s = true := (referenceDegraded_iff s).symm
  have again : lowerTerm (s.cfg Setting.lineCeiling, .line) (s.cfg Setting.lineCeiling, .line) = (s.cfg Setting.lineCeiling, .line) :=
    if_neg (lt_irrefl _)
  obtain ⟨a, ha, aLine, aLimits, aFirst⟩ := lowerTerm_restrictions (activeCeilings s.route.table) (s.cfg Setting.lineCeiling)
  obtain ⟨b, hb, bBelow, bApproach, bFirst⟩ := lowerTerm_if (approachHolds s) (s.cfg Setting.approachCeiling) a .approach
  obtain ⟨c, hc, cBelow, cDegraded, cFirst⟩ := lowerTerm_if (referenceDegraded s) (s.cfg Setting.degradedCeiling) b .degraded
  have formed : ((formCeiling s).route.ceiling, (formCeiling s).route.term) = c := by
    rw [← hc, ← hb, ← ha]
    show (ceilingTerms s).foldl lowerTerm (s.cfg Setting.lineCeiling, .line) = _
    rw [ceilingTerms, List.foldl_append, List.foldl_append, List.foldl_cons, again]
  have ceiling : (formCeiling s).route.ceiling = c.1 := congrArg Prod.fst formed
  have term : (formCeiling s).route.term = c.2 := congrArg Prod.snd formed
  have below : c.1 ≤ a.1 := cBelow.trans bBelow
  refine ⟨ceiling ▸ below.trans aLine, fun x hx => ceiling ▸ below.trans (aLimits x ((limit x).1 hx)),
    fun h => ceiling ▸ cBelow.trans (bApproach (approach.1 h)), fun h => ceiling ▸ cDegraded (degraded.1 h), ?_⟩
  rw [term, ceiling]
  rcases cFirst with rfl | ⟨hd, rfl, lowest⟩
  · rcases bFirst with rfl | ⟨hp, rfl, lower⟩
    · rcases aFirst with rfl | ⟨kind, member, low⟩
      · rfl
      · rw [kind]; exact ⟨(limit _).2 member, low⟩
    · exact ⟨approach.2 hp, rfl, lower.trans_le aLine, fun x hx => lower.trans_le (aLimits x ((limit x).1 hx))⟩
  · have lower : s.cfg Setting.degradedCeiling < a.1 := lowest.trans_le bBelow
    exact ⟨degraded.2 hd, rfl, lower.trans_le aLine, fun x hx => lower.trans_le (aLimits x ((limit x).1 hx)),
      fun h => lowest.trans_le (bApproach (approach.1 h))⟩

/-! ### A settled route -/

/-- The inhibit judged leaves all but SAND and itself. -/
theorem judgeInhibit_eq (s : State) :
    ∃ x, judgeInhibit s = (s.setAdhesion x).setRoute { s.route with sandInhibit := overPoints s } := by
  unfold judgeInhibit
  split
  · rw [releaseSand_eq]; exact ⟨_, rfl⟩
  · exact ⟨s.adhesion, rfl⟩

theorem overPoints_iff (s : State) : overPoints s = true ↔ ∃ e ∈ s.route.table, ∃ j, e.body = .junction j ∧
    j.markC ≤ s.route.distance ∧ s.route.distance ≤ j.markX := by
  unfold overPoints
  rw [anyJunction_iff]
  simp

theorem judgeInhibit_formed (h : CeilingFormed s) : CeilingFormed (judgeInhibit s) ∧ InhibitFormed (judgeInhibit s) := by
  obtain ⟨x, e⟩ := judgeInhibit_eq s
  rw [e]
  exact ⟨{ h with }, overPoints_iff s⟩

theorem settleRoute_formed (s : State) : CeilingFormed (settleRoute s) ∧ InhibitFormed (settleRoute s) :=
  judgeInhibit_formed (formCeiling_formed _)

/-- A sample leaves a settled route (R101, R102). -/
theorem sample_formed (ht : speedSample s = t) : CeilingFormed t ∧ InhibitFormed t := by
  obtain ⟨last, due, e⟩ := speedSample_routed ht
  obtain ⟨ceiling, inhibit⟩ : CeilingFormed (routeSample (beforeRoute s)) ∧ InhibitFormed (routeSample (beforeRoute s)) :=
    settleRoute_formed _
  generalize routeSample (beforeRoute s) = u at *
  subst e
  exact ⟨{ ceiling with }, inhibit⟩

end Sys2Proof.Machine
end

section
/-! Entries and their marks, one crossing at a time: what a sweep makes of an entry is what its crossings make of it, one after
another (R94, R95, R96). The count of telegrams a grant raises (R111) is left out of it. -/

namespace Sys2Proof.Machine

variable {u : State}

/-! ### The crossing of one mark -/

/-- How far a signal entry has come: its states never turn back (R128, R130). -/
def SignalState.rank : SignalState → Nat
  | .ahead => 0 | .calling => 1 | .acknowledged => 1 | .calledOff => 2

theorem signalAt_rank (st : SignalState) (k : Nat) : signalAt st k = st ∨ st.rank < (signalAt st k).rank := by
  unfold signalAt
  split
  next h => rw [h.2]; exact .inr (by decide)
  · split
    next h => rcases h.2 with e | e <;> rw [e] <;> exact .inr (by decide)
    · exact .inl rfl

theorem foldl_signalAt_rank (ks : List Nat) (st : SignalState) : ks.foldl signalAt st = st ∨ st.rank < (ks.foldl signalAt st).rank := by
  induction ks generalizing st with
  | nil => exact .inl rfl
  | cons k ks ih =>
    rw [List.foldl_cons]
    rcases signalAt_rank st k with e | up
    · rw [e]; exact ih st
    · rcases ih (signalAt st k) with e | up'
      · rw [e]; exact .inr up
      · exact .inr (up.trans up')

/-- A signal entry that has come to a state: one that calls repeats at `again`, one called off repeats no more (R128, R130). -/
def SignalEntry.came (again : Nat) (st : SignalState) (g : SignalEntry) : SignalEntry :=
  { g with
    state := st
    timer := if st = g.state then g.timer else if st = .calling then some again else none }

theorem SignalEntry.came_came {again : Nat} {st st' : SignalState} {g : SignalEntry} (on : st ≠ g.state → st' ≠ g.state) :
    (g.came again st).came again st' = g.came again st' := by
  unfold SignalEntry.came
  dsimp only
  by_cases first : st = g.state
  · subst first; simp
  · rw [if_neg (on first), if_neg first]
    by_cases stays : st' = st
    · rw [stays, if_pos rfl]
    · rw [if_neg stays]

theorem EntryBody.after_signal (g : SignalEntry) (ks : List Nat) (latched : Bool) (again : Nat) :
    (EntryBody.signal g).after ks latched again = .signal (g.came again (ks.foldl signalAt g.state)) := rfl

theorem EntryBody.after_nil (b : EntryBody) (latched : Bool) (again : Nat) : b.after [] latched again = b := by
  cases b <;> simp [EntryBody.after]

/-- Crossings made one after another are crossings made together. -/
theorem EntryBody.after_cons (b : EntryBody) (k : Nat) (ks : List Nat) (latched : Bool) (again : Nat) :
    b.after (k :: ks) latched again = (b.after [k] latched again).after ks latched again := by
  cases b with
  | junction j => rfl
  | stop p => rfl
  | restriction r => rfl
  | signal g =>
    have on : signalAt g.state k ≠ g.state → ks.foldl signalAt (signalAt g.state k) ≠ g.state := fun h back => by
      have first := (signalAt_rank g.state k).resolve_left h
      rcases foldl_signalAt_rank ks (signalAt g.state k) with e | up
      · exact h (e.symm.trans back)
      · rw [back] at up; exact lt_asymm first up
    exact congrArg EntryBody.signal (SignalEntry.came_came (again := again) on).symm

theorem EntryBody.after_crossable (b : EntryBody) (ks : List Nat) (latched : Bool) (again z l : Nat) :
    (b.after ks latched again).crossable z l = b.crossable z l := by cases b <;> rfl

theorem EntryBody.crossable_marks (b : EntryBody) (z l : Nat) : b.crossable z l = b.marks z l := by cases b <;> rfl

theorem EntryBody.crossable_length (b : EntryBody) (z l : Nat) : (b.crossable z l).length ≤ 4 := by
  cases b <;> simp [EntryBody.crossable]

/-- An entry once its next mark is crossed in `u`. -/
def Entry.crossedIn (u : State) (e : Entry) : Entry :=
  { e with crossed := e.crossed + 1,
           body := e.body.after [e.crossed] u.stop.latch.isSome (u.now + u.cfgN Setting.repeatInterval) }

/-- The entry has an uncrossed mark at or below the route distance (R96). -/
def Entry.isDue (u : State) (e : Entry) : Prop := ∃ m, nextMark u e = some m ∧ m ≤ u.route.distance

/-- The uncrossed marks of an entry that a sweep in `u` crosses (R96). -/
def Entry.due (u : State) (e : Entry) : Nat :=
  (((e.body.crossable (u.cfgN Setting.zoneAfter) u.route.setLength).drop e.crossed).takeWhile
    fun m => decide (m ≤ u.route.distance)).length

theorem Entry.due_le (e : Entry) : e.due u ≤ 4 := by
  refine (List.takeWhile_sublist _).length_le.trans ?_
  rw [List.length_drop]
  exact (Nat.sub_le _ _).trans (e.body.crossable_length _ _)

/-- What a sweep in `u` leaves of an entry. -/
theorem Entry.swept_eq (e : Entry) : e.swept true u u = { e with
    crossed := e.crossed + e.due u
    body := e.body.after (List.range' e.crossed (e.due u)) u.stop.latch.isSome (u.now + u.cfgN Setting.repeatInterval) } := by
  unfold Entry.swept Entry.crossings
  simp only [if_true, List.length_range']
  rfl

/-- An entry with no mark due stays (R96). -/
theorem Entry.swept_of_due_zero {e : Entry} (h : e.due u = 0) : e.swept true u u = e := by
  rw [Entry.swept_eq, h, List.range'_zero, EntryBody.after_nil]; rfl

theorem Entry.due_zero {e : Entry} (h : ¬e.isDue u) : e.due u = 0 := by
  unfold Entry.isDue nextMark at h
  unfold Entry.due
  rw [EntryBody.crossable_marks]
  cases next : (e.body.marks (u.cfgN Setting.zoneAfter) u.route.setLength).drop e.crossed with
  | nil => rfl
  | cons m rest =>
    have first : (e.body.marks (u.cfgN Setting.zoneAfter) u.route.setLength)[e.crossed]? = some m := by
      rw [← List.head?_drop, next]; rfl
    rw [List.takeWhile_cons_of_neg (by simpa using fun le => h ⟨m, first, le⟩)]; rfl

/-- A due mark crossed leaves one mark less to cross. -/
theorem Entry.due_crossedIn {e : Entry} (h : e.isDue u) : e.due u = (e.crossedIn u).due u + 1 := by
  obtain ⟨m, next, le⟩ := h
  unfold nextMark at next
  unfold Entry.due Entry.crossedIn
  dsimp only
  rw [EntryBody.after_crossable, EntryBody.crossable_marks]
  obtain ⟨inside, rfl⟩ := List.getElem?_eq_some_iff.1 next
  rw [List.drop_eq_getElem_cons inside, List.takeWhile_cons_of_pos (by simpa using le), List.length_cons]

/-- The crossing of a due mark is part of the sweep (R96). -/
theorem Entry.swept_crossedIn {e : Entry} (h : e.isDue u) : (e.crossedIn u).swept true u u = e.swept true u u := by
  rw [Entry.swept_eq, Entry.swept_eq, Entry.due_crossedIn h, List.range'_succ, EntryBody.after_cons]
  unfold Entry.crossedIn
  dsimp only
  rw [Nat.add_assoc, Nat.add_comm 1]

/-! ### The clear points of restrictions -/

/-- The clear point of a restriction is its next mark, and lies at or below the route distance `d` (R95, R99). -/
def Entry.clears (setLength d : Nat) (e : Entry) : Prop :=
  ∃ r, e.body = .restriction r ∧ e.crossed = 1 ∧ r.finish + setLength ≤ d

/-- A clear point is crossed as any mark is (R99). -/
theorem clearRestriction_crossedIn {l d : Nat} {e : Entry} (h : e.clears l d) (v : State) :
    clearRestriction l d e = e.crossedIn v := by
  obtain ⟨r, body, crossed, le⟩ := h
  unfold clearRestriction Entry.crossedIn
  rw [body, crossed]
  dsimp only
  rw [if_pos ⟨rfl, le⟩]
  simp only [EntryBody.after, List.foldl_cons, List.foldl_nil, restrictionAt]
  by_cases active : r.state = .active <;> simp [active]

theorem clearRestriction_stays {l d : Nat} {e : Entry} (h : ¬e.clears l d) : clearRestriction l d e = e := by
  unfold clearRestriction
  cases body : e.body with
  | restriction r => exact if_neg fun c => h ⟨r, body, c.1, c.2⟩
  | junction j => rfl
  | signal g => rfl
  | stop p => rfl

/-- Where the route distance does not rise, only clear points are crossed (R95, R99). -/
theorem Entry.swept_false (e : Entry) : e.swept false u u = clearRestriction u.route.setLength u.route.distance e := by
  by_cases h : e.clears u.route.setLength u.route.distance
  · have ks : e.crossings false u.route.distance (u.cfgN Setting.zoneAfter) u.route.setLength = [1] := by
      obtain ⟨r, body, crossed, le⟩ := h
      unfold Entry.crossings
      rw [body]
      show (if e.crossed = 1 ∧ r.finish + u.route.setLength ≤ u.route.distance then [1] else []) = [1]
      exact if_pos ⟨crossed, le⟩
    rw [clearRestriction_crossedIn h u]
    obtain ⟨r, body, crossed, le⟩ := h
    unfold Entry.swept Entry.crossedIn
    rw [ks, crossed]; rfl
  · have ks : e.crossings false u.route.distance (u.cfgN Setting.zoneAfter) u.route.setLength = [] := by
      unfold Entry.crossings
      cases body : e.body with
      | restriction r =>
        show (if e.crossed = 1 ∧ r.finish + u.route.setLength ≤ u.route.distance then [1] else []) = []
        exact if_neg fun c => h ⟨r, body, c.1, c.2⟩
      | junction j => rfl
      | signal g => rfl
      | stop p => rfl
    rw [clearRestriction_stays h]
    unfold Entry.swept
    rw [ks]
    dsimp only
    rw [EntryBody.after_nil]; rfl

/-- A clear point at or below the route distance is due (R96, R99). -/
theorem Entry.clears_due {l d : Nat} {e : Entry} (h : e.clears l d) (same : u.route.setLength = l) (le : d ≤ u.route.distance) :
    e.isDue u := by
  obtain ⟨r, body, crossed, below⟩ := h
  refine ⟨r.finish + l, ?_, below.trans le⟩
  unfold nextMark
  rw [body, crossed, same]; rfl

/-- A sweep leaves no clear point to cross (R99). -/
theorem Entry.clear_of_due_zero {e : Entry} (h : e.due u = 0) :
    clearRestriction u.route.setLength u.route.distance e = e := by
  refine clearRestriction_stays fun c => ?_
  rw [Entry.due_crossedIn (Entry.clears_due c rfl le_rfl)] at h
  exact absurd h (Nat.succ_ne_zero _)

end Sys2Proof.Machine
end

section
/-! The table of a sweep: entries changed by their tags, and the mark a sweep takes next (R88, R96). -/

namespace Sys2Proof.Machine

variable {u : State}

/-! ### Entries changed by their tags -/

/-- Where no tag occurs twice, the entry of a tag stands at one place. -/
theorem mapEntry_split {x : Entry} {l : List Entry} (tags : (l.map (·.tag)).Nodup) (h : x ∈ l) :
    ∃ a b, l = a ++ x :: b ∧ ∀ f, mapEntry x.tag f l = a ++ f x :: b := by
  obtain ⟨a, b, rfl⟩ := List.append_of_mem h
  rw [List.map_append, List.map_cons, List.nodup_append] at tags
  obtain ⟨-, tail, apart⟩ := tags
  have before : ∀ e ∈ a, e.tag ≠ x.tag := fun e he =>
    apart e.tag (List.mem_map_of_mem he) x.tag List.mem_cons_self
  have after : ∀ e ∈ b, e.tag ≠ x.tag := fun e he same =>
    (List.nodup_cons.1 tail).1 (same ▸ List.mem_map_of_mem he)
  refine ⟨a, b, rfl, fun f => ?_⟩
  have stays : ∀ l : List Entry, (∀ e ∈ l, e.tag ≠ x.tag) → mapEntry x.tag f l = l := fun l hl =>
    (List.map_congr_left fun e he => if_neg (hl e he)).trans (List.map_id l)
  rw [mapEntry, List.map_append, List.map_cons, if_pos rfl]
  congr 1
  · exact stays a before
  · rw [show List.map _ b = b from stays b after]

theorem mapEntry_congr {x : Entry} {l : List Entry} {f g : Entry → Entry} (tags : (l.map (·.tag)).Nodup) (h : x ∈ l)
    (same : f x = g x) : mapEntry x.tag f l = mapEntry x.tag g l := by
  obtain ⟨a, b, -, at'⟩ := mapEntry_split tags h
  rw [at', at', same]

theorem mapEntry_mapEntry (tag : Nat) {f g : Entry → Entry} (l : List Entry) (keeps : ∀ e, (f e).tag = e.tag) :
    mapEntry tag g (mapEntry tag f l) = mapEntry tag (fun e => g (f e)) l := by
  unfold mapEntry
  rw [List.map_map]
  refine List.map_congr_left fun e _ => ?_
  by_cases h : e.tag = tag
  · simp [h, keeps]
  · simp [h]

theorem mapEntry_tags (tag : Nat) {f : Entry → Entry} (l : List Entry) (keeps : ∀ e, (f e).tag = e.tag) :
    (mapEntry tag f l).map (·.tag) = l.map (·.tag) := by
  unfold mapEntry
  rw [List.map_map]
  refine List.map_congr_left fun e _ => ?_
  by_cases h : e.tag = tag
  · simp [h, keeps]
  · simp [h]

/-- A function of entries that a change keeps is kept along the table. -/
theorem mapEntry_map {α : Type} (tag : Nat) {f : Entry → Entry} {k : Entry → α} (l : List Entry) (keeps : ∀ e, k (f e) = k e) :
    (mapEntry tag f l).map k = l.map k := by
  unfold mapEntry
  rw [List.map_map]
  refine List.map_congr_left fun e _ => ?_
  by_cases h : e.tag = tag
  · simp [h, keeps]
  · simp [h]

/-! ### The mark a sweep takes next -/

/-- One entry looked at for the mark a sweep takes next (R96). -/
def lookAt (u : State) (best : Option (Nat × Entry)) (e : Entry) : Option (Nat × Entry) :=
  match nextMark u e with
  | some m => if m ≤ u.route.distance ∧ (fun _ : Entry => true) e then earlier best e m else best
  | none => best

theorem nextCrossing_eq (u : State) :
    nextCrossing u (fun _ => true) = (u.route.table.foldl (lookAt u) none).map (·.2) := rfl

theorem lookAt_stays {e : Entry} (h : ¬e.isDue u) (best : Option (Nat × Entry)) : lookAt u best e = best := by
  unfold lookAt
  split
  next m next => exact if_neg fun le => h ⟨m, next, le.1⟩
  · rfl

theorem lookAt_takes {e : Entry} (h : e.isDue u) (best : Option (Nat × Entry)) :
    ∃ p, lookAt u best e = some p ∧ (p.2 = e ∨ best = some p) := by
  obtain ⟨m, next, le⟩ := h
  unfold lookAt earlier
  rw [next]
  dsimp only
  rw [if_pos ⟨le, rfl⟩]
  cases best with
  | none => exact ⟨(m, e), rfl, .inl rfl⟩
  | some p =>
    by_cases lower : m < p.1
    · exact ⟨(m, e), if_pos lower, .inl rfl⟩
    · exact ⟨p, if_neg lower, .inr rfl⟩

theorem foldl_lookAt_some (l : List Entry) {best : Option (Nat × Entry)} {p : Nat × Entry}
    (h : l.foldl (lookAt u) best = some p) : best = some p ∨ p.2 ∈ l ∧ p.2.isDue u := by
  induction l generalizing best with
  | nil => exact .inl h
  | cons e l ih =>
    rcases ih h with first | ⟨mem, due⟩
    · by_cases due : e.isDue u
      · obtain ⟨q, taken, from'⟩ := lookAt_takes due best
        obtain rfl : q = p := Option.some.inj (taken.symm.trans first)
        rcases from' with rfl | from'
        · exact .inr ⟨List.mem_cons_self, due⟩
        · exact .inl from'
      · rw [lookAt_stays due] at first; exact .inl first
    · exact .inr ⟨List.mem_cons_of_mem _ mem, due⟩

theorem foldl_lookAt_none (l : List Entry) {best : Option (Nat × Entry)} (h : l.foldl (lookAt u) best = none) :
    best = none ∧ ∀ e ∈ l, ¬e.isDue u := by
  induction l generalizing best with
  | nil => exact ⟨h, by simp⟩
  | cons e l ih =>
    obtain ⟨first, rest⟩ := ih h
    by_cases due : e.isDue u
    · obtain ⟨q, taken, -⟩ := lookAt_takes due best
      rw [taken] at first; cases first
    · rw [lookAt_stays due] at first
      exact ⟨first, by simpa using ⟨due, rest⟩⟩

/-- The entry a sweep takes next has a mark to cross (R96). -/
theorem nextCrossing_some {e : Entry} (h : nextCrossing u (fun _ => true) = some e) : e ∈ u.route.table ∧ e.isDue u := by
  rw [nextCrossing_eq, Option.map_eq_some_iff] at h
  obtain ⟨p, taken, rfl⟩ := h
  exact (foldl_lookAt_some _ taken).resolve_left nofun

/-- A sweep ends where no entry has a mark to cross (R96). -/
theorem nextCrossing_none (h : nextCrossing u (fun _ => true) = none) : ∀ e ∈ u.route.table, ¬e.isDue u := by
  rw [nextCrossing_eq, Option.map_eq_none_iff] at h
  exact (foldl_lookAt_none _ h).2

/-! ### A table swept entry by entry -/

/-- The marks a table has to cross in `u`. -/
def dueMarks (u : State) (l : List Entry) : Nat := (l.map (Entry.due u)).sum

theorem dueMarks_le (u : State) (l : List Entry) : dueMarks u l ≤ 4 * l.length := by
  unfold dueMarks
  refine (List.sum_le_card_nsmul _ 4 ?_).trans (by rw [List.length_map, smul_eq_mul, Nat.mul_comm])
  intro n hn
  obtain ⟨x, -, rfl⟩ := List.mem_map.1 hn
  exact x.due_le

/-- One mark crossed leaves what the sweep comes to, and one mark less to cross (R96). -/
theorem mapEntry_crossedIn {x : Entry} {l : List Entry} (tags : (l.map (·.tag)).Nodup) (h : x ∈ l) (due : x.isDue u) :
    (mapEntry x.tag (Entry.crossedIn u) l).map (Entry.swept true u u) = l.map (Entry.swept true u u) ∧
      dueMarks u l = dueMarks u (mapEntry x.tag (Entry.crossedIn u) l) + 1 := by
  obtain ⟨a, b, whole, at'⟩ := mapEntry_split tags h
  rw [at', whole]
  unfold dueMarks
  simp only [List.map_append, List.map_cons, List.sum_append, List.sum_cons, Entry.swept_crossedIn due,
    Entry.due_crossedIn due, true_and]
  omega

theorem dueMarks_zero {l : List Entry} (h : dueMarks u l = 0) : ∀ e ∈ l, e.due u = 0 := fun _ he =>
  Nat.eq_zero_of_le_zero (h ▸ List.le_sum_of_mem (List.mem_map_of_mem he))

end Sys2Proof.Machine
end

section
/-! The table through a sweep: known but for the count of the one telegram a grant may send (R111). -/

namespace Sys2Proof.Machine

variable {S : Nat → Nat} {b s u v : State} {T : List Entry} {J : List (Option JunctionState)} {P : State → Prop}

/-! ### The count of telegrams -/

/-- An entry without its count of telegrams sent. -/
def Entry.unsent (e : Entry) : Entry := { e with body := e.body.resent 0 }

/-- The state of a junction entry. -/
def Entry.junctionState (e : Entry) : Option JunctionState := e.junction?.map (·.state)

@[simp] theorem Entry.unsent_tag (e : Entry) : e.unsent.tag = e.tag := rfl

@[simp] theorem Entry.unsent_junctionState (e : Entry) : e.unsent.junctionState = e.junctionState := by
  cases e with | mk tag crossed body => cases body <;> rfl

/-- No grant follows in the sample: a turn is under way, or the unit is TRAIL (R106, R108, R115). -/
def Busy (u : State) : Prop := u.junction.transmitter ≠ .idle ∨ u.lines.role = .trail

/-- The table of `u` is `T` but for the counts of telegrams; those are `S` by tag, or one more where the grant has been. The
route distance, the set length, the clock, the stop-request unit and the settings are those of `b`, and none is pending. -/
structure Shaped (S : Nat → Nat) (b : State) (T : List Entry) (u : State) : Prop where
  table : u.route.table.map Entry.unsent = T
  counted : ∀ e ∈ u.route.table, ∀ j, e.body = .junction j →
    j.sent = S e.tag ∨ Busy u ∧ j.sent = min 65535 (S e.tag + 1)
  distance : u.route.distance = b.route.distance
  setLength : u.route.setLength = b.route.setLength
  stop : u.stop = b.stop
  now : u.now = b.now
  values : u.settings.effective = b.settings.effective
  calm : u.settings.pending = []

/-- What changes none of the fields a shape speaks of keeps it. -/
theorem Shaped.alike (h : Shaped S b T u) (table : v.route.table = u.route.table) (distance : v.route.distance = u.route.distance)
    (setLength : v.route.setLength = u.route.setLength) (busy : Busy u → Busy v) (stop : v.stop = u.stop) (now : v.now = u.now)
    (values : v.settings.effective = u.settings.effective) (calm : v.settings.pending = u.settings.pending) : Shaped S b T v where
  table := by rw [table]; exact h.table
  counted := by
    rw [table]
    exact fun e he j hj => (h.counted e he j hj).imp id fun c => ⟨busy c.1, c.2⟩
  distance := distance.trans h.distance
  setLength := setLength.trans h.setLength
  stop := stop.trans h.stop
  now := now.trans h.now
  values := values.trans h.values
  calm := calm.trans h.calm

theorem Shaped.cfg (h : Shaped S b T u) (n : Nat) : u.cfg n = b.cfg n := by
  unfold State.cfg SettingsStore.value; rw [h.values]

theorem Shaped.cfgN (h : Shaped S b T u) (n : Nat) : u.cfgN n = b.cfgN n := by
  unfold State.cfgN SettingsStore.nat SettingsStore.value; rw [h.values]

/-- The table but for the counts holds each entry but for its count. -/
theorem Shaped.unsent_mem (h : Shaped S b T u) {e : Entry} (he : e ∈ u.route.table) : e.unsent ∈ T :=
  h.table ▸ List.mem_map_of_mem he

/-! ### Settings that do not wait -/

/-- With no value pending a judged lock sets none (R168). -/
theorem judgeLock_calm (g : Group) (x : Bool) (h : s.settings.pending = []) :
    (judgeLock g x s).settings.pending = s.settings.pending ∧ (judgeLock g x s).settings.effective = s.settings.effective := by
  obtain ⟨pending, effective⟩ := judgeLock_values g x s
  rw [pending, effective, h]
  constructor <;> split <;> rfl

theorem Shaped.lock (h : Shaped S b T u) {g : Group} {x : Bool} : Shaped S b T (judgeLock g x u) := by
  obtain ⟨pending, effective⟩ := judgeLock_calm g x h.calm
  refine h.alike ?_ ?_ ?_ (fun busy => ?_) (by simp) (by simp) effective pending
  · rw [judgeLock_route]
  · rw [judgeLock_route]
  · rw [judgeLock_route]
  · unfold Busy; rw [judgeLock_junction, judgeLock_lines]; exact busy

/-- With no value pending G3 judged changes its lock alone (R104, R131, R165). -/
theorem judgeRoute_calm (h : s.settings.pending = []) : judgeRoute s = judgeLock .g3 (routeHeld s) s := by
  obtain ⟨-, effective⟩ := judgeLock_calm .g3 (routeHeld s) h
  have same : ∀ n, s.settings.value n = (judgeLock .g3 (routeHeld s) s).cfg n := fun n => by
    unfold State.cfg SettingsStore.value; rw [effective]
  unfold judgeRoute takeUpRoute
  dsimp only
  rw [if_pos (same _), if_pos]
  rw [List.all_eq_true]
  exact fun r _ => beq_iff_eq.2 (same _)

/-! ### The shape through the halt latch, vigilance and the sounds -/

theorem shaped_halt (S : Nat → Nat) (b : State) (T : List Entry) : HaltWalk (Shaped S b T) where
  raise := fun h => h.alike rfl rfl rfl id rfl rfl rfl rfl
  lock := fun h => Shaped.lock h
  sound := fun _ h => h.alike rfl rfl rfl id rfl rfl rfl rfl
  outputs := fun _ h => h.alike rfl rfl rfl id rfl rfl rfl rfl
  inhibit := fun h => by rw [enterInhibited_eq]; exact h.alike rfl rfl rfl id rfl rfl rfl rfl
  full := fun h => h.alike rfl rfl rfl id rfl rfl rfl rfl
  effortHeld := fun h => h.alike rfl rfl rfl id rfl rfl rfl rfl
  start := fun _ h => h.alike rfl rfl rfl id rfl rfl rfl rfl
  lines := fun role _ h => h.alike rfl rfl rfl (Or.imp id fun trail => role.trans trail) rfl rfl rfl rfl
  ack := fun h => h.alike rfl rfl rfl id rfl rfl rfl rfl
  latch := fun _ h => h.alike rfl rfl rfl id rfl rfl rfl rfl
  causes := fun _ h => h.alike rfl rfl rfl id rfl rfl rfl rfl

/-! ### Grants within a sweep -/

/-- The primitives of the arbiter, the slots and the signal queue where no setting is pending: a grant is the one change of the
table, and comes where none is under way (R111, R115). -/
structure SweepWalk (P : State → Prop) : Prop extends SoundWalk P where
  calm : ∀ {s}, At P s → s.settings.pending = []
  ceiling : ∀ {s c x}, At P s → At P (s.setRoute { s.route with ceiling := c, term := x })
  junction : ∀ {s u}, (s.junction.transmitter ≠ .idle → u.transmitter ≠ .idle) → At P s → At P (s.setJunction u)
  turn : ∀ {s u tag}, ¬Busy s → u.transmitter ≠ .idle → At P s →
    At P ((changeEntry tag (Entry.onJunction countSent) s).setJunction u)

theorem formCeiling_sweep (W : SweepWalk P) (h : At P s) : At P (formCeiling s) := W.ceiling h

theorem judgeRoute_sweep (W : SweepWalk P) (h : At P s) : At P (judgeRoute s) := by
  rw [judgeRoute_calm (W.calm h)]; exact W.lock h

@[simp] theorem JunctionUnit.setSlot_transmitter (x : JunctionUnit) (i : SlotId) (y : Slot) :
    (x.setSlot i y).transmitter = x.transmitter := by cases i <;> rfl

theorem onSlot_sweep (W : SweepWalk P) {i f} (h : At P s) : At P (onSlot i f s) := W.junction (by simp) h

theorem beginTurn_sweep (W : SweepWalk P) {r} (free : ¬Busy s) (h : At P s) : At P (beginTurn r s) := by
  unfold beginTurn
  split
  · exact h
  next t entry _ =>
    dsimp only
    have withdrawn : At P (match r.slot? with
        | some i => onSlot i (fun x => { x with waiting := false }) s
        | none => s) ∧ ¬Busy (match r.slot? with
        | some i => onSlot i (fun x => { x with waiting := false }) s
        | none => s) := by
      cases r.slot? with
      | none => exact ⟨h, free⟩
      | some i => exact ⟨onSlot_sweep W h, fun busy => free (busy.imp (fun x => by simpa [onSlot] using x) id)⟩
    cases entry with
    | none => exact W.junction (fun _ => nofun) withdrawn.1
    | some tag => exact W.turn withdrawn.2 nofun withdrawn.1

theorem mayGrant_free (h : mayGrant s = true) : ¬Busy s := by
  unfold mayGrant at h
  simp only [Bool.and_eq_true, beq_iff_eq, bne_iff_ne, ne_eq] at h
  exact fun busy => busy.elim (fun x => x h.1.1) fun x => h.2 x

theorem tryGrant_sweep (W : SweepWalk P) (h : At P s) : At P (tryGrant s) := by
  unfold tryGrant
  split
  next may =>
    have free := mayGrant_free may
    split
    · exact beginTurn_sweep W (s := s.setJunction _) free (W.junction id h)
    · split
      · exact beginTurn_sweep W (s := s.setJunction _) free (W.junction id h)
      · exact h
  · exact h

theorem startAsking_sweep (W : SweepWalk P) {i} (h : At P s) : At P (startAsking i s) :=
  tryGrant_sweep W (onSlot_sweep W (onSlot_sweep W h))

theorem stopAskingFor_sweep (W : SweepWalk P) {tag} (h : At P s) : At P (stopAskingFor tag s) := by
  unfold stopAskingFor
  split
  · exact onSlot_sweep W h
  · exact h

theorem takeSlot_sweep (W : SweepWalk P) {tag} (h : At P s) : At P (takeSlot tag s) := by
  unfold takeSlot
  split
  · exact h
  · refine ite_at (fun _ => ?_) fun _ => h
    split
    · exact h
    · exact ite_at (fun _ => startAsking_sweep W (onSlot_sweep W h)) fun _ => onSlot_sweep W h

theorem serveWaiting_sweep (W : SweepWalk P) (h : At P s) : At P (serveWaiting s) :=
  foldl_at (fun _ h => takeSlot_sweep W h) _ h

theorem Transmitter.forget_idle {tag : Nat} {x : Transmitter} (h : x ≠ .idle) : x.forget tag ≠ .idle := by
  cases x with
  | idle => exact absurd rfl h
  | sending t e => exact nofun
  | listening t e => exact nofun

theorem vacate_sweep (W : SweepWalk P) {tag x} (h : At P s) : At P (vacate tag x s) := by
  unfold vacate
  split
  · exact W.junction Transmitter.forget_idle (onSlot_sweep W h)
  · exact h

theorem offerSignal_sweep (W : SweepWalk P) {item} (h : At P s) : At P (offerSignal item s) := by
  unfold offerSignal
  dsimp only
  refine ite_at (fun _ => h) fun _ => ite_at (fun _ => tryGrant_sweep W (W.junction id h)) fun _ =>
    ite_at (fun _ => tryGrant_sweep W (W.junction id h)) fun _ => ite_at (fun _ => ?_) fun _ => h
  exact W.raise h

end Sys2Proof.Machine
end

section
/-! The halt causes as the operations that judge them leave them (R61, R62, R74, R75). -/

namespace Sys2Proof.Machine

variable {s : State}

theorem Causes.has_foldl_put (cs : List Cause) (c : Causes) (y : Cause) (b : Bool) :
    (cs.foldl (fun c x => c.put x b) c).has y = if y ∈ cs then b else c.has y := by
  induction cs generalizing c with
  | nil => rfl
  | cons x l ih =>
    rw [List.foldl_cons, ih, Causes.has_put]
    by_cases inside : y ∈ l
    · rw [if_pos inside, if_pos (List.mem_cons_of_mem _ inside)]
    · rw [if_neg inside]
      exact if_congr (by simp [inside]) rfl rfl

theorem Cause.mem_descending (c : Cause) : c ∈ Cause.descending := by cases c <;> decide

theorem breachBraking_halt (s : State) : (breachBraking s).halt = s.halt := by
  unfold breachBraking judgeEffort; rw [judgeLock_halt]; rfl

theorem setLatch_causes (c : Cause) (s : State) : (setLatch c s).halt.causes = s.halt.causes := by
  unfold setLatch; rw [askFor_halt]
  unfold enterHalted; rfl

/-- The causes that join are present with those that were (R62). -/
theorem joinCauses_has (cs : List Cause) (s : State) (y : Cause) :
    (joinCauses cs s).halt.causes.has y = if y ∈ cs then true else s.halt.causes.has y := by
  have fresh : y ∈ Cause.descending.filter (fun c => cs.contains c && !s.halt.causes.has c) ↔
      y ∈ cs ∧ s.halt.causes.has y = false := by simp [Cause.mem_descending]
  unfold joinCauses
  split
  next none =>
    rw [none] at fresh
    by_cases inside : y ∈ cs
    · rw [if_pos inside]; simpa [inside] using fresh
    · rw [if_neg inside]
  next first more some =>
    rw [some] at fresh
    dsimp only
    have latched : (if s.halt.latch.isNone then setLatch first s else s).halt.causes = s.halt.causes := by
      split
      · exact setLatch_causes _ _
      · rfl
    have joined : ((first :: more).foldl (fun x c => x.put c true) s.halt.causes).has y =
        if y ∈ cs then true else s.halt.causes.has y := by
      rw [Causes.has_foldl_put]
      by_cases inside : y ∈ first :: more
      · rw [if_pos inside, if_pos (fresh.1 inside).1]
      · rw [if_neg inside]
        by_cases told : y ∈ cs
        · rw [if_pos told]
          by_contra absent
          exact inside (fresh.2 ⟨told, Bool.not_eq_true _ ▸ absent⟩)
        · rw [if_neg told]
    rw [latched]
    split
    · rw [breachBraking_halt]; exact joined
    · exact joined

theorem dropCauses_has (cs : List Cause) (s : State) (y : Cause) :
    (dropCauses cs s).halt.causes.has y = if y ∈ cs then false else s.halt.causes.has y := Causes.has_foldl_put cs _ y false

/-- The HALT drive judged touches TRAINLINE alone (R74, R75). -/
theorem judgeDrive_has {y : Cause} (h : y ≠ .trainline) (s : State) :
    (judgeDrive s).halt.causes.has y = s.halt.causes.has y := by
  have other : y ∉ [Cause.trainline] := by simpa using h
  unfold judgeDrive
  dsimp only
  split
  · rfl
  · split
    · rfl
    · unfold senseHalt
      split
      · rw [joinCauses_has, if_neg other]; rfl
      · rw [dropCauses_has, if_neg other]; rfl

theorem addCauses_has {y : Cause} (h : y ≠ .trainline) (cs : List Cause) (s : State) :
    (addCauses cs s).halt.causes.has y = if y ∈ cs then true else s.halt.causes.has y := by
  unfold addCauses; rw [judgeDrive_has h, joinCauses_has]

theorem removeCauses_has {y : Cause} (h : y ≠ .trainline) (cs : List Cause) (s : State) :
    (removeCauses cs s).halt.causes.has y = if y ∈ cs then false else s.halt.causes.has y := by
  unfold removeCauses; rw [judgeDrive_has h, dropCauses_has]

/-- JUNCTION and BREACH as they are judged over the table (R61). -/
theorem judgeJunctionCauses_has (s : State) :
    (judgeJunctionCauses s).halt.causes.breach = anyJunction s.route.table (fun j => j.state == .breached) ∧
    (judgeJunctionCauses s).halt.causes.junction = anyJunction s.route.table (fun j =>
      j.state == .overdue || j.state == .refused || j.state == .breached) := by
  have judged : ∀ y, y ≠ .trainline → (judgeJunctionCauses s).halt.causes.has y = _ := fun y h => removeCauses_has h _ _
  constructor
  · refine (judged .breach (by decide)).trans ?_
    rw [addCauses_has (by decide)]
    cases anyJunction s.route.table (fun j => j.state == .breached) <;>
      cases anyJunction s.route.table (fun j => j.state == .overdue || j.state == .refused || j.state == .breached) <;> simp
  · refine (judged .junction (by decide)).trans ?_
    rw [addCauses_has (by decide)]
    cases anyJunction s.route.table (fun j => j.state == .breached) <;>
      cases anyJunction s.route.table (fun j => j.state == .overdue || j.state == .refused || j.state == .breached) <;> simp

end Sys2Proof.Machine
end

section
/-! A sweep mark by mark: the table it leaves, and the causes that follow the junction entries (R61, R94, R95, R96, R111). -/

namespace Sys2Proof.Machine

variable {S : Nat → Nat} {b s u v : State} {T : List Entry} {J : List (Option JunctionState)} {P : State → Prop}

/-! ### The causes that follow the entries -/

/-- JUNCTION and BREACH follow the junction states of a table (R61). -/
def Follow (c : Causes) (l : List (Option JunctionState)) : Prop :=
  (c.junction = true ↔ some .overdue ∈ l ∨ some .refused ∈ l ∨ some .breached ∈ l) ∧ (c.breach = true ↔ some .breached ∈ l)

theorem mem_junctionState {l : List Entry} {st : JunctionState} :
    some st ∈ l.map Entry.junctionState ↔ ∃ x ∈ l, ∃ k, x.body = .junction k ∧ k.state = st := by
  rw [List.mem_map]
  refine exists_congr fun x => and_congr_right fun _ => ?_
  unfold Entry.junctionState Entry.junction?
  cases x.body <;> simp

theorem causesFollow_iff (u : State) : CausesFollow u ↔ Follow u.halt.causes (u.route.table.map Entry.junctionState) := by
  unfold CausesFollow Follow
  simp only [mem_junctionState]
  have split : (∃ x ∈ u.route.table, ∃ k, x.body = .junction k ∧ (k.state = .overdue ∨ k.state = .refused ∨ k.state = .breached)) ↔
      (∃ x ∈ u.route.table, ∃ k, x.body = .junction k ∧ k.state = .overdue) ∨
      (∃ x ∈ u.route.table, ∃ k, x.body = .junction k ∧ k.state = .refused) ∨
      ∃ x ∈ u.route.table, ∃ k, x.body = .junction k ∧ k.state = .breached := by
    simp only [and_or_left, exists_or]
  rw [split]

/-- The junction states of the table, the counts of telegrams left out. -/
theorem Shaped.junctionStates (h : Shaped S b T u) : u.route.table.map Entry.junctionState = T.map Entry.junctionState := by
  rw [← h.table, List.map_map]
  exact List.map_congr_left fun e _ => e.unsent_junctionState.symm

/-- A shape whose junction states are still `J`, or are followed by the causes. -/
def Tracked (J : List (Option JunctionState)) (S : Nat → Nat) (b : State) (T : List Entry) (u : State) : Prop :=
  Shaped S b T u ∧ (T.map Entry.junctionState = J ∨ Follow u.halt.causes (T.map Entry.junctionState))

/-- What keeps the shape and the causes keeps both. -/
theorem Tracked.alike (h : Tracked J S b T u) (shape : Shaped S b T u → Shaped S b T v) (halt : v.halt = u.halt) :
    Tracked J S b T v := ⟨shape h.1, by rw [halt]; exact h.2⟩

/-! ### Entries changed by a crossing -/

/-- A change of an entry that reads neither its count of telegrams nor changes it, nor its tag. -/
structure Changes (f : Entry → Entry) : Prop where
  unsent : ∀ e, (f e).unsent = f e.unsent
  tag : ∀ e, (f e).tag = e.tag
  sent : ∀ e j, (f e).body = .junction j → ∃ i, e.body = .junction i ∧ j.sent = i.sent

theorem changes_crossed : Changes fun e => { e with crossed := e.crossed + 1 } :=
  ⟨fun _ => rfl, fun _ => rfl, fun _ j h => ⟨j, h, rfl⟩⟩

theorem changes_junction (st : JunctionState) : Changes (Entry.onJunction fun j => { j with state := st }) where
  unsent := fun e => by cases e with | mk tag crossed body => cases body <;> rfl
  tag := fun e => by cases e with | mk tag crossed body => cases body <;> rfl
  sent := fun e j h => by cases e with | mk tag crossed body =>
    cases body with
    | junction i => cases h; exact ⟨i, rfl, rfl⟩
    | signal g => cases h
    | stop p => cases h
    | restriction r => cases h

theorem changes_signal (f : SignalEntry → SignalEntry) : Changes (Entry.onSignal f) where
  unsent := fun e => by cases e with | mk tag crossed body => cases body <;> rfl
  tag := fun e => by cases e with | mk tag crossed body => cases body <;> rfl
  sent := fun e j h => by cases e with | mk tag crossed body => cases body <;> cases h; exact ⟨_, rfl, rfl⟩

theorem changes_stop (f : StopEntry → StopEntry) : Changes (Entry.onStop f) where
  unsent := fun e => by cases e with | mk tag crossed body => cases body <;> rfl
  tag := fun e => by cases e with | mk tag crossed body => cases body <;> rfl
  sent := fun e j h => by cases e with | mk tag crossed body => cases body <;> cases h; exact ⟨_, rfl, rfl⟩

theorem changes_restriction (f : RestrictionEntry → RestrictionEntry) : Changes (Entry.onRestriction f) where
  unsent := fun e => by cases e with | mk tag crossed body => cases body <;> rfl
  tag := fun e => by cases e with | mk tag crossed body => cases body <;> rfl
  sent := fun e j h => by cases e with | mk tag crossed body => cases body <;> cases h; exact ⟨_, rfl, rfl⟩

/-- Entries each of which keeps its tag and its count, the shape being that of the new table. -/
theorem Shaped.retable (h : Shaped S b T u) {l : List Entry} {T' : List Entry} (table : l.map Entry.unsent = T')
    (kept : ∀ e ∈ l, ∀ j, e.body = .junction j → ∃ x ∈ u.route.table, ∃ i, x.body = .junction i ∧ x.tag = e.tag ∧ j.sent = i.sent) :
    Shaped S b T' (u.setRoute { u.route with table := l }) :=
  { h with
    table := table
    counted := fun e he j hj => by
      obtain ⟨x, hx, i, hi, tag, sent⟩ := kept e he j hj
      rw [← tag, sent]; exact h.counted x hx i hi }

theorem Shaped.change {f : Entry → Entry} (F : Changes f) {tag : Nat} (h : Shaped S b T u) :
    Shaped S b (mapEntry tag f T) (changeEntry tag f u) := by
  refine h.retable ?_ fun e he j hj => ?_
  · rw [← h.table]
    unfold mapEntry
    rw [List.map_map, List.map_map]
    refine List.map_congr_left fun e _ => ?_
    by_cases own : e.tag = tag
    · simp [own, F.unsent e]
    · simp [own]
  · obtain ⟨x, hx, rfl⟩ := List.mem_map.1 he
    refine ⟨x, hx, ?_⟩
    split at hj
    · obtain ⟨i, hi, sent⟩ := F.sent x j hj
      exact ⟨i, hi, by rw [if_pos ‹_›, F.tag], sent⟩
    · exact ⟨j, hj, by rw [if_neg ‹_›], rfl⟩

/-- A change that leaves the junction states leaves what the causes follow. -/
theorem Tracked.change {f : Entry → Entry} (F : Changes f) (states : ∀ e, (f e).junctionState = e.junctionState) {tag : Nat}
    (h : Tracked J S b T u) : Tracked J S b (mapEntry tag f T) (changeEntry tag f u) := by
  refine ⟨h.1.change F, ?_⟩
  rw [mapEntry_map tag T states]; exact h.2

/-! ### The grant -/

theorem countSent_unsent (e : Entry) : (e.onJunction countSent).unsent = e.unsent := by
  cases e with | mk tag crossed body => cases body <;> rfl

theorem countSent_tag (e : Entry) : (e.onJunction countSent).tag = e.tag := by
  cases e with | mk tag crossed body => cases body <;> rfl

theorem countSent_sent {e : Entry} {j : JunctionEntry} (h : (e.onJunction countSent).body = .junction j) :
    ∃ i, e.body = .junction i ∧ j.sent = min 65535 (i.sent + 1) := by
  cases e with | mk tag crossed body =>
  cases body with
  | junction i => cases h; exact ⟨i, rfl, rfl⟩
  | signal g => cases h
  | stop p => cases h
  | restriction r => cases h

/-- A grant counts a telegram of one entry, and no grant was before it (R111). -/
theorem Shaped.turn {x : JunctionUnit} {tag : Nat} (free : ¬Busy u) (going : x.transmitter ≠ .idle) (h : Shaped S b T u) :
    Shaped S b T ((changeEntry tag (Entry.onJunction countSent) u).setJunction x) :=
  { h with
    table := by rw [← h.table]; exact mapEntry_map tag u.route.table countSent_unsent
    counted := fun e he j hj => by
      obtain ⟨y, hy, rfl⟩ := List.mem_map.1 he
      have first : ∀ i, y.body = .junction i → i.sent = S y.tag := fun i hi =>
        (h.counted y hy i hi).resolve_right fun c => free c.1
      split at hj
      · obtain ⟨i, hi, sent⟩ := countSent_sent hj
        exact .inr ⟨.inl going, by rw [if_pos ‹_›, countSent_tag, sent, first i hi]⟩
      · exact .inl (by rw [if_neg ‹_›]; exact first j hj) }

theorem tracked_sweep (J : List (Option JunctionState)) (S : Nat → Nat) (b : State) (T : List Entry) :
    SweepWalk (Tracked J S b T) where
  raise := fun h => h.alike (fun h => h.alike rfl rfl rfl id rfl rfl rfl rfl) rfl
  lock := fun h => h.alike (fun h => h.lock) (judgeLock_halt _ _ _)
  sound := fun _ h => h.alike (fun h => h.alike rfl rfl rfl id rfl rfl rfl rfl) rfl
  calm := fun h => h.1.calm
  ceiling := fun h => h.alike (fun h => h.alike rfl rfl rfl id rfl rfl rfl rfl) rfl
  junction := fun going h => h.alike (fun h => h.alike rfl rfl rfl (Or.imp going id) rfl rfl rfl rfl) rfl
  turn := fun free going h => h.alike (Shaped.turn free going) rfl

/-! ### A junction entry enters a state -/

/-- The causes judged follow the entries (R61). -/
theorem judgeJunctionCauses_follow (u : State) :
    Follow (judgeJunctionCauses u).halt.causes (u.route.table.map Entry.junctionState) := by
  obtain ⟨breach, junction⟩ := judgeJunctionCauses_has u
  unfold Follow
  simp only [mem_junctionState]
  rw [breach, junction, anyJunction_iff, anyJunction_iff]
  simp only [Bool.or_eq_true, beq_iff_eq, and_or_left, exists_or, or_assoc, and_self]

/-- A junction entry enters a state: the causes follow (R61). -/
theorem Tracked.enter {tag : Nat} {st : JunctionState} (h : Tracked J S b T u) :
    Tracked J S b (mapEntry tag (Entry.onJunction fun j => { j with state := st }) T) (enterJunction tag st u) := by
  have changed : Shaped S b _ (changeEntry tag (Entry.onJunction fun j => { j with state := st }) u) :=
    h.1.change (changes_junction st)
  have judged := judgeJunctionCauses_at (shaped_halt S b _) changed
  have follow := judgeJunctionCauses_follow (changeEntry tag (Entry.onJunction fun j => { j with state := st }) u)
  rw [changed.junctionStates] at follow
  exact judgeWarning_at (tracked_sweep J S b _).toSoundWalk ⟨judged, .inr follow⟩

end Sys2Proof.Machine
end

section
/-! The crossing of a mark and the sweep, on the shape of the table (R94, R95, R96, R99, R118, R120, R125, R126, R128, R130, R148,
R149). -/

namespace Sys2Proof.Machine

variable {S : Nat → Nat} {b s u v : State} {T : List Entry} {J : List (Option JunctionState)} {e : Entry}

/-- One more mark of an entry crossed (R89). -/
def Entry.bump (e : Entry) : Entry := { e with crossed := e.crossed + 1 }

theorem Entry.bump_tag (e : Entry) : e.bump.tag = e.tag := rfl

/-- A table changed at the tag of `e` as the crossing of its mark changes it. -/
theorem Tracked.become {g : Entry → Entry} (tags : (T.map (·.tag)).Nodup) (mem : e.unsent ∈ T)
    (same : g e.unsent.bump = e.unsent.crossedIn b)
    (h : Tracked J S b (mapEntry e.tag g (mapEntry e.tag Entry.bump T)) v) :
    Tracked J S b (mapEntry e.tag (Entry.crossedIn b) T) v := by
  rw [mapEntry_mapEntry e.tag T Entry.bump_tag] at h
  have crossed := mapEntry_congr (f := fun e => g e.bump) tags mem same
  rw [Entry.unsent_tag] at crossed
  rwa [← crossed]

/-- A mark whose crossing changes nothing but the count of marks. -/
theorem Tracked.becomeBumped (tags : (T.map (·.tag)).Nodup) (mem : e.unsent ∈ T)
    (same : e.unsent.bump = e.unsent.crossedIn b) (h : Tracked J S b (mapEntry e.tag Entry.bump T) v) :
    Tracked J S b (mapEntry e.tag (Entry.crossedIn b) T) v := by
  have crossed := mapEntry_congr tags mem same
  rw [Entry.unsent_tag] at crossed
  rwa [← crossed]

/-! ### Junction entries -/

theorem junction_crossedIn {j : JunctionEntry} {st : JunctionState} (body : e.body = .junction j)
    (come : junctionAt j.state e.crossed = st) :
    e.unsent.bump.onJunction (fun j => { j with state := st }) = e.unsent.crossedIn b := by
  obtain ⟨tag, crossed, body'⟩ := e
  subst body come; rfl

theorem junction_stays {j : JunctionEntry} (body : e.body = .junction j) (stays : junctionAt j.state e.crossed = j.state) :
    e.unsent.bump = e.unsent.crossedIn b := by
  obtain ⟨tag, crossed, body'⟩ := e
  subst body
  unfold Entry.crossedIn Entry.bump Entry.unsent
  simp only [EntryBody.resent, EntryBody.after, List.foldl_cons, List.foldl_nil]
  rw [stays]

theorem crossJunction_tracked {j : JunctionEntry} (body : e.body = .junction j) (tags : (T.map (·.tag)).Nodup)
    (mem : e.unsent ∈ T) (h : Tracked J S b (mapEntry e.tag Entry.bump T) u) :
    Tracked J S b (mapEntry e.tag (Entry.crossedIn b) T) (crossJunction e.tag e.crossed j u) := by
  have W := tracked_sweep J S b (mapEntry e.tag (Entry.crossedIn b) T)
  have enters : ∀ {st v}, junctionAt j.state e.crossed = st → Tracked J S b (mapEntry e.tag Entry.bump T) v →
      At (Tracked J S b (mapEntry e.tag (Entry.crossedIn b) T)) (enterJunction e.tag st v) := fun come hv =>
    hv.enter.become tags mem (junction_crossedIn body come)
  have stays : junctionAt j.state e.crossed = j.state →
      At (Tracked J S b (mapEntry e.tag (Entry.crossedIn b) T)) u := fun same =>
    h.becomeBumped tags mem (junction_stays body same)
  unfold crossJunction
  split
  next mark =>
    rw [mark] at enters stays
    refine ite_at (fun first => ?_) fun other => stays (by simp [junctionAt, other])
    exact formCeiling_sweep W (judgeRoute_sweep W (takeSlot_sweep W (enters (by simp [junctionAt, first]) h)))
  next mark =>
    rw [mark] at enters stays
    refine ite_at (fun first => ?_) fun other => stays (by simp [junctionAt, other])
    exact W.raise (askFor_at W.toSoundWalk (enters (by simp [junctionAt, first]) h))
  next mark =>
    rw [mark] at enters stays
    have approaching : j.state.approaching = true ↔ j.state = .asking ∨ j.state = .overdue ∨ j.state = .refused := by
      simp [JunctionState.approaching, or_assoc]
    refine ite_at (fun first => ?_) fun other => stays ?_
    · exact formCeiling_sweep W (W.raise (enters (by simp [junctionAt, approaching.1 first])
        (stopAskingFor_sweep (tracked_sweep J S b _) h)))
    · rw [approaching] at other
      simp [junctionAt, other]
  next mark =>
    rw [mark] at enters stays
    refine ite_at (fun first => ?_) fun other => stays (by simp [junctionAt, other])
    exact judgeRoute_sweep W (serveWaiting_sweep W (vacate_sweep W (enters (by simp [junctionAt, first]) h)))
  next m0 m1 m2 m3 => exact stays (by
      unfold junctionAt
      rw [if_neg fun c => m0 c.1, if_neg fun c => m1 c.1, if_neg fun c => m2 c.1, if_neg fun c => m3 c.1])

/-! ### Signal entries -/

theorem signal_crossedIn {g : SignalEntry} {f : SignalEntry → SignalEntry} (body : e.body = .signal g)
    (come : f g = g.came (b.now + b.cfgN Setting.repeatInterval) (signalAt g.state e.crossed)) :
    e.unsent.bump.onSignal f = e.unsent.crossedIn b := by
  obtain ⟨tag, crossed, body'⟩ := e
  subst body
  exact congrArg (fun g => Entry.mk tag (crossed + 1) (.signal g)) come

theorem signal_stays {g : SignalEntry} (body : e.body = .signal g) (stays : signalAt g.state e.crossed = g.state) :
    e.unsent.bump = e.unsent.crossedIn b := by
  obtain ⟨tag, crossed, body'⟩ := e
  subst body
  have same : g.came (b.now + b.cfgN Setting.repeatInterval) (signalAt g.state crossed) = g := by
    rw [show signalAt g.state crossed = g.state from stays]
    unfold SignalEntry.came; rw [if_pos rfl]
  exact congrArg (fun g => Entry.mk tag (crossed + 1) (.signal g)) same.symm

theorem onSignal_junctionState (f : SignalEntry → SignalEntry) (e : Entry) : (e.onSignal f).junctionState = e.junctionState := by
  cases e with | mk tag crossed body => cases body <;> rfl

theorem crossSignal_tracked {g : SignalEntry} (body : e.body = .signal g) (tags : (T.map (·.tag)).Nodup)
    (mem : e.unsent ∈ T) (h : Tracked J S b (mapEntry e.tag Entry.bump T) u) :
    Tracked J S b (mapEntry e.tag (Entry.crossedIn b) T) (crossSignal e.tag e.crossed g u) := by
  have W := tracked_sweep J S b (mapEntry e.tag (Entry.crossedIn b) T)
  have changes : ∀ {f}, f g = g.came (b.now + b.cfgN Setting.repeatInterval) (signalAt g.state e.crossed) →
      At (Tracked J S b (mapEntry e.tag (Entry.crossedIn b) T)) (changeEntry e.tag (Entry.onSignal f) u) := fun come =>
    (h.change (changes_signal _) (onSignal_junctionState _)).become tags mem (signal_crossedIn body come)
  have stays : signalAt g.state e.crossed = g.state →
      At (Tracked J S b (mapEntry e.tag (Entry.crossedIn b) T)) u := fun same =>
    h.becomeBumped tags mem (signal_stays body same)
  unfold crossSignal
  split
  next mark =>
    rw [mark] at changes stays
    refine ite_at (fun first => ?_) fun other => stays (by simp [signalAt, other])
    refine judgeRoute_sweep W (offerSignal_sweep W (changes ?_))
    rw [h.1.now, h.1.cfgN]
    simp [SignalEntry.came, signalAt, first]
  next mark =>
    rw [mark] at changes stays
    refine ite_at (fun first => ?_) fun other => stays (by simp [signalAt, other])
    have off := changes (f := fun g => { g with state := .calledOff, timer := none })
      (by rcases first with e | e <;> rw [e] <;> simp [signalAt, SignalEntry.came, e])
    exact judgeRoute_sweep W (offerSignal_sweep W (ite_at (fun _ => W.raise off) fun _ => off))
  next m0 m1 => exact stays (by unfold signalAt; rw [if_neg fun c => m0 c.1, if_neg fun c => m1 c.1])

/-! ### Stop entries and restrictions -/

theorem stop_crossedIn {p : StopEntry} {st : StopState} (body : e.body = .stop p)
    (come : stopAt p.requestOnly b.stop.latch.isSome p.state e.crossed = st) :
    e.unsent.bump.onStop (fun p => { p with state := st }) = e.unsent.crossedIn b := by
  obtain ⟨tag, crossed, body'⟩ := e
  subst body come; rfl

theorem stop_stays {p : StopEntry} (body : e.body = .stop p)
    (stays : stopAt p.requestOnly b.stop.latch.isSome p.state e.crossed = p.state) :
    e.unsent.bump = e.unsent.crossedIn b := by
  obtain ⟨tag, crossed, body'⟩ := e
  subst body
  exact congrArg (fun st => Entry.mk tag (crossed + 1) (.stop { p with state := st })) stays.symm

theorem onStop_junctionState (f : StopEntry → StopEntry) (e : Entry) : (e.onStop f).junctionState = e.junctionState := by
  cases e with | mk tag crossed body => cases body <;> rfl

theorem crossStop_tracked {p : StopEntry} (body : e.body = .stop p) (tags : (T.map (·.tag)).Nodup)
    (mem : e.unsent ∈ T) (h : Tracked J S b (mapEntry e.tag Entry.bump T) u) :
    Tracked J S b (mapEntry e.tag (Entry.crossedIn b) T) (crossStop e.tag e.crossed p u) := by
  have W := tracked_sweep J S b (mapEntry e.tag (Entry.crossedIn b) T)
  have enters : ∀ {st}, stopAt p.requestOnly b.stop.latch.isSome p.state e.crossed = st →
      At (Tracked J S b (mapEntry e.tag (Entry.crossedIn b) T)) (enterStop e.tag st u) := fun come =>
    (h.change (changes_stop _) (onStop_junctionState _)).become tags mem (stop_crossedIn body come)
  have stays : stopAt p.requestOnly b.stop.latch.isSome p.state e.crossed = p.state →
      At (Tracked J S b (mapEntry e.tag (Entry.crossedIn b) T)) u := fun same =>
    h.becomeBumped tags mem (stop_stays body same)
  unfold crossStop
  split
  next mark =>
    rw [mark] at enters stays
    refine ite_at (fun first => ?_) fun other => stays (by simp [stopAt, other])
    have latch : u.stop.latch = b.stop.latch := congrArg (·.latch) h.1.stop
    refine ite_at (fun only => enters ?_) fun only => askFor_at W.toSoundWalk (enters ?_)
    · rw [latch] at only
      simpa [stopAt, first] using only
    · rw [latch] at only
      simpa [stopAt, first] using only
  next mark =>
    rw [mark] at enters stays
    refine ite_at (fun first => ?_) fun other => stays (by simp [stopAt, other])
    have passed := enters (st := .passed) (by simp [stopAt, first])
    exact ite_at (fun _ => W.raise passed) fun _ => passed
  next m0 m2 => exact stays (by unfold stopAt; rw [if_neg fun c => m0 c.1, if_neg fun c => m2 c.1])

theorem crossRestriction_eq (k : Nat) (r : RestrictionEntry) :
    crossRestriction k r = { r with state := restrictionAt r.state k } := by
  unfold crossRestriction restrictionAt
  split
  next e => rw [e]; rfl
  next e => rw [e]; rfl
  next ahead active =>
    rw [if_neg (fun c => ahead c.1 c.2), if_neg (fun c => active c.1 c.2)]

theorem restriction_crossedIn {r : RestrictionEntry} (body : e.body = .restriction r) :
    e.unsent.bump.onRestriction (crossRestriction e.crossed) = e.unsent.crossedIn b := by
  obtain ⟨tag, crossed, body'⟩ := e
  subst body
  exact congrArg (fun r => Entry.mk tag (crossed + 1) (.restriction r)) (crossRestriction_eq crossed r)

theorem onRestriction_junctionState (f : RestrictionEntry → RestrictionEntry) (e : Entry) :
    (e.onRestriction f).junctionState = e.junctionState := by
  cases e with | mk tag crossed body => cases body <;> rfl

/-! ### The sweep -/

/-- The crossing of the next mark of an entry of the table (R94, R95). -/
theorem crossMark_tracked (tags : (T.map (·.tag)).Nodup) (h : Tracked J S b T u) (he : e ∈ u.route.table) :
    Tracked J S b (mapEntry e.tag (Entry.crossedIn b) T) (crossMark e u) := by
  have mem := h.1.unsent_mem he
  have counted : Tracked J S b (mapEntry e.tag Entry.bump T) (bumpCrossed e.tag u) :=
    h.change changes_crossed fun _ => rfl
  unfold crossMark
  dsimp only
  split
  next j body => exact crossJunction_tracked body tags mem counted
  next g body => exact crossSignal_tracked body tags mem counted
  next p body => exact crossStop_tracked body tags mem counted
  next r body =>
    exact (counted.change (changes_restriction _) (onRestriction_junctionState _)).become tags mem (restriction_crossedIn body)

theorem crossedIn_tag (b : State) (e : Entry) : (e.crossedIn b).tag = e.tag := rfl

/-- An entry is due in a state of the shape of `b` where it is due in `b`, its count of telegrams left out. -/
theorem Shaped.isDue_iff (h : Shaped S b T u) (e : Entry) : e.isDue u ↔ e.unsent.isDue b := by
  unfold Entry.isDue nextMark
  rw [h.cfgN, h.setLength, h.distance]
  have marks : ∀ z l, e.unsent.body.marks z l = e.body.marks z l := fun z l => by
    cases e with | mk tag crossed body => cases body <;> rfl
  rw [marks]; rfl

/-- A sweep with fuel for every due mark crosses them all (R96). -/
theorem sweepMarks_tracked (n : Nat) (tags : (T.map (·.tag)).Nodup) (h : Tracked J S b T u) (fuel : dueMarks b T ≤ n) :
    Tracked J S b (T.map (Entry.swept true b b)) (sweepMarks n u) := by
  have ended : dueMarks b T = 0 → T.map (Entry.swept true b b) = T := fun none =>
    (List.map_congr_left fun e he => Entry.swept_of_due_zero (dueMarks_zero none e he)).trans (List.map_id T)
  induction n generalizing T u with
  | zero => rw [ended (Nat.le_zero.1 fuel)]; exact h
  | succ n ih =>
    unfold sweepMarks
    split
    next e next =>
      obtain ⟨he, due⟩ := nextCrossing_some next
      obtain ⟨same, less⟩ := mapEntry_crossedIn tags (h.1.unsent_mem he) ((h.1.isDue_iff e).1 due)
      rw [Entry.unsent_tag] at same less
      rw [← same]
      refine ih (by rw [mapEntry_tags _ _ (crossedIn_tag b)]; exact tags) (crossMark_tracked tags h he) (by omega) fun none => ?_
      exact (List.map_congr_left fun e he => Entry.swept_of_due_zero (dueMarks_zero none e he)).trans (List.map_id _)
    next none =>
      have all : ∀ e ∈ T, e.swept true b b = e := fun e he => by
        rw [← h.1.table] at he
        obtain ⟨x, hx, rfl⟩ := List.mem_map.1 he
        exact Entry.swept_of_due_zero (Entry.due_zero fun due => nextCrossing_none none x hx ((h.1.isDue_iff x).2 due))
      rw [(List.map_congr_left all).trans (List.map_id T)]
      exact h

/-- The sweep of a rise (R96). -/
theorem sweep_tracked (tags : (T.map (·.tag)).Nodup) (h : Tracked J S b T u) :
    Tracked J S b (T.map (Entry.swept true b b)) (sweep u) := by
  refine sweepMarks_tracked _ tags h ?_
  have length : u.route.table.length = T.length := by rw [← h.1.table, List.length_map]
  rw [length]; exact dueMarks_le b T

end Sys2Proof.Machine
end

section
/-! The route part of a sample on the shape of the table: the advance, the clear points, the retirement (R84, R95, R99, R100). -/

namespace Sys2Proof.Machine

variable {S : Nat → Nat} {b s u v : State} {T : List Entry} {J : List (Option JunctionState)} {e : Entry}

/-! ### Clear points -/

theorem clearRestriction_unsent (l d : Nat) (e : Entry) : (clearRestriction l d e).unsent = clearRestriction l d e.unsent := by
  by_cases h : e.clears l d
  · have h' : e.unsent.clears l d := by
      obtain ⟨r, body, rest⟩ := h
      exact ⟨r, by unfold Entry.unsent; rw [body]; rfl, rest⟩
    rw [clearRestriction_crossedIn h .reset, clearRestriction_crossedIn h' .reset]
    obtain ⟨r, body, -⟩ := h
    cases e with | mk tag crossed body' => cases body; rfl
  · have h' : ¬e.unsent.clears l d := by
      rintro ⟨r, body, rest⟩
      cases e with | mk tag crossed body' => cases body' <;> cases body; exact h ⟨_, rfl, rest⟩
    rw [clearRestriction_stays h, clearRestriction_stays h']

theorem clearRestriction_tag (l d : Nat) (e : Entry) : (clearRestriction l d e).tag = e.tag := by
  by_cases h : e.clears l d
  · rw [clearRestriction_crossedIn h .reset]; rfl
  · rw [clearRestriction_stays h]

/-- A junction entry has no clear point. -/
theorem clearRestriction_junction (l d : Nat) {e : Entry} {j : JunctionEntry} (h : (clearRestriction l d e).body = .junction j) :
    e.body = .junction j := by
  by_cases c : e.clears l d
  · rw [clearRestriction_crossedIn c .reset] at h
    obtain ⟨r, body, -⟩ := c
    unfold Entry.crossedIn at h
    rw [body] at h; cases h
  · rwa [clearRestriction_stays c] at h

theorem clearRestriction_junctionState (l d : Nat) (e : Entry) : (clearRestriction l d e).junctionState = e.junctionState := by
  by_cases c : e.clears l d
  · rw [clearRestriction_crossedIn c .reset]
    obtain ⟨r, body, -⟩ := c
    cases e with | mk tag crossed body' => cases body; rfl
  · rw [clearRestriction_stays c]

/-- The clear points of a table crossed (R95, R99). -/
theorem Shaped.clear (h : Shaped S b T u) (l d : Nat) : Shaped S b (T.map (clearRestriction l d))
    (u.setRoute { u.route with table := u.route.table.map (clearRestriction l d) }) := by
  refine h.retable ?_ fun e he j hj => ?_
  · rw [← h.table, List.map_map, List.map_map]
    exact List.map_congr_left fun e _ => clearRestriction_unsent l d e
  · obtain ⟨x, hx, rfl⟩ := List.mem_map.1 he
    exact ⟨x, hx, j, clearRestriction_junction l d hj, (clearRestriction_tag l d x).symm, rfl⟩

theorem Tracked.clear (h : Tracked J S b T u) :
    Tracked J S b (T.map (clearRestriction b.route.setLength b.route.distance)) (judgeClearPoints u) := by
  unfold judgeClearPoints
  rw [h.1.setLength, h.1.distance]
  have states : (T.map (clearRestriction b.route.setLength b.route.distance)).map Entry.junctionState =
      T.map Entry.junctionState := by
    rw [List.map_map]
    exact List.map_congr_left fun e _ => clearRestriction_junctionState _ _ e
  exact ⟨h.1.clear _ _, by rw [states]; exact h.2⟩

/-! ### The advance -/

/-- A sweep leaves no mark to cross (R96). -/
theorem Entry.due_swept (u : State) (e : Entry) : (e.swept true u u).due u = 0 := by
  induction n : e.due u generalizing e with
  | zero => rw [Entry.swept_of_due_zero n, n]
  | succ k ih =>
    have due : e.isDue u := by
      by_contra never
      rw [Entry.due_zero never] at n; cases n
    rw [← Entry.swept_crossedIn due]
    exact ih _ (by have := Entry.due_crossedIn due; omega)

/-- The state of a route engine once its distance is `d` and its residue `x`. -/
def placed (d x : Nat) (u : State) : State := u.setRoute { u.route with distance := d, residue := x }

theorem Shaped.placed (h : Shaped S u T u) (d x : Nat) : Shaped S (placed d x u) T (Machine.placed d x u) :=
  { h with distance := rfl, setLength := rfl, stop := rfl, now := rfl, values := rfl }

/-- The advance to `d` and the clear points after it leave every entry as a sweep to `d` leaves it (R84, R95, R99). -/
theorem moveTo_tracked (tags : (T.map (·.tag)).Nodup) (h : Shaped S u T u) (d x : Nat) :
    Tracked (T.map Entry.junctionState) S (placed d x u)
      (T.map (Entry.swept (decide (u.route.distance < d)) (placed d x u) (placed d x u))) (judgeClearPoints (moveTo d x u)) := by
  have start : Tracked (T.map Entry.junctionState) S (placed d x u) T (placed d x u) := ⟨h.placed d x, .inl rfl⟩
  unfold moveTo
  dsimp only
  split
  next rises =>
    rw [decide_eq_true rises]
    have swept := (sweep_tracked tags start).clear
    have stays : (T.map (Entry.swept true (placed d x u) (placed d x u))).map
        (clearRestriction (placed d x u).route.setLength (placed d x u).route.distance) =
        T.map (Entry.swept true (placed d x u) (placed d x u)) := by
      rw [List.map_map]
      exact List.map_congr_left fun e _ => Entry.clear_of_due_zero (Entry.due_swept _ e)
    rwa [stays] at swept
  next stands =>
    rw [decide_eq_false stands]
    have cleared := start.clear
    rwa [List.map_congr_left fun e _ => (Entry.swept_false e).symm] at cleared

/-- The route part of a sample before its retirement (R84, R95, R99). -/
theorem routeSample_tracked (tags : (T.map (·.tag)).Nodup) (h : Shaped S u T u) : ∃ d x w, routeSample u = settleRoute w ∧
    Tracked (T.map Entry.junctionState) S (placed d x u)
      (T.map (Entry.swept (decide (u.route.distance < d)) (placed d x u) (placed d x u))) w := by
  unfold routeSample
  dsimp only
  split
  next moving => exact ⟨_, _, _, rfl, moveTo_tracked tags h _ _⟩
  next standing =>
    refine ⟨u.route.distance, u.route.residue, _, rfl, ?_⟩
    have still : moveTo u.route.distance u.route.residue u = u := if_neg (lt_irrefl _)
    have moved := moveTo_tracked tags h u.route.distance u.route.residue
    rwa [still] at moved

/-! ### Retirement -/

/-- The entries that leave at retirement are those in a final state that lie the retire distance behind (R100). -/
theorem retires_iff (u : State) (e : Entry) : retires u e = true ↔ e.body.retiresIn u u := by
  unfold retires EntryBody.retiresIn
  rw [Bool.and_eq_true, decide_eq_true_iff]
  cases e.body <;> simp [EntryBody.isFinal, EntryBody.last, EntryBody.leaves]

theorem Shaped.retires_eq (h : Shaped S b T u) (e : Entry) : retires u e = retires b e.unsent := by
  unfold retires
  rw [h.cfgN, h.cfgN, h.setLength, h.distance]
  cases e with | mk tag crossed body => cases body <;> rfl

/-- What a shape says of the entries before a retirement, it says of those that stay (R100). -/
theorem Shaped.retire (h : Shaped S b T u) : Shaped S b (T.filter fun e => !retires b e) (retire u) := by
  refine h.retable ?_ fun e he j hj => ⟨e, List.mem_of_mem_filter he, j, hj, rfl, rfl⟩
  rw [← h.table, List.filter_map]
  congr 1
  exact List.filter_congr fun e _ => by rw [h.retires_eq e]; rfl

/-- A retired junction entry is in neither of the states a cause follows (R61, R100). -/
theorem retires_junctionState {e : Entry} {st : JunctionState} (h : retires b e = true) (state : e.junctionState = some st) :
    st ≠ .overdue ∧ st ≠ .refused ∧ st ≠ .breached := by
  obtain ⟨tag, crossed, body⟩ := e
  cases body with
  | junction j =>
    obtain rfl : j.state = st := Option.some.inj state
    obtain ⟨final, -⟩ := (retires_iff b _).1 h
    rcases final with e | e <;> rw [e] <;> decide
  | signal g => cases state
  | stop p => cases state
  | restriction r => cases state

theorem Follow.filter {c : Causes} {l : List Entry} (h : Follow c (l.map Entry.junctionState)) :
    Follow c ((l.filter fun e => !retires b e).map Entry.junctionState) := by
  have kept : ∀ st, (st = .overdue ∨ st = .refused ∨ st = .breached) →
      (some st ∈ (l.filter fun e => !retires b e).map Entry.junctionState ↔ some st ∈ l.map Entry.junctionState) := by
    intro st watched
    rw [List.mem_map, List.mem_map]
    refine exists_congr fun e => and_congr_left fun state => ?_
    rw [List.mem_filter, and_iff_left_iff_imp]
    intro _
    cases gone : retires b e with
    | false => rfl
    | true => obtain ⟨a, b, c⟩ := retires_junctionState gone state; tauto
  unfold Follow at *
  rwa [kept _ (.inl rfl), kept _ (.inr (.inl rfl)), kept _ (.inr (.inr rfl))]

/-- What follows the retirement changes neither the table nor what a cause follows. -/
theorem settleRoute_shaped (h : Shaped S b T u) : Shaped S b (T.filter fun e => !retires b e) (settleRoute u) := by
  obtain ⟨x, e⟩ := judgeInhibit_eq (formCeiling (retire u))
  unfold settleRoute
  rw [e]
  exact h.retire.alike rfl rfl rfl id rfl rfl rfl rfl

theorem settleRoute_halt (u : State) : (settleRoute u).halt = u.halt := by
  obtain ⟨x, e⟩ := judgeInhibit_eq (formCeiling (retire u))
  unfold settleRoute
  rw [e]; rfl

/-- A settled route, and the causes that follow it once a junction entry has changed its state. -/
theorem settleRoute_tracked (h : Tracked J S b T u) : Shaped S b (T.filter fun e => !retires b e) (settleRoute u) ∧
    (T.map Entry.junctionState = J ∨ CausesFollow (settleRoute u)) := by
  have shape := settleRoute_shaped h.1
  refine ⟨shape, h.2.imp id fun follow => ?_⟩
  rw [causesFollow_iff, shape.junctionStates, settleRoute_halt]
  exact follow.filter

/-- The table a sample leaves, from the one its route engine is handed. -/
theorem routeSample_shaped (tags : (T.map (·.tag)).Nodup) (h : Shaped S u T u) : ∃ d x, d = (routeSample u).route.distance ∧
    Shaped S (placed d x u) ((T.map (Entry.swept (decide (u.route.distance < d)) (placed d x u) (placed d x u))).filter
      fun e => !retires (placed d x u) e) (routeSample u) ∧
    ((T.map (Entry.swept (decide (u.route.distance < d)) (placed d x u) (placed d x u))).map Entry.junctionState =
      T.map Entry.junctionState ∨ CausesFollow (routeSample u)) := by
  obtain ⟨d, x, w, e, tracked⟩ := routeSample_tracked tags h
  obtain ⟨shape, follow⟩ := settleRoute_tracked tracked
  rw [← e] at shape follow
  exact ⟨d, x, shape.distance.symm, shape, follow⟩

end Sys2Proof.Machine
end

section
/-! The table the route engine of a sample is handed: stops served and clear points crossed by the standstill flag and the role
before it (R86, R95, R99, R100, R149). -/

namespace Sys2Proof.Machine

variable {S : Nat → Nat} {b s u v w : State} {T : List Entry} {e : Entry}

/-! ### Settings with none pending -/

/-- No setting is pending, and the effective values are `l`. -/
def Calm (l : List (Nat × Int)) (u : State) : Prop := u.settings.pending = [] ∧ u.settings.effective = l

theorem Calm.lock {l : List (Nat × Int)} (h : Calm l u) {g : Group} {x : Bool} : Calm l (judgeLock g x u) := by
  obtain ⟨pending, effective⟩ := judgeLock_calm g x h.1
  exact ⟨pending.trans h.1, effective.trans h.2⟩

/-- With none pending, no part of a sample sets a value (R168). -/
theorem calm_walk (l : List (Nat × Int)) : TripWalk (fun _ => True) (Calm l) where
  free := fun _ _ _ => trivial
  raise := fun _ h => h
  lock := fun _ h => Calm.lock h
  effortHeld := fun h => h
  sound := fun _ h => h
  traction := fun h => h
  latch := fun _ h => h
  cause := fun _ h => h
  lines := fun _ _ _ h => h
  route := fun _ _ _ h => h
  sand := fun h => by rw [releaseSand_eq]; exact h
  junction := fun _ _ h => h
  vigil := fun h => h
  axle := fun h => h
  anyLock := fun h => Calm.lock h
  move := fun h => h

theorem referenced_calm (h : s.settings.pending = []) : Calm s.settings.effective (referenced s) := by
  have W := calm_walk s.settings.effective
  have start : Calm s.settings.effective (formed s) := by
    obtain ⟨-, -, -, settings, -⟩ := judgeDisagreement_kept (sampleChannels s)
    have same : (formed s).settings = s.settings := settings
    unfold Calm; rw [same]; exact ⟨h, rfl⟩
  exact reportSource_quiet W.toQuietWalk trivial (fun _ _ h => h) (fun _ _ h => h) (W.axle start)

theorem agreed_calm (h : s.settings.pending = []) : Calm s.settings.effective (agreed s) := by
  obtain ⟨x, e⟩ := agreed_eq s
  rw [e]; exact referenced_calm h

/-! ### Stop service -/

/-- Stop service takes the entry (R149). -/
def serves (u : State) (e : Entry) : Bool :=
  match e.body with
  | .stop p => decide ((p.state = .approaching ∨ p.state = .announced) ∧ 1 ≤ e.crossed) && inWindow u p
  | _ => false

theorem serves_iff (u : State) (e : Entry) : serves u e = true ↔ e.servedIn u := by
  unfold serves Entry.servedIn inWindow
  cases e.body <;> simp [and_assoc]

theorem served_eq (e : Entry) : e.served = e.onStop fun p => { p with state := .served } := by
  obtain ⟨tag, crossed, body⟩ := e; cases body <;> rfl

theorem served_tag (e : Entry) : e.served.tag = e.tag := by
  obtain ⟨tag, crossed, body⟩ := e; cases body <;> rfl

theorem served_served (e : Entry) : e.served.served = e.served := by
  obtain ⟨tag, crossed, body⟩ := e; cases body <;> rfl

/-- An entry taken is SERVED, and the event set holds it (R149). -/
theorem serveEntry_takes (h : serves u e = true) : ∃ v, serveEntry u e = raise 5 e.tag v (changeEntry e.tag Entry.served u) := by
  obtain ⟨p, body, state, crossed, before, after⟩ := (serves_iff u e).1 h
  have same : enterStop e.tag .served u = changeEntry e.tag Entry.served u := by
    unfold enterStop; rw [funext served_eq]
  refine ⟨p.stop, ?_⟩
  unfold serveEntry
  rw [body]
  dsimp only
  rw [if_pos ⟨state, crossed, by simp [inWindow, before, after]⟩, same]

theorem serveEntry_leaves (h : ¬serves u e = true) : serveEntry u e = u := by
  unfold serveEntry
  unfold serves at h
  cases body : e.body with
  | stop p =>
    rw [body] at h
    dsimp only at h ⊢
    refine if_neg fun c => h ?_
    rw [Bool.and_eq_true, decide_eq_true_iff]
    exact ⟨⟨c.1, c.2.1⟩, c.2.2⟩
  | junction j => rfl
  | signal g => rfl
  | restriction r => rfl

/-- The entries of the tags `l` SERVED. -/
def serveTags (l : List Nat) (e : Entry) : Entry := if e.tag ∈ l then e.served else e

theorem serveTags_tag (l : List Nat) (e : Entry) : (serveTags l e).tag = e.tag := by
  unfold serveTags; split
  · exact served_tag e
  · rfl

theorem serveTags_cons (t : Nat) (l : List Nat) (x : Entry) :
    serveTags l (if x.tag = t then x.served else x) = serveTags (t :: l) x := by
  by_cases own : x.tag = t
  · have taken : serveTags (t :: l) x = x.served := if_pos (by rw [own]; exact List.mem_cons_self)
    rw [if_pos own, taken]
    unfold serveTags; split
    · exact served_served x
    · rfl
  · rw [if_neg own]
    exact if_congr (by simp [own]) rfl rfl

/-- Stop service from `w`, which has the place and the settings of `u`, changes the table and the event set alone (R149). -/
theorem foldl_serveEntry (l : List Entry) (w : State) (place : w.route.distance = u.route.distance)
    (settings : w.settings = u.settings) : ∃ h, l.foldl serveEntry w = (w.setRoute { w.route with
      table := w.route.table.map (serveTags ((l.filter (serves u)).map (·.tag))) }).setHost h := by
  have same : ∀ e, serves w e = serves u e := fun e => by
    unfold serves inWindow State.cfgN; rw [place, settings]
  induction l generalizing w with
  | nil =>
    refine ⟨w.host, ?_⟩
    have stays : w.route.table.map (serveTags []) = w.route.table :=
      (List.map_congr_left fun e _ => if_neg List.not_mem_nil).trans (List.map_id _)
    show w = (w.setRoute { w.route with table := w.route.table.map (serveTags []) }).setHost w.host
    rw [stays]; rfl
  | cons e l ih =>
    rw [List.foldl_cons]
    by_cases taken : serves u e = true
    · obtain ⟨v, done⟩ := serveEntry_takes ((same e).trans taken)
      rw [done, List.filter_cons_of_pos taken, List.map_cons]
      obtain ⟨h, e'⟩ := ih (raise 5 e.tag v (changeEntry e.tag Entry.served w)) place settings same
      refine ⟨h, e'.trans ?_⟩
      have together : (mapEntry e.tag Entry.served w.route.table).map (serveTags ((l.filter (serves u)).map (·.tag))) =
          w.route.table.map (serveTags (e.tag :: (l.filter (serves u)).map (·.tag))) := by
        unfold mapEntry
        rw [List.map_map]
        exact List.map_congr_left fun x _ => serveTags_cons _ _ x
      rw [← together]; rfl
    · rw [serveEntry_leaves (by rw [same]; exact taken), List.filter_cons_of_neg taken]
      exact ih w place settings same

/-- The table once stop service has judged its entries (R149). -/
def servedTable (u : State) : List Entry :=
  u.route.table.map (serveTags ((u.route.table.filter (serves u)).map (·.tag)))

/-- What a retirement, if any, leaves of a table (R95, R100). -/
def Settles (u : State) (l l' : List Entry) : Prop := l' = l ∨ l' = l.filter fun e => !retires u e

theorem servedTable_tags (u : State) : (servedTable u).map (·.tag) = u.route.table.map (·.tag) := by
  unfold servedTable
  rw [List.map_map]
  exact List.map_congr_left fun e _ => serveTags_tag _ e

/-- Each entry of the table SERVED, or as it was (R149). -/
theorem mem_servedTable (tags : (u.route.table.map (·.tag)).Nodup) (he : e ∈ u.route.table) :
    (e.servedIn u → e.served ∈ servedTable u) ∧ (¬e.servedIn u → e ∈ servedTable u) := by
  have own : e.tag ∈ (u.route.table.filter (serves u)).map (·.tag) ↔ e.servedIn u := by
    rw [← serves_iff, List.mem_map]
    refine ⟨?_, fun h => ⟨e, List.mem_filter.2 ⟨he, h⟩, rfl⟩⟩
    rintro ⟨x, hx, same⟩
    obtain ⟨hx, taken⟩ := List.mem_filter.1 hx
    rwa [← List.inj_on_of_nodup_map tags hx he same]
  refine ⟨fun h => List.mem_map.2 ⟨e, he, if_pos (own.2 h)⟩, fun h => List.mem_map.2 ⟨e, he, if_neg fun c => h (own.1 c)⟩⟩

/-- Stop service touches no junction entry. -/
theorem servedTable_junction {j : JunctionEntry} (he : e ∈ servedTable u) (body : e.body = .junction j) : e ∈ u.route.table := by
  obtain ⟨x, hx, rfl⟩ := List.mem_map.1 he
  unfold serveTags at body ⊢
  split at body
  · obtain ⟨tag, crossed, body'⟩ := x
    cases body' <;> cases body
    rw [if_pos ‹_›]; exact hx
  · rw [if_neg ‹_›]; exact hx

/-- Stop service at DOOR_RELEASE and standstill: the served table, settled where it has changed (R95, R149). -/
theorem serveStops_table (door : u.pins.doorRelease = true) (stopped : u.axle.standstill = true) :
    Settles u (servedTable u) (serveStops u).route.table ∧ (serveStops u).route.setLength = u.route.setLength ∧
      (serveStops u).route.distance = u.route.distance := by
  obtain ⟨h, served⟩ := foldl_serveEntry u.route.table u rfl rfl
  unfold serveStops
  rw [door, stopped, Bool.and_self, if_pos rfl, served]
  unfold settleAfter
  split
  · exact ⟨.inl rfl, rfl, rfl⟩
  · obtain ⟨x, e⟩ := judgeInhibit_eq (formCeiling (retire ((u.setRoute { u.route with
        table := u.route.table.map (serveTags ((u.route.table.filter (serves u)).map (·.tag))) }).setHost h)))
    unfold settleRoute
    rw [e]
    exact ⟨.inr rfl, rfl, rfl⟩

theorem serveStops_closed (h : ¬(u.pins.doorRelease = true ∧ u.axle.standstill = true)) : serveStops u = u := by
  unfold serveStops
  rw [if_neg (by rwa [Bool.and_eq_true])]

end Sys2Proof.Machine
end

section
/-! The table through a change of role (R72, R86, R95, R99, R108, R111). -/

namespace Sys2Proof.Machine

variable {S : Nat → Nat} {b s u v w : State} {T : List Entry} {e : Entry}

/-! ### The parts of a change of role -/

theorem shaped_vigil (S : Nat → Nat) (b : State) (T : List Entry) : VigilWalk (Shaped S b T) :=
  { shaped_halt S b T with vigil := fun _ h => h.alike rfl rfl rfl id rfl rfl rfl rfl }

theorem Shaped.leaveTrail (h : Shaped S b T u) : Shaped S b T (leaveTrail u) := by
  have W := shaped_halt S b T
  have removed : Shaped S b T (removeCauses [.demandLost] (u.setTraction { u.traction with demandLoss := none })) :=
    removeCauses_at W (h.alike rfl rfl rfl id rfl rfl rfl rfl)
  exact (tryGrant_sweep (tracked_sweep _ S b T) ⟨removed, .inl rfl⟩).1

theorem Shaped.enterTrail (trail : u.lines.role = .trail) (h : Shaped S b T u) : Shaped S b T (enterTrail u) := by
  unfold Machine.enterTrail
  split
  · exact h
  · exact h.alike rfl rfl rfl (fun _ => .inr trail) rfl rfl rfl rfl
  · exact h.alike rfl rfl rfl (fun _ => .inr trail) rfl rfl rfl rfl

/-- What a change of the set length leaves of a table: nothing changed, or the clear points it moved crossed, and a retirement
(R86, R95, R99). -/
def Relength (b v : State) (T T' : List Entry) : Prop :=
  v.route.setLength = b.route.setLength ∧ T' = T ∨
  v.route.setLength ≠ b.route.setLength ∧ Settles v (T.map (clearRestriction v.route.setLength b.route.distance)) T'

theorem Shaped.retires_base (h : Shaped S b T u) (l : List Entry) :
    l.filter (fun e => !retires u e) = l.filter fun e => !retires b e := by
  refine List.filter_congr fun e _ => ?_
  unfold retires
  rw [h.cfgN, h.cfgN, h.setLength, h.distance]

/-- Retirement under the place and the settings of another state is the same. -/
theorem Relength.transfer {T₁ T₂ : List Entry} (h : Relength b u T₁ T₂) (shape : Shaped S u T v) : Relength b v T₁ T₂ := by
  unfold Relength Settles at *
  rw [shape.setLength, shape.retires_base]; exact h

/-- A shape may be told of the state itself. -/
theorem Shaped.rebase (h : Shaped S b T u) : Shaped S u T u :=
  { h with distance := rfl, setLength := rfl, stop := rfl, now := rfl, values := rfl }

theorem refreshSetLength_eq (u : State) : ∃ n, refreshSetLength u = if n = u.route.setLength then u
    else settleAfter u.route.table (u.setRoute { u.route with
      setLength := n, table := u.route.table.map (clearRestriction n u.route.distance) }) := ⟨_, rfl⟩

/-- The set length formed afresh (R86, R99). -/
theorem Shaped.refreshSetLength (h : Shaped S b T u) : ∃ T', Relength b (refreshSetLength u) T T' ∧
    Shaped S (refreshSetLength u) T' (refreshSetLength u) := by
  obtain ⟨n, e⟩ := refreshSetLength_eq u
  rw [e]
  by_cases same : n = u.route.setLength
  · rw [if_pos same]
    exact ⟨T, .inl ⟨h.setLength, rfl⟩, h.rebase⟩
  · rw [if_neg same]
    have differs : n ≠ b.route.setLength := h.setLength ▸ same
    have cleared : Shaped S (u.setRoute { u.route with setLength := n }) (T.map (clearRestriction n u.route.distance))
        (u.setRoute { u.route with setLength := n, table := u.route.table.map (clearRestriction n u.route.distance) }) :=
      { h.clear n u.route.distance with distance := rfl, setLength := rfl, stop := rfl, now := rfl, values := rfl }
    rw [h.distance] at cleared ⊢
    unfold settleAfter
    split
    · exact ⟨_, .inr ⟨differs, .inl rfl⟩, cleared.rebase⟩
    · have settled := settleRoute_shaped cleared
      generalize settleRoute _ = v at settled ⊢
      have length : v.route.setLength = n := settled.setLength
      refine ⟨_, .inr ⟨by rw [length]; exact differs, .inr ?_⟩, settled.rebase⟩
      rw [settled.retires_base, length]

/-! ### A change of role -/

/-- The counts of the table are those of `S` (R111). -/
def Counts (S : Nat → Nat) (u : State) : Prop := ∀ e ∈ u.route.table, ∀ j, e.body = .junction j → j.sent = S e.tag

/-- A table none of whose entries has been granted has its own shape. -/
theorem Counts.shaped (counts : Counts S u) (calm : u.settings.pending = []) :
    Shaped S u (u.route.table.map Entry.unsent) u where
  table := rfl
  counted := fun e he j hj => .inl (counts e he j hj)
  distance := rfl
  setLength := rfl
  stop := rfl
  now := rfl
  values := rfl
  calm := calm

theorem leaveLead_shaped (h : Shaped S b T u) : Shaped S b T (leaveLead u) := by
  have W := shaped_halt S b T
  exact releaseControls_at W.toSoundWalk (W.outputs ⟨rfl, rfl, rfl, rfl⟩ (W.lines rfl (by simp [LineLaw]) h))

theorem leaveLead_route (u : State) : (leaveLead u).route = u.route := by
  unfold leaveLead withdrawLines; simp

/-- A change of role grants at most one turn, by a unit that leaves TRAIL, and may move clear points (R72, R86, R108, R111). -/
theorem changeRole_shaped (r : Role) (c : Bool) (counts : Counts S u) (calm : u.settings.pending = []) :
    ∃ T, Relength u (changeRole r c u) (u.route.table.map Entry.unsent) T ∧ Shaped S (changeRole r c u) T (changeRole r c u) := by
  have whole := counts.shaped calm
  generalize u.route.table.map Entry.unsent = T₀ at whole ⊢
  have leftLead : Shaped S u T₀ (if u.lines.role = .lead ∧ r ≠ .lead then leaveLead u else u) ∧
      (if u.lines.role = .lead ∧ r ≠ .lead then leaveLead u else u).route = u.route := by
    split
    · exact ⟨leaveLead_shaped whole, leaveLead_route u⟩
    · exact ⟨whole, rfl⟩
  unfold changeRole
  dsimp only
  generalize (if u.lines.role = .lead ∧ r ≠ .lead then leaveLead u else u) = l at leftLead ⊢
  obtain ⟨left, route⟩ := leftLead
  have taken : Shaped S u T₀ ((l.setLines { l.lines with role := r, coupled := c }).setHalt { l.halt with ackRun := none }) :=
    { left with counted := fun e he j hj => .inl (counts e (route ▸ he) j hj) }
  have role : ((l.setLines { l.lines with role := r, coupled := c }).setHalt { l.halt with ackRun := none }).lines.role = r := rfl
  generalize (l.setLines { l.lines with role := r, coupled := c }).setHalt { l.halt with ackRun := none } = k at taken role ⊢
  have entered : Shaped S u T₀ (if r = .trail ∧ u.lines.role ≠ .trail then
      enterTrail (if u.lines.role = .trail ∧ r ≠ .trail then leaveTrail k else k)
      else if u.lines.role = .trail ∧ r ≠ .trail then leaveTrail k else k) := by
    by_cases entering : r = .trail ∧ u.lines.role ≠ .trail
    · rw [if_pos entering, if_neg fun leaving => leaving.2 entering.1]
      exact taken.enterTrail (role.trans entering.1)
    · rw [if_neg entering]
      exact ite_at (P := Shaped S u T₀) (fun _ => taken.leaveTrail) fun _ => taken
  have inhibited := (shaped_halt S u T₀).inhibit entered
  obtain ⟨T, relength, shape⟩ := Shaped.refreshSetLength inhibited
  have watched := judgeVigilance_at (shaped_vigil S _ T) shape
  exact ⟨T, relength.transfer watched, watched.rebase⟩

/-- The role sampled, on the shape of the table (R72). -/
theorem sampleRole_shaped (counts : Counts S u) (calm : u.settings.pending = []) :
    ∃ T, Relength u (sampleRole u) (u.route.table.map Entry.unsent) T ∧ Shaped S (sampleRole u) T (sampleRole u) := by
  unfold sampleRole
  dsimp only
  split
  · exact ⟨_, .inl ⟨rfl, rfl⟩, counts.shaped calm⟩
  · exact changeRole_shaped _ _ counts calm

end Sys2Proof.Machine
end

section
/-! The state in which a sample comes to the route engine, and the table it holds (R14, R72, R86, R95, R149). -/

namespace Sys2Proof.Machine

variable {S : Nat → Nat} {b s t u v x y : State} {T : List Entry} {e : Entry}

/-! ### The counts of telegrams before a sample -/

/-- The count of telegrams sent for the junction entry of a tag. -/
def sentOf (l : List Entry) (tag : Nat) : Nat :=
  match (findEntry tag l).bind Entry.junction? with
  | some j => j.sent
  | none => 0

theorem findEntry_of_mem {l : List Entry} (tags : (l.map (·.tag)).Nodup) (he : e ∈ l) : findEntry e.tag l = some e := by
  unfold findEntry
  cases found : l.find? fun x => x.tag == e.tag with
  | none => exact absurd (List.find?_eq_none.1 found e he) (by simp)
  | some x =>
    have same : x.tag = e.tag := by simpa using List.find?_some found
    rw [List.inj_on_of_nodup_map tags (List.mem_of_find?_eq_some found) he same]

theorem sentOf_counts (tags : (u.route.table.map (·.tag)).Nodup) : Counts (sentOf u.route.table) u := fun e he j hj => by
  unfold sentOf
  rw [findEntry_of_mem tags he]
  obtain ⟨tag, crossed, body⟩ := e
  cases hj; rfl

/-! ### Retirement under the same place and settings -/

theorem retires_congr {a b : State} (setLength : a.route.setLength = b.route.setLength)
    (distance : a.route.distance = b.route.distance) (values : a.settings.effective = b.settings.effective) (e : Entry) :
    retires a e = retires b e := by
  unfold retires State.cfgN SettingsStore.nat SettingsStore.value
  rw [setLength, distance, values]

theorem retires_unsent (u : State) (e : Entry) : retires u e.unsent = retires u e := by
  obtain ⟨tag, crossed, body⟩ := e; cases body <;> rfl

theorem Settles.unsent {l l' : List Entry} (h : Settles u l l') : Settles u (l.map Entry.unsent) (l'.map Entry.unsent) := by
  refine h.imp (fun e => by rw [e]) fun e => ?_
  rw [e, List.filter_map]
  congr 1
  exact List.filter_congr fun x _ => by rw [Function.comp_apply, retires_unsent]

theorem Settles.congr {a b : State} {l l' : List Entry} (setLength : a.route.setLength = b.route.setLength)
    (distance : a.route.distance = b.route.distance) (values : a.settings.effective = b.settings.effective)
    (h : Settles a l l') : Settles b l l' := by
  unfold Settles at *
  rwa [List.filter_congr fun e _ => by rw [← retires_congr setLength distance values e]]

theorem Settles.sublist {l l' : List Entry} (h : Settles u l l') : (l'.map (·.tag)).Sublist (l.map (·.tag)) := by
  rcases h with rfl | rfl
  · exact .refl _
  · exact List.filter_sublist.map _

theorem Relength.sublist {l l' : List Entry} (h : Relength b v l l') : (l'.map (·.tag)).Sublist (l.map (·.tag)) := by
  rcases h with ⟨-, rfl⟩ | ⟨-, settled⟩
  · exact .refl _
  · have same : (l.map (clearRestriction v.route.setLength b.route.distance)).map (·.tag) = l.map (·.tag) := by
      rw [List.map_map]
      exact List.map_congr_left fun e _ => clearRestriction_tag _ _ e
    rw [← same]; exact settled.sublist

theorem unsent_tags (l : List Entry) : (l.map Entry.unsent).map (·.tag) = l.map (·.tag) := by rw [List.map_map]; rfl

/-! ### The flag set -/

/-- The state in which stop service is judged at the event that sets the flag (R149). -/
def flagSet (x : State) : State := judgeVigilance (removeCauses [.rollback]
  (latchStopped true ((releaseSand x).setAxle { (releaseSand x).axle with standstill := true })))

theorem setStandstill_flagSet (x : State) : setStandstill x = sampleRole (judgeStandstillGroups (serveStops (flagSet x))) := rfl

theorem flagSet_route (x : State) : (flagSet x).route = x.route := by
  unfold flagSet
  rw [judgeVigilance_route, removeCauses_route, releaseSand_eq]; rfl

theorem flagSet_pins (x : State) : (flagSet x).pins = x.pins := by
  unfold flagSet
  rw [judgeVigilance_pins, removeCauses_pins, releaseSand_eq]; rfl

theorem flagSet_standstill (x : State) : (flagSet x).axle.standstill = true := by
  unfold flagSet
  rw [judgeVigilance_axle, removeCauses_axle]; rfl

theorem flagSet_calm {l : List (Nat × Int)} (h : Calm l x) : Calm l (flagSet x) := by
  have W := calm_walk l
  exact judgeVigilance_quiet W.toQuietWalk (removeCauses_quiet W.toQuietWalk (fun _ _ => trivial)
    (W.latch rfl (W.axle (W.sand h))))

/-- Once the flag has sampled the role, the sample's own sampling finds nothing to change (R72). -/
theorem sampleRole_setStandstill (x : State) : sampleRole (setStandstill x) = setStandstill x := by
  obtain ⟨role, coupled⟩ := setStandstill_role x
  have pins : (setStandstill x).pins = x.pins :=
    (setStandstill_trip (tripKept_walk x) (tripKept_role x) trivial (.refl x)).pins
  generalize setStandstill x = u at role coupled pins
  unfold sampleRole
  dsimp only
  rw [roleFrom_eq, pins]
  refine if_pos ⟨?_, coupled.symm⟩
  rw [role, roleTable_again]

/-- With DOOR_RELEASE off the flag serves no stop (R149). -/
theorem setStandstill_closed (counts : Counts S x) (calm : x.settings.pending = []) (door : x.pins.doorRelease = false) :
    ∃ T, Relength x (setStandstill x) (x.route.table.map Entry.unsent) T ∧ Shaped S (setStandstill x) T (setStandstill x) := by
  have closed : serveStops (flagSet x) = flagSet x := serveStops_closed fun c => by
    rw [flagSet_pins, door] at c; cases c.1
  have route : (judgeStandstillGroups (flagSet x)).route = x.route := (judgeStandstillGroups_route _).trans (flagSet_route x)
  have quiet : Calm x.settings.effective (judgeStandstillGroups (flagSet x)) :=
    judgeStandstillGroups_trip (calm_walk _) (flagSet_calm ⟨calm, rfl⟩)
  rw [setStandstill_flagSet, closed]
  generalize judgeStandstillGroups (flagSet x) = q at route quiet ⊢
  have sampled := sampleRole_shaped (S := S) (u := q) (by unfold Counts; rw [route]; exact counts) quiet.1
  unfold Relength at sampled ⊢
  rwa [route] at sampled

theorem servedIn_congr {a b : State} (distance : a.route.distance = b.route.distance)
    (values : a.settings.effective = b.settings.effective) (e : Entry) : e.servedIn a ↔ e.servedIn b := by
  unfold Entry.servedIn State.cfgN SettingsStore.nat SettingsStore.value
  rw [distance, values]

theorem servedTable_congr {a b : State} (route : a.route = b.route) (values : a.settings.effective = b.settings.effective) :
    servedTable a = servedTable b := by
  have same : serves a = serves b := funext fun e => by
    rw [Bool.eq_iff_iff, serves_iff, serves_iff]
    exact servedIn_congr (congrArg (·.distance) route) values e
  unfold servedTable
  rw [same, route]

theorem setStandstill_calm (calm : x.settings.pending = []) : Calm x.settings.effective (setStandstill x) :=
  setStandstill_trip (calm_walk _) (fun h => h) trivial ⟨calm, rfl⟩

/-- With DOOR_RELEASE on the flag serves the stops in their windows (R149). -/
theorem setStandstill_open (counts : Counts S x) (calm : x.settings.pending = []) (door : x.pins.doorRelease = true) :
    ∃ T, Shaped S (setStandstill x) T (setStandstill x) ∧ (T.map (·.tag)).Sublist (x.route.table.map (·.tag)) ∧
      ((setStandstill x).route.setLength = x.route.setLength →
        Settles (setStandstill x) ((servedTable x).map Entry.unsent) T) := by
  have flagged := flagSet_calm (x := x) ⟨calm, rfl⟩
  obtain ⟨served, setLength, -⟩ := serveStops_table (u := flagSet x) (by rw [flagSet_pins]; exact door) (flagSet_standstill x)
  rw [servedTable_congr (flagSet_route x) flagged.2] at served
  rw [flagSet_route] at setLength
  have junctions : Counts S (judgeStandstillGroups (serveStops (flagSet x))) := fun e he j hj => by
    rw [judgeStandstillGroups_route] at he
    have inside : e ∈ servedTable x := by
      rcases served with all | some
      · rwa [all] at he
      · rw [some] at he; exact List.mem_of_mem_filter he
    exact counts e (servedTable_junction inside hj) j hj
  have quiet : Calm x.settings.effective (judgeStandstillGroups (serveStops (flagSet x))) :=
    judgeStandstillGroups_trip (calm_walk _) (serveStops_quiet (calm_walk _).toQuietWalk flagged)
  obtain ⟨T, relength, shape⟩ := sampleRole_shaped junctions quiet.1
  rw [← setStandstill_flagSet] at relength shape
  have sublist := relength.sublist
  rw [judgeStandstillGroups_route] at sublist
  have order := sublist.trans served.unsent.sublist
  rw [unsent_tags, servedTable_tags] at order
  unfold Relength at relength
  rw [judgeStandstillGroups_route, setLength] at relength
  refine ⟨T, shape, order, fun length => ?_⟩
  obtain ⟨-, rfl⟩ := relength.resolve_right fun c => c.1 length
  exact (served.congr (by rw [flagSet_route, length]) (by rw [flagSet_route, setStandstill_distance])
    (flagged.2.trans (setStandstill_calm calm).2.symm)).unsent

/-! ### The state before the route engine -/

/-- The judgement of standstill sets the flag, or leaves the route engine; the flag is then set only where it was. -/
theorem judgeStandstill_path (y : State) :
    ((judgeStandstill y).route = y.route ∧ ((judgeStandstill y).axle.standstill = true → y.axle.standstill = true)) ∨
      y.axle.standstill = false ∧ ∃ run, judgeStandstill y = setStandstill (y.setAxle { y.axle with standstillRun := run }) := by
  unfold judgeStandstill
  dsimp only
  split
  · exact .inl ⟨rfl, id⟩
  · split
    · split
      next long => exact .inr ⟨long.2, _, rfl⟩
      · exact .inl ⟨rfl, id⟩
    · split
      · exact .inl ⟨clearStandstill_route _, fun h => by rw [clearStandstill_axle] at h; cases h⟩
      · exact .inl ⟨rfl, id⟩

/-- What the route engine of a sample is handed, of a table that is `l` before it: `l` with at most its clear points moved by a
new set length; or, where the sample sets the flag at an asserted DOOR_RELEASE, its stops served. -/
structure Handed (S : Nat → Nat) (s v : State) (T : List Entry) : Prop where
  shape : Shaped S v T v
  order : (T.map (·.tag)).Sublist (s.route.table.map (·.tag))
  closed : s.pins.doorRelease = false ∨ s.axle.standstill = true ∨ v.axle.standstill = false →
    Relength s v (s.route.table.map Entry.unsent) T
  served : s.pins.doorRelease = true → s.axle.standstill = false → v.axle.standstill = true →
    v.route.setLength = s.route.setLength → Settles v ((servedTable s).map Entry.unsent) T

theorem beforeRoute_handed (tags : (s.route.table.map (·.tag)).Nodup) (calm : s.settings.pending = [])
    (ready : ReadyForStandstill s t (agreed s)) : ∃ T, Handed (sentOf s.route.table) s (beforeRoute s) T := by
  have route := agreed_route s
  have counts : ∀ u : State, u.route = s.route → Counts (sentOf s.route.table) u := fun u same => by
    unfold Counts; rw [same]; exact sentOf_counts tags
  have quiet := agreed_calm calm
  obtain ⟨-, pins, -, -, flag, -⟩ := ready
  unfold beforeRoute
  generalize agreed s = y at route quiet pins flag ⊢
  rcases judgeStandstill_path y with ⟨same, was⟩ | ⟨moving, run, stops⟩
  · have judged : Calm s.settings.effective (judgeStandstill y) := judgeStandstill_trip (calm_walk _) (fun h => h) trivial quiet
    generalize judgeStandstill y = z at same was judged ⊢
    rw [route] at same
    cases stopped : z.axle.standstill with
    | false =>
      rw [if_neg (by simp)]
      refine ⟨_, (counts z same).shaped judged.1, by rw [unsent_tags, same], fun _ => ?_, fun _ _ now => ?_⟩
      · rw [same]; exact .inl ⟨congrArg (·.setLength) same, rfl⟩
      · rw [stopped] at now; cases now
    | true =>
      rw [if_pos rfl]
      obtain ⟨T, relength, shape⟩ := sampleRole_shaped (counts z same) judged.1
      have order := relength.sublist
      rw [unsent_tags, same] at order
      refine ⟨T, shape, order, fun _ => ?_, fun _ before => ?_⟩
      · unfold Relength at relength ⊢
        rwa [same] at relength
      · rw [← flag, was stopped] at before; cases before
  · have stopped : (judgeStandstill y).axle.standstill = true := by rw [stops, setStandstill_axle]
    rw [if_pos stopped, stops, sampleRole_setStandstill]
    have same : (y.setAxle { y.axle with standstillRun := run }).route = s.route := route
    have calm' : Calm s.settings.effective (y.setAxle { y.axle with standstillRun := run }) := quiet
    have pins' : (y.setAxle { y.axle with standstillRun := run }).pins = s.pins := pins
    generalize y.setAxle { y.axle with standstillRun := run } = x at same calm' pins' ⊢
    have now : (setStandstill x).axle.standstill = true := by rw [setStandstill_axle]
    cases door : s.pins.doorRelease with
    | false =>
      obtain ⟨T, relength, shape⟩ := setStandstill_closed (counts x same) calm'.1 (by rw [pins']; exact door)
      have order := relength.sublist
      rw [unsent_tags, same] at order
      refine ⟨T, shape, order, fun _ => ?_, fun c => by rw [door] at c; cases c⟩
      unfold Relength at relength ⊢
      rwa [same] at relength
    | true =>
      obtain ⟨T, shape, order, served⟩ := setStandstill_open (counts x same) calm'.1 (by rw [pins']; exact door)
      rw [servedTable_congr same calm'.2, same] at served
      rw [same] at order
      refine ⟨T, shape, order, fun c => ?_, fun _ _ _ => served⟩
      rw [door, ← flag, moving, now] at c
      rcases c with c | c | c <;> cases c

end Sys2Proof.Machine
end

section
/-! The table after a sample, entry by entry (R84, R85, R94, R95, R96, R99, R100). -/

namespace Sys2Proof.Machine

variable {S : Nat → Nat} {b s t u v : State} {l T before : List Entry} {e x y : Entry} {rose : Bool}

/-! ### Sweeps and final states -/

theorem EntryBody.after_unsent (body : EntryBody) (ks : List Nat) (latched : Bool) (again : Nat) :
    (body.resent 0).after ks latched again = (body.after ks latched again).resent 0 := by cases body <;> rfl

/-- A sweep reads no count of telegrams. -/
theorem Entry.swept_unsent (rose : Bool) (s t : State) (e : Entry) : e.unsent.swept rose s t = (e.swept rose s t).unsent := by
  have marks : e.unsent.crossings rose t.route.distance (s.cfgN Setting.zoneAfter) t.route.setLength =
      e.crossings rose t.route.distance (s.cfgN Setting.zoneAfter) t.route.setLength := by
    obtain ⟨tag, crossed, body⟩ := e; cases body <;> rfl
  unfold Entry.swept
  rw [marks]
  exact congrArg (Entry.mk _ _) (EntryBody.after_unsent _ _ _ _)

theorem junctionAt_final {st : JunctionState} (h : st = .passed ∨ st = .cancelled) (ks : List Nat) : ks.foldl junctionAt st = st := by
  induction ks with
  | nil => rfl
  | cons k ks ih =>
    have stays : junctionAt st k = st := by rcases h with rfl | rfl <;> simp [junctionAt]
    rw [List.foldl_cons, stays, ih]

theorem signalAt_final (ks : List Nat) : ks.foldl signalAt .calledOff = .calledOff := by
  induction ks with
  | nil => rfl
  | cons k ks ih =>
    have stays : signalAt .calledOff k = .calledOff := by simp [signalAt]
    rw [List.foldl_cons, stays, ih]

theorem stopAt_final {st : StopState} (h : st = .served ∨ st = .passed) (only latched : Bool) (ks : List Nat) :
    ks.foldl (stopAt only latched) st = st := by
  induction ks with
  | nil => rfl
  | cons k ks ih =>
    have stays : stopAt only latched st k = st := by rcases h with rfl | rfl <;> simp [stopAt]
    rw [List.foldl_cons, stays, ih]

theorem restrictionAt_final (ks : List Nat) : ks.foldl restrictionAt .done = .done := by
  induction ks with
  | nil => rfl
  | cons k ks ih =>
    have stays : restrictionAt .done k = .done := by simp [restrictionAt]
    rw [List.foldl_cons, stays, ih]

/-- The crossings of an entry in a final state change nothing but the count of marks (R87). -/
theorem EntryBody.after_final {body : EntryBody} (h : body.isFinal = true) (ks : List Nat) (latched : Bool) (again : Nat) :
    body.after ks latched again = body := by
  cases body with
  | junction j =>
    have final : j.state = .passed ∨ j.state = .cancelled := by simpa [EntryBody.isFinal] using h
    exact congrArg (fun st => EntryBody.junction { j with state := st }) (junctionAt_final final ks)
  | signal g =>
    have final : g.state = .calledOff := by simpa [EntryBody.isFinal] using h
    rw [EntryBody.after_signal, final, signalAt_final]
    unfold SignalEntry.came
    rw [if_pos final.symm, ← final]
  | stop p =>
    have final : p.state = .served ∨ p.state = .passed := by simpa [EntryBody.isFinal] using h
    exact congrArg (fun st => EntryBody.stop { p with state := st }) (stopAt_final final _ _ ks)
  | restriction r =>
    have final : r.state = .done := by simpa [EntryBody.isFinal] using h
    have stays := restrictionAt_final ks
    rw [← final] at stays
    exact congrArg (fun st => EntryBody.restriction { r with state := st }) stays

/-- An entry that could leave before the sweep leaves after it, in the state it has (R100). -/
theorem retires_swept (h : retires v y = true) (setLength : b.route.setLength = v.route.setLength)
    (values : b.settings.effective = v.settings.effective) (le : v.route.distance ≤ b.route.distance) :
    retires b (y.swept rose b b) = true ∧ (y.swept rose b b).junctionState = y.junctionState := by
  have same : ∀ n, b.cfgN n = v.cfgN n := fun n => by unfold State.cfgN SettingsStore.nat SettingsStore.value; rw [values]
  unfold retires at h ⊢
  rw [Bool.and_eq_true, decide_eq_true_iff] at h ⊢
  obtain ⟨final, behind⟩ := h
  have body : (y.swept rose b b).body = y.body := EntryBody.after_final final _ _ _
  rw [body, same, same, setLength]
  refine ⟨⟨final, behind.trans le⟩, ?_⟩
  unfold Entry.junctionState Entry.junction?
  rw [body]

/-! ### Tables that come to the same sweep -/

/-- The table `T` comes to what `before` comes to: each entry of `before` stands in it, up to crossings the sweep makes anyway,
or has left it, as it would after the sweep. -/
structure Prepares (rose : Bool) (b : State) (before T : List Entry) : Prop where
  order : (T.map (·.tag)).Sublist (before.map (·.tag))
  each : ∀ e ∈ before, (∃ x ∈ T, x.tag = e.tag ∧ x.swept rose b b = e.unsent.swept rose b b ∧
      ∀ j, e.body = .junction j → x = e.unsent) ∨
    retires b (e.unsent.swept rose b b) = true ∧ (e.unsent.swept rose b b).junctionState = e.junctionState ∧
      ∀ x ∈ T, x.tag ≠ e.tag

/-- Entries changed by crossings the sweep makes anyway, and retired where they would leave after it. -/
theorem prepares_of {g : Entry → Entry} {p : Entry → Bool} (tags : (before.map (·.tag)).Nodup)
    (tag : ∀ e, (g e).tag = e.tag) (sweeps : ∀ e, (g e).swept rose b b = e.swept rose b b)
    (junction : ∀ e j, e.body = .junction j → g e = e)
    (states : ∀ e, (g e).junctionState = e.junctionState)
    (leaves : ∀ y, p y = false → retires b (y.swept rose b b) = true ∧ (y.swept rose b b).junctionState = y.junctionState) :
    Prepares rose b before (((before.map Entry.unsent).map g).filter p) where
  order := by
    have same : ((before.map Entry.unsent).map g).map (·.tag) = before.map (·.tag) := by
      rw [List.map_map, List.map_map]
      exact List.map_congr_left fun e _ => tag _
    rw [← same]
    exact List.filter_sublist.map _
  each := fun e he => by
    have inside : g e.unsent ∈ (before.map Entry.unsent).map g := List.mem_map_of_mem (List.mem_map_of_mem he)
    cases stays : p (g e.unsent) with
    | true =>
      refine .inl ⟨g e.unsent, List.mem_filter.2 ⟨inside, stays⟩, tag _, sweeps _, fun j hj => junction _ { j with sent := 0 } ?_⟩
      obtain ⟨tag, crossed, body⟩ := e
      cases hj; rfl
    | false =>
      obtain ⟨gone, state⟩ := leaves _ stays
      rw [sweeps] at gone state
      rw [states, Entry.unsent_junctionState] at state
      refine .inr ⟨gone, state, fun x hx same => ?_⟩
      obtain ⟨hx, held⟩ := List.mem_filter.1 hx
      obtain ⟨y, hy, rfl⟩ := List.mem_map.1 hx
      obtain ⟨z, hz, rfl⟩ := List.mem_map.1 hy
      rw [tag] at same
      obtain rfl := List.inj_on_of_nodup_map tags hz he same
      rw [stays] at held; cases held

/-- A clear point crossed where the distance has not passed what the sweep comes to (R95, R99). -/
theorem clearRestriction_swept {d n : Nat} (setLength : b.route.setLength = n) (le : d ≤ b.route.distance)
    (rises : rose = false → d = b.route.distance) (e : Entry) :
    (clearRestriction n d e).swept rose b b = e.swept rose b b := by
  by_cases clears : e.clears n d
  · have due : e.isDue b := Entry.clears_due clears setLength le
    rw [clearRestriction_crossedIn clears b]
    cases rose with
    | true => exact Entry.swept_crossedIn due
    | false =>
      obtain rfl := rises rfl
      subst setLength
      rw [Entry.swept_false, Entry.swept_false, clearRestriction_crossedIn clears b]
      refine clearRestriction_stays fun again => ?_
      obtain ⟨r, body, crossed, -⟩ := clears
      obtain ⟨r', body', crossed', -⟩ := again
      have two : (e.crossedIn b).crossed = e.crossed + 1 := rfl
      omega
  · rw [clearRestriction_stays clears]

/-- A table settled, or not, at a place the sweep does not turn back from. -/
theorem Settles.prepares {g : Entry → Entry} (h : Settles v ((before.map Entry.unsent).map g) T)
    (setLength : b.route.setLength = v.route.setLength) (values : b.settings.effective = v.settings.effective)
    (le : v.route.distance ≤ b.route.distance) (tags : (before.map (·.tag)).Nodup)
    (tag : ∀ e, (g e).tag = e.tag) (sweeps : ∀ e, (g e).swept rose b b = e.swept rose b b)
    (junction : ∀ e j, e.body = .junction j → g e = e) (states : ∀ e, (g e).junctionState = e.junctionState) :
    Prepares rose b before T := by
  rcases h with rfl | rfl
  · have all := prepares_of (p := fun _ => true) tags tag sweeps junction states nofun
    rwa [List.filter_true] at all
  · exact prepares_of tags tag sweeps junction states fun y gone =>
      retires_swept (by simpa using gone) setLength values le

/-- A table as it was. -/
theorem Prepares.same (tags : (before.map (·.tag)).Nodup) : Prepares rose b before (before.map Entry.unsent) := by
  have all := prepares_of (b := b) (rose := rose) (g := id) (p := fun _ => true) tags (fun _ => rfl) (fun _ => rfl)
    (fun _ _ _ => rfl) (fun _ => rfl) nofun
  rwa [List.map_id, List.filter_true] at all

end Sys2Proof.Machine
end

section
/-! The statement about the route, assembled (R12, R84, R85, R94, R95, R96, R99, R100, R101, R102). -/

namespace Sys2Proof.Machine

variable {S : Nat → Nat} {b s t u v : State} {T before : List Entry} {e x : Entry} {rose : Bool}

/-! ### The terms of the statement and of the shape -/

/-- `b` has the settings, the stop-request unit and the clock of the sample, and the place the sample leaves. -/
structure EndsAt (s t b : State) : Prop where
  distance : b.route.distance = t.route.distance
  setLength : b.route.setLength = t.route.setLength
  values : b.settings.effective = s.settings.effective
  stop : b.stop = s.stop
  now : b.now = t.now

theorem EndsAt.cfgN (h : EndsAt s t b) (n : Nat) : b.cfgN n = s.cfgN n := by
  unfold State.cfgN SettingsStore.nat SettingsStore.value; rw [h.values]

theorem EndsAt.swept (h : EndsAt s t b) (rose : Bool) (e : Entry) : e.swept rose b b = e.swept rose s t := by
  unfold Entry.swept
  rw [h.distance, h.setLength, h.stop, h.now, h.cfgN, h.cfgN]

theorem EndsAt.retires (h : EndsAt s t b) (e : Entry) : retires b e = true ↔ e.body.retiresIn s t := by
  rw [retires_iff]
  unfold EntryBody.retiresIn
  rw [h.distance, h.setLength, h.cfgN, h.cfgN]

theorem EntryBody.resent_resent (body : EntryBody) (m n : Nat) : (body.resent m).resent n = body.resent n := by
  cases body <;> rfl

/-- An entry is itself without its count, and with it. -/
theorem Entry.resent_unsent (x : Entry) : ∃ n, x = { x.unsent with body := x.unsent.body.resent n } ∧
    ∀ j, x.body = .junction j → n = j.sent := by
  obtain ⟨tag, crossed, body⟩ := x
  cases body with
  | junction j => exact ⟨j.sent, rfl, fun i e => by cases e; rfl⟩
  | signal g => exact ⟨0, rfl, nofun⟩
  | stop p => exact ⟨0, rfl, nofun⟩
  | restriction r => exact ⟨0, rfl, nofun⟩

/-- Two entries that are one but for the count of telegrams. -/
theorem resent_of_unsent {x y : Entry} (h : x.unsent = y.unsent) :
    ∃ n, x = { y with body := y.body.resent n } ∧ ∀ j, x.body = .junction j → n = j.sent := by
  obtain ⟨n, whole, sent⟩ := x.resent_unsent
  refine ⟨n, whole.trans ?_, sent⟩
  rw [h]
  exact congrArg (Entry.mk _ _) (EntryBody.resent_resent _ _ _)

/-- A sweep leaves a junction entry one. -/
theorem Entry.swept_junction {j : JunctionEntry} (h : e.body = .junction j) (rose : Bool) (s t : State) (n : Nat) :
    ∃ i, ((e.swept rose s t).body.resent n) = .junction i ∧ i.sent = n := by
  obtain ⟨tag, crossed, body⟩ := e
  cases h; exact ⟨_, rfl, rfl⟩

/-! ### The table after a sample -/

/-- From what the sweep comes to, entry by entry, to the table after the sample (R94, R95, R96, R99, R100, R111, R61). -/
theorem swept_of_prepares (ends : EndsAt s t b) (tags : (before.map (·.tag)).Nodup) (prepared : Prepares rose b before T)
    (counts : ∀ e ∈ before, ∀ j, e.body = .junction j → S e.tag = j.sent)
    (shape : Shaped S b ((T.map (Entry.swept rose b b)).filter fun e => !retires b e) t)
    (follow : (T.map (Entry.swept rose b b)).map Entry.junctionState = T.map Entry.junctionState ∨ CausesFollow t) :
    Swept before rose s t where
  order := by
    have sweepTags : (T.map (Entry.swept rose b b)).map (·.tag) = T.map (·.tag) := by rw [List.map_map]; rfl
    have tableTags : t.route.table.map (·.tag) =
        (((T.map (Entry.swept rose b b)).filter fun e => !retires b e)).map (·.tag) := by
      rw [← shape.table, List.map_map]; rfl
    rw [tableTags]
    refine (List.filter_sublist.map _).trans ?_
    rw [sweepTags]; exact prepared.order
  retired := fun e he gone x hx same => by
    have left := shape.unsent_mem hx
    obtain ⟨inside, stays⟩ := List.mem_filter.1 left
    obtain ⟨z, hz, sweeps⟩ := List.mem_map.1 inside
    have tag : z.tag = e.tag := (congrArg (·.tag) sweeps).trans same
    rw [← ends.swept, ← ends.retires, ← retires_unsent, ← Entry.swept_unsent] at gone
    rcases prepared.each e he with ⟨y, hy, own, swept, -⟩ | ⟨-, -, absent⟩
    · obtain rfl := List.inj_on_of_nodup_map (prepared.order.nodup tags) hz hy (tag.trans own.symm)
      rw [← sweeps, swept, gone] at stays; cases stays
    · exact absent z hz tag
  stays := fun e he stays => by
    rw [← ends.swept, ← ends.retires, ← retires_unsent, ← Entry.swept_unsent] at stays
    rw [← ends.swept]
    rcases prepared.each e he with ⟨y, hy, -, swept, -⟩ | ⟨gone, -⟩
    · have inside : e.unsent.swept rose b b ∈ (T.map (Entry.swept rose b b)).filter fun e => !retires b e :=
        List.mem_filter.2 ⟨swept ▸ List.mem_map_of_mem hy, by simpa using stays⟩
      rw [← shape.table, Entry.swept_unsent] at inside
      obtain ⟨x, hx, same⟩ := List.mem_map.1 inside
      obtain ⟨n, rfl, -⟩ := resent_of_unsent same
      refine ⟨n, fun j hj => ?_, hx⟩
      obtain ⟨i, hi, rfl⟩ := Entry.swept_junction hj rose b b n
      have counted : i.sent = S e.tag ∨ Busy t ∧ i.sent = min 65535 (S e.tag + 1) := shape.counted _ hx i hi
      rw [counts e he j hj] at counted
      exact counted.imp id And.right
    · exact absurd gone stays
  causes := by
    rintro ⟨e, he, j, k, body, swept, differs⟩
    have before : e.junctionState = some j.state := by unfold Entry.junctionState Entry.junction?; rw [body]; rfl
    have after : (e.unsent.swept rose b b).junctionState = some k.state := by
      rw [Entry.swept_unsent, Entry.unsent_junctionState, ends.swept]
      unfold Entry.junctionState Entry.junction?; rw [swept]; rfl
    rcases prepared.each e he with ⟨y, hy, -, -, same⟩ | ⟨-, kept, -⟩
    · refine follow.resolve_left fun kept => differs ?_
      rw [List.map_map] at kept
      have own := List.map_inj_left.1 kept y hy
      rw [same j body, Function.comp_apply, after, Entry.unsent_junctionState, before] at own
      exact Option.some.inj own
    · rw [after, before] at kept
      exact absurd (Option.some.inj kept) differs

/-! ### The statement -/

/-- A sample leaves what its route engine leaves, but for the axle unit, and there the flag. -/
theorem sample_routeSample (ht : speedSample s = t) : ∃ a, t = (routeSample (beforeRoute s)).setAxle a ∧
    a.standstill = (beforeRoute s).axle.standstill := by
  obtain ⟨last, due, e⟩ := speedSample_routed ht
  generalize beforeRoute s = u at e ⊢
  exact ⟨_, e, by rw [routeSample_axle]⟩

theorem Shaped.setAxle (h : Shaped S b T u) (a : AxleUnit) : Shaped S b T (u.setAxle a) :=
  h.alike rfl rfl rfl id rfl rfl rfl rfl

theorem CausesFollow.setAxle (h : CausesFollow u) (a : AxleUnit) : CausesFollow (u.setAxle a) := h

theorem beforeRoute_calm (calm : s.settings.pending = []) : Calm s.settings.effective (beforeRoute s) := by
  have W := calm_walk s.settings.effective
  have quiet := agreed_calm calm
  unfold beforeRoute
  generalize agreed s = y at quiet ⊢
  have judged := judgeStandstill_trip W (fun h => h) trivial quiet
  exact ite_at (P := Calm s.settings.effective) (fun _ => sampleRole_quiet W.toQuietWalk (fun h => h) judged) fun _ => judged

/-- Stop service has no part in the sample that goes from `s` to `t` (R149). -/
def Unserved (s t : State) : Prop := s.pins.doorRelease = false ∨ s.axle.standstill = true ∨ t.axle.standstill = false

/-- The table a sample starts from: its own, or, where stop service has a part, the served one. -/
structure StartsFrom (s t : State) (before : List Entry) : Prop where
  tags : before.map (·.tag) = s.route.table.map (·.tag)
  junctions : ∀ e ∈ before, ∀ j, e.body = .junction j → e ∈ s.route.table
  unserved : Unserved s t → before = s.route.table
  served : ¬Unserved s t → before = servedTable s

/-- The table handed to the route engine comes to what the table before comes to, if the place does not turn back from where stop
service or a new set length have settled it. -/
theorem Handed.prepares (handed : Handed S s v T) (tags : (s.route.table.map (·.tag)).Nodup)
    (stands : v.route.distance = s.route.distance) (once : v.route.setLength = s.route.setLength ∨ Unserved s v)
    (setLength : b.route.setLength = v.route.setLength) (values : b.settings.effective = v.settings.effective)
    (ahead : (v.route.setLength = s.route.setLength ∧ Unserved s v) ∨
      v.route.distance ≤ b.route.distance ∧ (rose = false → v.route.distance = b.route.distance)) :
    ∃ before, StartsFrom s v before ∧ Prepares rose b before T := by
  by_cases unserved : Unserved s v
  · refine ⟨s.route.table, ⟨rfl, fun _ h _ _ => h, fun _ => rfl, fun c => absurd unserved c⟩, ?_⟩
    rcases handed.closed unserved with ⟨-, rfl⟩ | ⟨moved, settled⟩
    · exact .same tags
    · obtain ⟨le, rises⟩ := ahead.resolve_left fun c => moved c.1
      rw [← stands] at settled
      exact settled.prepares setLength values le tags (clearRestriction_tag _ _)
        (clearRestriction_swept setLength le rises)
        (fun e j body => clearRestriction_stays fun ⟨r, other, _⟩ => by rw [body] at other; cases other)
        (clearRestriction_junctionState _ _)
  · have served := handed.served (by by_contra door; exact unserved (.inl (by simpa using door)))
      (by by_contra still; exact unserved (.inr (.inl (by simpa using still))))
      (by by_contra moves; exact unserved (.inr (.inr (by simpa using moves)))) (once.resolve_right unserved)
    obtain ⟨le, -⟩ := ahead.resolve_left fun c => unserved c.2
    refine ⟨servedTable s, ⟨servedTable_tags s, fun _ h _ body => servedTable_junction h body,
      fun c => absurd c unserved, fun _ => rfl⟩, ?_⟩
    rw [← List.map_id ((servedTable s).map Entry.unsent)] at served
    exact served.prepares setLength values le (by rw [servedTable_tags]; exact tags) (fun _ => rfl) (fun _ => rfl)
      (fun _ _ _ => rfl) fun _ => rfl

/-- The entries after a sample (R94, R95, R96, R99, R100, R149). -/
theorem sample_sweeps (ht : speedSample s = t) (law : RouteLaw s.route) (calm : s.settings.pending = [])
    (once : t.route.setLength = s.route.setLength ∨ Unserved s t)
    (ahead : s.route.distance ≤ t.route.distance ∨ t.route.setLength = s.route.setLength ∧ Unserved s t) :
    ∃ before, StartsFrom s t before ∧ Swept before (decide (s.route.distance < t.route.distance)) s t := by
  obtain ⟨a, e, flag⟩ := sample_routeSample ht
  obtain ⟨stands, -⟩ := beforeRoute_stands s
  obtain ⟨-, values⟩ := beforeRoute_calm calm
  obtain ⟨T, handed⟩ := beforeRoute_handed law.tags calm (agreed_ready ht)
  have kept := speedSample_tripKept s
  rw [ht] at kept
  generalize beforeRoute s = v at e flag stands values handed
  obtain ⟨d, x, -, shape, follow⟩ := routeSample_shaped (handed.order.nodup law.tags) handed.shape
  have left := shape.setAxle a
  have causes := follow.imp id (CausesFollow.setAxle · a)
  rw [← e] at left causes
  have flag' : t.axle.standstill = v.axle.standstill := by rw [e]; exact flag
  have distance : t.route.distance = d := left.distance
  have setLength : t.route.setLength = v.route.setLength := left.setLength
  have ends : EndsAt s t (placed d x v) :=
    ⟨distance.symm, setLength.symm, values, left.stop.symm.trans kept.stop, left.now.symm⟩
  have same : Unserved s v ↔ Unserved s t := by unfold Unserved; rw [flag']
  rw [setLength, ← same] at once
  rw [setLength, ← same, distance] at ahead
  obtain ⟨before, starts, prepared⟩ := handed.prepares (rose := decide (v.route.distance < d)) law.tags stands once
    (b := placed d x v) rfl rfl (by
      rcases ahead with le | same'
      · rw [← stands] at le
        exact .inr ⟨le, fun still => le_antisymm le (not_lt.1 (of_decide_eq_false still))⟩
      · exact .inl same')
  rw [distance, ← stands]
  refine ⟨before, ⟨starts.tags, starts.junctions, fun c => starts.unserved (same.2 c), fun c => starts.served (fun h => c (same.1 h))⟩,
    swept_of_prepares ends (starts.tags ▸ law.tags) prepared (fun e he j body => ?_) left causes⟩
  exact (sentOf_counts law.tags e (starts.junctions e he j body) j body).symm

/-- Settles O23. -/
theorem sampleMovesRoute : Obligations.SampleMovesRoute := by
  refine ⟨fun s t ht => ?_, fun s t ht => sample_formed (exec_speedSample ht), fun s t law calm ht once ahead => ?_⟩
  · have sample := exec_speedSample ht
    have travel := sample_refTravel sample
    have moves := sample_moves sample
    obtain ⟨-, -, -, active⟩ := beforeRoute_reference sample
    exact ⟨travel, active, moves.1, moves.2⟩
  · have sample := exec_speedSample ht
    obtain ⟨before, starts, swept⟩ := sample_sweeps sample law calm once ahead
    refine ⟨before, ?_, starts.unserved, fun door moving stopped => ⟨starts.tags, fun e he => ?_⟩⟩
    · exact { swept with }
    · have open' : ¬Unserved (s.reach s.axle.sampleDue) t := by
        rintro (c | c | c)
        · exact absurd (door.symm.trans c) (by decide)
        · exact absurd (c.symm.trans moving) (by decide)
        · exact absurd (stopped.symm.trans c) (by decide)
      rw [starts.served open']
      exact mem_servedTable (u := s.reach s.axle.sampleDue) law.tags he

end Sys2Proof.Machine
end

section
/-! The law of power is kept by every primitive of a command: R19, R20, R24, R62, R67. -/

namespace Sys2Proof.Machine

theorem HaltLaw.clear {s : State} (law : HaltLaw s) (moves : s.traction.state ≠ .halted) : s.halt.latch.isSome = false := by
  cases e : s.halt.latch.isSome with
  | false => rfl
  | true => exact absurd (law.halted.2 e) moves

/-- A law of power reads the settings, the halt latch and the traction unit alone. -/
theorem PowerLaw.transfer {s t : State} (law : PowerLaw s) (settings : t.settings = s.settings) (traction : t.traction = s.traction)
    (halt : t.halt = s.halt) : PowerLaw t where
  settings := settings ▸ law.settings
  halt := ⟨by rw [traction, halt]; exact law.halt.halted, by rw [halt]; exact law.halt.latched⟩
  range := traction ▸ law.range
  gate := traction ▸ law.gate

/-- The settings changed within their ranges. -/
theorem PowerLaw.store {s t : State} (law : PowerLaw s) (settings : SettingsLaw t.settings) (traction : t.traction = s.traction)
    (halt : t.halt = s.halt) : PowerLaw t where
  settings := settings
  halt := ⟨by rw [traction, halt]; exact law.halt.halted, by rw [halt]; exact law.halt.latched⟩
  range := traction ▸ law.range
  gate := traction ▸ law.gate

/-- Closing the gate in a new traction state leaves E in range and not positive (R20), provided it was positive only while
RUNNING. -/
theorem closeGate_law {t : Traction} (range : RangeLaw t) : RangeLaw (closeGate t) ∧ (closeGate t).effort ≤ 0 := by
  obtain ⟨-, -, lastH, effort⟩ := closeGate_cases t
  have effort' := range.effort
  refine ⟨⟨?_, lastH ▸ range.lastH⟩, ?_⟩ <;> rcases effort with e | ⟨e, e'⟩ <;> omega

/-- A unit that enters a traction state with the gate closed keeps E in range and no positive E (R20, R21, R24). -/
theorem PowerLaw.leaves {s : State} (law : PowerLaw s) (st : TractionState) :
    let t := { s.traction with state := st }
    let left := if s.traction.state = .running then closeGate t else t
    RangeLaw left ∧ left.effort ≤ 0 ∧ left.state = st := by
  dsimp only
  split
  · have closed := closeGate_law (t := { s.traction with state := st }) ⟨law.range.effort, law.range.lastH⟩
    exact ⟨closed.1, closed.2, (closeGate_cases _).1⟩
  next still =>
    refine ⟨⟨law.range.effort, law.range.lastH⟩, ?_, rfl⟩
    by_contra positive
    exact still (law.gate (by dsimp only at positive; omega)).1

theorem PowerLaw.enterInhibited {s : State} (law : PowerLaw s) : PowerLaw (enterInhibited s) := by
  obtain ⟨range, effort, state⟩ := law.leaves .inhibited
  have entered : ∀ u : Traction, s.traction.state ≠ .halted → u.state = .inhibited → RangeLaw u → u.effort ≤ 0 →
      PowerLaw (s.setTraction u) := fun u moves state range effort =>
    ⟨law.settings, ⟨by simp [state, law.halt.clear moves], law.halt.latched⟩, range, fun h => by
      rw [State.setTraction_traction] at h; omega⟩
  unfold Machine.enterInhibited
  split
  next e => rw [if_pos e] at range effort state; exact entered _ (by simp [e]) state range effort
  next e =>
    rw [if_neg (by simp [e])] at range effort state
    exact entered _ (by simp [e]) rfl range effort
  · exact law

theorem PowerLaw.latch {s : State} (law : PowerLaw s) (x : HaltLatch) (isSet : x.latch.isSome = true) :
    PowerLaw (enterHalted (s.setHalt x)) := by
  obtain ⟨range, effort, state⟩ := law.leaves .halted
  refine ⟨law.settings, ⟨?_, fun _ => isSet⟩, range, fun h => ?_⟩
  · exact iff_of_true state isSet
  · have : (enterHalted (s.setHalt x)).traction.effort ≤ 0 := effort
    omega

theorem PowerLaw.closed {s : State} (law : PowerLaw s) (still : s.traction.state ≠ .running) : s.traction.effort ≤ 0 := by
  by_contra positive
  exact still (law.gate (by omega)).1

/-- A unit neither HALTED nor RUNNING takes another traction state but HALTED (R22, R23): E is not positive. -/
theorem PowerLaw.opened {s : State} (law : PowerLaw s) (t : Traction)
    (still : s.traction.state ≠ .halted ∧ s.traction.state ≠ .running) (state : t.state ≠ .halted)
    (effort : t.effort = s.traction.effort) (lastH : t.lastH = s.traction.lastH) : PowerLaw (s.setTraction t) where
  settings := law.settings
  halt := ⟨by simp [state, law.halt.clear still.1], law.halt.latched⟩
  range := ⟨by simpa [effort] using law.range.effort, by simpa [lastH] using law.range.lastH⟩
  gate := fun positive => by
    have := law.closed still.2
    rw [State.setTraction_traction, effort] at positive
    omega

/-- The gated demand lies between 0 and the demand (R34). -/
theorem gateDemand_fits {h : Int} {s : State} (fits : -1000 ≤ h ∧ h ≤ 1000) :
    -1000 ≤ gateDemand h s ∧ gateDemand h s ≤ 1000 := by
  unfold gateDemand; split <;> omega

theorem gateDemand_closed {h : Int} {s : State} (closed : gateOpen s = false) : gateDemand h s ≤ 0 := by
  unfold gateDemand; split <;> simp_all

theorem gateOpen_iff (s : State) : gateOpen s = true ↔ s.traction.state = .running ∧ s.traction.overspeed = false := by
  simp [gateOpen]

/-- The target of stage 4 lies in range (R39). -/
theorem effortTarget_fits {st : SettingsStore} (law : SettingsLaw st) {h : Int} (s : State) (fits : -1000 ≤ h ∧ h ≤ 1000) :
    -1000 ≤ effortTarget st h s ∧ effortTarget st h s ≤ 1000 := by
  have brake := law.value_fits (n := Setting.haltBrake) rfl
  have slowing := law.value_fits (n := Setting.overspeedBrake) rfl
  unfold effortTarget taperLimit clampInt
  repeat' split
  all_goals (simp only at brake slowing; omega)

/-- The target of stage 4 is not positive behind a closed gate (R39), the demand having been gated in `s₀`, where the traction state
was as now or the unit now is HALTED. -/
theorem effortTarget_closed {st : SettingsStore} (law : SettingsLaw st) {h : Int} {s₀ s : State}
    (state : s.traction.state = s₀.traction.state ∨ s.traction.state = .halted) (closed : gateOpen s = false) :
    effortTarget st (gateDemand h s₀) s ≤ 0 := by
  have brake := law.value_fits (n := Setting.haltBrake) rfl
  have slowing := law.value_fits (n := Setting.overspeedBrake) rfl
  simp only at brake slowing
  unfold effortTarget
  split
  · omega
  next moves =>
    split
    · omega
    next slow =>
      have still : s₀.traction.state ≠ .running := fun e => by
        have : gateOpen s = true := (gateOpen_iff s).2 ⟨(state.resolve_right moves).trans e, by simpa using slow⟩
        rw [closed] at this; cases this
      have := gateDemand_closed (h := h) (s := s₀) (by simp [gateOpen, still])
      split <;> omega

/-- Stage 4 keeps the law of power: E moves toward a target in range, not positive behind a closed gate (R39, R40, R41). -/
theorem PowerLaw.moveEffort {s : State} (law : PowerLaw s) {st : SettingsStore} (settings : SettingsLaw st) {h : Int} {s₀ : State}
    (fits : -1000 ≤ h ∧ h ≤ 1000) (state : s.traction.state = s₀.traction.state ∨ s.traction.state = .halted) :
    PowerLaw (moveEffort st (gateDemand h s₀) s) := by
  have power := settings.value_fits (n := Setting.powerBuild) rfl
  have brake := settings.value_fits (n := Setting.brakeBuild) rfl
  have release := settings.value_fits (n := Setting.release) rfl
  simp only at power brake release
  have range := ramp_fits (rp := st.value Setting.powerBuild) (rb := st.value Setting.brakeBuild)
    (rr := st.value Setting.release) (by omega) (by omega) (by omega) law.range.effort
    (effortTarget_fits settings s (gateDemand_fits (s := s₀) fits))
  have gate : gateOpen s = false → rampEffort (st.value Setting.powerBuild) (st.value Setting.brakeBuild)
      (st.value Setting.release) s.traction.effort (effortTarget st (gateDemand h s₀) s) ≤ 0 := fun closed => by
    have effort : s.traction.effort ≤ 0 := by
      by_contra positive
      have := (gateOpen_iff s).2 (law.gate (by omega))
      rw [closed] at this; cases this
    exact ramp_nonpos (by omega) effort (effortTarget_closed settings state closed)
  unfold Machine.moveEffort judgeEffort
  dsimp only
  refine ⟨judgeLock_settings ⟨law.settings.effective, law.settings.pending, law.settings.held⟩, ⟨?_, ?_⟩, ?_, ?_⟩
  · simpa using law.halt.halted
  · simpa using law.halt.latched
  · rw [judgeLock_traction]
    exact ⟨by simp only [State.setSettings_traction, State.setTraction_traction]; split <;> omega, law.range.lastH⟩
  · rw [judgeLock_traction]
    intro positive
    simp only [State.setSettings_traction, State.setTraction_traction] at positive ⊢
    split at positive
    · exact absurd positive (by decide)
    · refine (gateOpen_iff s).1 ?_
      by_contra closed
      have := gate (by simpa using closed)
      omega

/-- The halt primitives keep the law of power. -/
theorem haltWalk_power : HaltWalk PowerLaw where
  raise := fun {s k j v} law => law.transfer rfl (raise_traction k j v s) (raise_halt k j v s)
  lock := fun {s g b} law => law.store (judgeLock_settings law.settings) (judgeLock_traction g b s) (judgeLock_halt g b s)
  sound := fun _ law => law.transfer rfl rfl rfl
  outputs := fun {s t} keeps law => by
    obtain ⟨state, effort, overspeed, lastH⟩ := keeps
    exact ⟨law.settings, ⟨by simpa [state] using law.halt.halted, law.halt.latched⟩,
      ⟨by simpa [effort] using law.range.effort, by simpa [lastH] using law.range.lastH⟩,
      fun positive => by simpa [state, overspeed] using law.gate (by simpa [effort] using positive)⟩
  inhibit := fun law => law.enterInhibited
  full := fun law => ⟨law.settings, ⟨law.halt.halted, law.halt.latched⟩, ⟨by simp, law.range.lastH⟩, by simp [GateLaw]⟩
  effortHeld := fun law => law.store ⟨law.settings.effective, law.settings.pending, law.settings.held⟩ rfl rfl
  start := fun {s} held law => by
    exact law.opened _ (by simp [held]) (by simp) rfl rfl
  lines := fun _ _ law => law.transfer rfl rfl rfl
  ack := fun law => ⟨law.settings, ⟨law.halt.halted, law.halt.latched⟩, law.range, law.gate⟩
  latch := fun _ law => law.latch _ rfl
  causes := fun {s c} present law => ⟨law.settings, ⟨law.halt.halted, fun any => (present any).elim law.halt.latched id⟩,
    law.range, law.gate⟩

theorem chainWalk_power : ChainWalk PowerLaw where
  toHaltWalk := haltWalk_power
  release := fun {s} none isSet law => by
    have effort := law.closed (by simp [law.halt.halted.2 isSet])
    exact ⟨law.settings, ⟨by simp, fun any => by simp [none] at any⟩, ⟨law.range.effort, law.range.lastH⟩, fun positive => by
      simp only [State.setTraction_traction] at positive; omega⟩
  sense := fun law => law.transfer rfl rfl rfl
  bogies := fun _ law => law.transfer rfl rfl rfl
  sandOn := fun _ _ law => law.transfer rfl rfl rfl
  sandEnd := fun _ law => law.transfer rfl rfl rfl
  free := fun law => law.transfer rfl rfl rfl
  exit := fun {s} held law => by
    exact law.opened _ (by simp [held]) (by simp) rfl rfl
  hold := fun {s} held law => by
    exact law.opened _ (by simp [held]) (by simp) rfl rfl
  handle := fun {s t} state effort overspeed lastH law =>
    ⟨law.settings, ⟨by simpa [state] using law.halt.halted, law.halt.latched⟩,
      ⟨by simpa [effort] using law.range.effort, lastH⟩,
      fun positive => by simpa [state, overspeed] using law.gate (by simpa [effort] using positive)⟩
  move := fun {s₀ s₁ s h} base start fits law => by
    obtain ⟨judged, state⟩ := judgeOverspeed_facts s₀.settings s law
    refine PowerLaw.moveEffort ?_ base.settings (fits start.range) ?_
    · unfold judgeRollback
      exact ite_at (fun _ => addCauses_at haltWalk_power judged) fun _ => judged
    · unfold judgeRollback
      split
      · rcases addCauses_traction [.rollback] (judgeOverspeed s₀.settings s) with e | e
        · exact .inl (e.trans state)
        · exact .inr e
      · exact .inl state

theorem power_afterReset (s : State) : PowerLaw (resetBlocks s) where
  settings := ⟨by simp [resetBlocks, SettingsStore.atReset], by simp [resetBlocks, SettingsStore.atReset],
    by simp [resetBlocks, SettingsStore.atReset]⟩
  halt := ⟨by simp [resetBlocks, Traction.atReset, HaltLatch.atReset], by simp [resetBlocks, HaltLatch.atReset]; decide⟩
  range := ⟨by simp [resetBlocks, Traction.atReset], by simp [resetBlocks, Traction.atReset]⟩
  gate := by simp [GateLaw, resetBlocks, Traction.atReset]

/-- Every primitive of a command keeps the law of power. -/
theorem wholeWalk_power : WholeWalk PowerLaw := {
  chainWalk_power with
  route := fun _ _ law => law.transfer rfl rfl rfl
  sand := fun {s} law => by rw [At, releaseSand_eq]; exact PowerLaw.transfer law rfl rfl rfl
  inhibited := fun _ law => law.transfer rfl rfl rfl
  junction := fun _ law => law.transfer rfl rfl rfl
  stop := fun law => law.transfer rfl rfl rfl
  vigil := fun _ law => law.transfer rfl rfl rfl
  role := fun _ law => law.transfer rfl rfl rfl
  axle := fun _ law => law.transfer rfl rfl rfl
  moving := fun law => law.transfer rfl rfl rfl
  stopped := fun _ law => law.transfer rfl rfl rfl
  flagged := fun {s f} law => ⟨law.settings, ⟨by simpa using law.halt.halted, by simpa using law.halt.latched⟩,
    law.range, law.gate⟩
  clock := fun law => law.transfer rfl rfl rfl
  pins := fun law => law.transfer rfl rfl rfl
  link := fun _ _ _ law => law.transfer rfl rfl rfl
  pending := fun law => law.transfer rfl rfl rfl
  settings := fun keeps law => law.store (keeps law.settings) rfl rfl
  events := fun law => law.transfer rfl rfl rfl
  blocks := fun {s} _ => power_afterReset s
  restarted := fun law => law.transfer rfl rfl rfl
  fresh := fun law => law.transfer rfl rfl rfl }

/-- What a command's primitives keep, a step keeps (log entry 2): the idle millisecond moves the clock alone. -/
theorem step_keeps {P : State → Prop} (W : WholeWalk P) {s t : State} (h : P s) (next : step s = .next t) : P t := by
  unfold step at next
  split at next
  · cases next; exact W.clock h
  next c rest _ => exact exec_keeps W c (W.pending h) t next

end Sys2Proof.Machine
end

section
/-! Event walks: what the operations an event runs through keep, cause by cause and lock group by lock group. Causes become present
or end with the HALT drive judged (R74), a slot is taken or left as the cancel queue has it (R113), and a junction entry changes its
state with JUNCTION and BREACH judged (R61). -/

namespace Sys2Proof.Machine

/-- `b` is `a`, or `a` after changes that leave a junction's state and C mark and cross marks only onward. -/
def Entry.Tame (a b : Entry) : Prop :=
  ∀ j, b.body = .junction j → ∃ k, a.body = .junction k ∧ j.state = k.state ∧ j.markC = k.markC ∧ a.crossed ≤ b.crossed

/-- The route engine with no junction entry changed in state or brought in, at the same distance. -/
structure RouteEngine.Tame (a b : RouteEngine) : Prop where
  distance : b.distance = a.distance
  entries : ∀ e ∈ b.table, ∃ x ∈ a.table, x.Tame e

/-- The primitives of the sound unit, with the events and the lock that come with a change of it. -/
structure ToneWalk (P : State → Prop) : Prop where
  note : ∀ {s k j v}, k = 7 ∨ k = 8 → At P s → At P (raise k j v s)
  sounding : ∀ {s b}, At P s → At P (judgeLock .g5 b s)
  sound : ∀ {s u}, u.loaded = s.sound.loaded → At P s → At P (s.setSound u)

/-- The primitives of an event that leaves the role, the place and the settings' own requests alone; of the causes only those of `C`
change. -/
structure EventWalk (C : Cause → Prop) (P : State → Prop) : Prop extends ToneWalk P where
  free : ∀ c, c ≠ .host → c ≠ .rollback → c ≠ .demandLost → C c
  raise : ∀ {s k j v}, k ≠ 30 → At P s → At P (raise k j v s)
  lock : ∀ {s g b}, g = .g3 ∨ g = .g4 ∨ g = .g5 → At P s → At P (judgeLock g b s)
  add : ∀ {s cs}, .breach ∉ cs → (∀ c ∈ cs, C c) → At P s → At P (addCauses cs s)
  remove : ∀ {s cs}, .breach ∉ cs → (∀ c ∈ cs, C c) → At P s → At P (removeCauses cs s)
  lines : ∀ {s l}, l.role = s.lines.role → l.coupled = s.lines.coupled → l.halting = s.lines.halting → At P s →
    At P (s.setLines l)
  route : ∀ {s r}, s.route.Tame r → At P s → At P (s.setRoute r)
  sand : ∀ {s}, At P s → At P (releaseSand s)
  junction : ∀ {s u}, (CancelLaw s.junction → CancelLaw u) → At P s → At P (s.setJunction u)
  vigil : ∀ {s v}, At P s → At P (s.setVigilance v)
  enter : ∀ {s tag st}, st ≠ .breached → At P s →
    At P (judgeJunctionCauses (changeEntry tag (Entry.onJunction fun j => { j with state := st }) s))

/-- The primitives of a sweep: at its C mark an entry may become BREACHED (R125). -/
structure CrossWalk (C : Cause → Prop) (P : State → Prop) : Prop extends EventWalk C P where
  breach : ∀ {s e j}, e ∈ s.route.table → e.body = .junction j → e.crossed = 2 → j.markC ≤ s.route.distance → At P s →
    At P (crossMark e s)

variable {C : Cause → Prop} {P : State → Prop} {s : State}

/-! ### Tame changes of the route -/

theorem Entry.Tame.refl (e : Entry) : e.Tame e := fun j body => ⟨j, body, rfl, rfl, le_rfl⟩

/-- A change that makes no junction entry of another kind is tame. -/
theorem Entry.Tame.same {a b : Entry} (h : ∀ j, b.body = .junction j → b = a) : a.Tame b := fun j body => by
  obtain rfl := h j body; exact Entry.Tame.refl b j body

theorem RouteEngine.Tame.kept {a b : RouteEngine} (distance : b.distance = a.distance) (table : b.table = a.table) : a.Tame b :=
  ⟨distance, fun e mem => ⟨e, table ▸ mem, .refl e⟩⟩

theorem RouteEngine.Tame.map {a b : RouteEngine} {f : Entry → Entry} (tame : ∀ e : Entry, e.Tame (f e)) (distance : b.distance = a.distance)
    (table : b.table = a.table.map f) : a.Tame b :=
  ⟨distance, fun e mem => by
    rw [table] at mem
    obtain ⟨x, inside, rfl⟩ := List.mem_map.1 mem
    exact ⟨x, inside, tame x⟩⟩

theorem RouteEngine.Tame.filter {a b : RouteEngine} {p : Entry → Bool} (distance : b.distance = a.distance)
    (table : b.table = a.table.filter p) : a.Tame b :=
  ⟨distance, fun e mem => ⟨e, List.mem_of_mem_filter (table ▸ mem), .refl e⟩⟩

theorem clearRestriction_tame (n d : Nat) (e : Entry) : e.Tame (clearRestriction n d e) := by
  unfold clearRestriction
  split
  · split
    · exact fun j body => by cases body
    · exact Entry.Tame.refl e
  · exact Entry.Tame.refl e

theorem onSignal_tame (f : SignalEntry → SignalEntry) (e : Entry) : e.Tame (e.onSignal f) := .same fun j body => by
  unfold Entry.onSignal at body ⊢; split <;> simp_all

theorem onStop_tame (f : StopEntry → StopEntry) (e : Entry) : e.Tame (e.onStop f) := .same fun j body => by
  unfold Entry.onStop at body ⊢; split <;> simp_all

theorem onRestriction_tame (f : RestrictionEntry → RestrictionEntry) (e : Entry) : e.Tame (e.onRestriction f) :=
  .same fun j body => by unfold Entry.onRestriction at body ⊢; split <;> simp_all

theorem onJunction_tame {f : JunctionEntry → JunctionEntry} (keeps : ∀ j, (f j).state = j.state ∧ (f j).markC = j.markC) (e : Entry) :
    e.Tame (e.onJunction f) := fun j body => by
  unfold Entry.onJunction at body ⊢
  split at body
  next k own =>
    obtain rfl := EntryBody.junction.inj body
    exact ⟨k, own, (keeps k).1, (keeps k).2, le_rfl⟩
  next other => exact absurd body (other j)

theorem bumped_tame (e : Entry) : e.Tame { e with crossed := e.crossed + 1 } := fun j body => ⟨j, body, rfl, rfl, Nat.le_succ _⟩

theorem mapEntry_tame {tag : Nat} {f : Entry → Entry} (tame : ∀ e : Entry, e.Tame (f e)) (e : Entry) :
    e.Tame (if e.tag = tag then f e else e) := by
  split
  · exact tame e
  · exact .refl e

theorem changeEntry_event (W : EventWalk C P) {tag f} (tame : ∀ e, Entry.Tame e (f e)) (h : At P s) :
    At P (changeEntry tag f s) := W.route (.map (mapEntry_tame tame) rfl rfl) h

/-! ### Sounds -/

theorem judgeSound_event (W : ToneWalk P) (h : At P s) : At P (judgeSound s) := W.sounding h

theorem strike_event (W : ToneWalk P) (h : At P s) : At P (strike s) := ite_at (fun _ => h) fun _ => W.sound (by simp) h

theorem enterStep_event (W : ToneWalk P) {c p st i j t} (h : At P s) : At P (enterStep c p st i j t s) :=
  ite_at (fun _ => strike_event W (W.sound (by simp) h)) fun _ => W.sound (by simp) h

theorem takePattern_event (W : ToneWalk P) {c p} (h : At P s) : At P (takePattern c p s) := by
  unfold takePattern; split
  · exact enterStep_event W h
  · exact h

theorem leavePlayer_event (W : ToneWalk P) {c} (h : At P s) : At P (leavePlayer c s) := by
  unfold leavePlayer; split
  · exact judgeSound_event W (W.sound (by simp) h)
  · exact judgeSound_event W (takePattern_event W (W.sound (by simp) h))

theorem queueRequest_event (W : ToneWalk P) {c w} (h : At P s) : At P (queueRequest c w s).1 := by
  unfold queueRequest; dsimp only; split
  · exact W.sound (by simp) h
  · split
    · exact h
    · exact W.note (by simp) (W.sound (by simp) h)
    · exact W.note (by simp) h

theorem requestPattern_event (W : ToneWalk P) {p o} (h : At P s) : At P (requestPattern p o s).1 := by
  unfold requestPattern; split
  · exact h
  · dsimp only; split
    · exact h
    · split
      · exact W.sound (by simp) h
      · split
        · exact judgeSound_event W (takePattern_event W h)
        · split
          · exact takePattern_event W (W.note (by simp) h)
          · exact queueRequest_event W h
        · exact queueRequest_event W h

theorem askFor_event (W : ToneWalk P) {p} (h : At P s) : At P (askFor p s) := requestPattern_event W h

theorem silencePattern_event (W : ToneWalk P) {p} (h : At P s) : At P (silencePattern p s) := by
  unfold silencePattern; split
  · exact h
  · exact ite_at (fun _ => leavePlayer_event W h) fun _ => W.sound (by simp) h

theorem releaseBell_event (W : ToneWalk P) (h : At P s) : At P (releaseBell s) :=
  ite_at (fun _ => leavePlayer_event W (W.sound (by simp) h)) fun _ => h

theorem endHorn_event (W : ToneWalk P) (h : At P s) : At P (endHorn s) := leavePlayer_event W (W.sound (by simp) h)

theorem releaseControls_event (W : ToneWalk P) (h : At P s) : At P (releaseControls s) :=
  ite_at (fun _ => endHorn_event W (releaseBell_event W h)) fun _ => releaseBell_event W h

/-! ### The route engine -/

theorem formCeiling_event (W : EventWalk C P) (h : At P s) : At P (formCeiling s) := W.route (.kept rfl rfl) h

theorem judgeInhibit_event (W : EventWalk C P) (h : At P s) : At P (judgeInhibit s) :=
  W.route (.kept rfl rfl) (ite_at (fun _ => W.sand h) fun _ => h)

theorem settleRoute_event (W : EventWalk C P) (h : At P s) : At P (settleRoute s) :=
  judgeInhibit_event W (formCeiling_event W (W.route (.filter rfl rfl) h))

theorem settleAfter_event (W : EventWalk C P) {l} (h : At P s) : At P (settleAfter l s) :=
  ite_at (fun _ => h) fun _ => settleRoute_event W h

theorem refreshSetLength_event (W : EventWalk C P) (h : At P s) : At P (refreshSetLength s) :=
  ite_at (fun _ => h) fun _ => settleAfter_event W (W.route (.map (clearRestriction_tame _ _) rfl rfl) h)

theorem endRoute_event (W : EventWalk C P) (h : At P s) : At P (endRoute s) :=
  settleRoute_event W (W.route (.map (clearRestriction_tame _ _) rfl rfl) h)

/-! ### Slots and the cancel queue -/

theorem JunctionUnit.slot_setSlot (u : JunctionUnit) (i k : SlotId) (x : Slot) :
    (u.setSlot i x).slot k = if k = i then x else u.slot k := by cases i <;> cases k <;> rfl

@[simp] theorem JunctionUnit.setSlot_cancelQueue (u : JunctionUnit) (i : SlotId) (x : Slot) :
    (u.setSlot i x).cancelQueue = u.cancelQueue := by cases i <;> rfl

/-- The cancel law reads the queue and which slots are kept for it. -/
theorem CancelLaw.same {u v : JunctionUnit} (queue : v.cancelQueue = u.cancelQueue)
    (slots : ∀ i, (v.slot i).holder = .cancelled ↔ (u.slot i).holder = .cancelled) (law : CancelLaw u) : CancelLaw v where
  room := by rw [queue]; exact law.room
  once := by rw [queue]; exact law.once
  kept := fun i => by rw [slots, queue]; exact law.kept i

/-- A slot changed that is not kept for the cancel queue, neither before nor after. -/
theorem CancelLaw.setSlot {u : JunctionUnit} {i : SlotId} {x : Slot} (before : (u.slot i).holder ≠ .cancelled)
    (after : x.holder ≠ .cancelled) (law : CancelLaw u) : CancelLaw (u.setSlot i x) :=
  law.same (by simp) fun k => by rw [JunctionUnit.slot_setSlot]; split <;> simp_all

/-- A slot's request and timer are no matter of the cancel queue. -/
theorem onSlot_event (W : EventWalk C P) {i f} (holder : (f (s.junction.slot i)).holder = (s.junction.slot i).holder) (h : At P s) :
    At P (onSlot i f s) :=
  W.junction (CancelLaw.same (by simp) fun k => by rw [JunctionUnit.slot_setSlot]; split <;> simp_all) h

theorem onSlot_taken (W : EventWalk C P) {i f} (before : (s.junction.slot i).holder ≠ .cancelled)
    (after : (f (s.junction.slot i)).holder ≠ .cancelled) (h : At P s) : At P (onSlot i f s) :=
  W.junction (CancelLaw.setSlot before after) h

theorem transmitter_event (W : EventWalk C P) {x} (h : At P s) : At P (s.setJunction { s.junction with transmitter := x }) :=
  W.junction (CancelLaw.same rfl fun i => by cases i <;> rfl) h

theorem takeUpRoute_event (W : EventWalk C P) {old} (h : At P s) : At P (takeUpRoute old s) := by
  have turned : At P (if Requester.all.all fun r => old.value (Setting.classOf r) == s.cfg (Setting.classOf r) then s
      else s.setJunction { s.junction with rotation := keptRotation s.settings s.junction.rotation }) :=
    ite_at (fun _ => h) fun _ => W.junction (CancelLaw.same rfl fun i => by cases i <;> rfl) h
  exact ite_at (fun _ => turned) fun _ => refreshSetLength_event W turned

theorem judgeRoute_event (W : EventWalk C P) (h : At P s) : At P (judgeRoute s) := takeUpRoute_event W (W.lock (by simp) h)

theorem beginTurn_event (W : EventWalk C P) {r} (h : At P s) : At P (beginTurn r s) := by
  unfold beginTurn; split
  · exact h
  next t entry _ =>
    dsimp only
    refine transmitter_event W ?_
    have withdrawn : At P (match r.slot? with
      | some i => onSlot i (fun x => { x with waiting := false }) s
      | none => s) := by
      split
      · exact onSlot_event W rfl h
      · exact h
    split
    · exact changeEntry_event W (onJunction_tame fun _ => ⟨rfl, rfl⟩) withdrawn
    · exact withdrawn

theorem tryGrant_event (W : EventWalk C P) (h : At P s) : At P (tryGrant s) := by
  unfold tryGrant; split
  · split
    · exact beginTurn_event W (W.junction (CancelLaw.same rfl fun i => by cases i <;> rfl) h)
    · split
      · exact beginTurn_event W (W.junction (CancelLaw.same rfl fun i => by cases i <;> rfl) h)
      · exact h
  · exact h

theorem startAsking_event (W : EventWalk C P) {i} (h : At P s) : At P (startAsking i s) :=
  tryGrant_event W (onSlot_event W rfl (onSlot_event W rfl h))

theorem startAskingFor_event (W : EventWalk C P) {tag} (h : At P s) : At P (startAskingFor tag s) := by
  unfold startAskingFor; split
  · exact startAsking_event W h
  · exact h

theorem stopAskingFor_event (W : EventWalk C P) {tag} (h : At P s) : At P (stopAskingFor tag s) := by
  unfold stopAskingFor; split
  · exact onSlot_event W rfl h
  · exact h

/-- A slot found by its entry holds that entry. -/
theorem slotOf_holder {u : JunctionUnit} {tag : Nat} {i : SlotId} (h : u.slotOf tag = some i) : (u.slot i).holder = .entry tag := by
  simpa using List.find?_some h

theorem takeSlot_event (W : EventWalk C P) {tag} (h : At P s) : At P (takeSlot tag s) := by
  unfold takeSlot; split
  · exact h
  · split
    · split
      · exact h
      next i found =>
        have free : (s.junction.slot i).holder = .free := by simpa using List.find?_some found
        have held : At P (onSlot i (fun _ => ⟨.entry tag, false, none⟩) s) := onSlot_taken W (by simp [free]) (by simp) h
        exact ite_at (fun _ => startAsking_event W held) fun _ => held
    · exact h

theorem serveWaiting_event (W : EventWalk C P) (h : At P s) : At P (serveWaiting s) :=
  foldl_at (fun _ h => takeSlot_event W h) _ h

theorem vacate_event (W : EventWalk C P) {tag} (h : At P s) : At P (vacate tag .free s) := by
  unfold vacate; split
  next i found =>
    exact transmitter_event W (onSlot_taken W (by simp [slotOf_holder found]) (by simp) h)
  · exact h

/-! ### The state of a junction entry -/

theorem judgeWarning_event (W : EventWalk C P) {b} (h : At P s) : At P (judgeWarning b s) :=
  ite_at (fun _ => silencePattern_event W.toToneWalk h) fun _ => h

theorem enterJunction_event (W : EventWalk C P) {tag st} (unbreached : st ≠ .breached) (h : At P s) :
    At P (enterJunction tag st s) := judgeWarning_event W (W.enter unbreached h)

theorem crossA_event (W : EventWalk C P) {tag j} (h : At P s) : At P (crossA tag j s) :=
  ite_at (fun _ => formCeiling_event W (judgeRoute_event W (takeSlot_event W (enterJunction_event W (by decide) h)))) fun _ => h

theorem crossE_event (W : EventWalk C P) {tag j} (h : At P s) : At P (crossE tag j s) :=
  ite_at (fun _ => W.raise (by decide) (askFor_event W.toToneWalk (enterJunction_event W (by decide) h))) fun _ => h

theorem crossX_event (W : EventWalk C P) {tag j} (h : At P s) : At P (crossX tag j s) :=
  ite_at (fun _ => judgeRoute_event W (serveWaiting_event W (vacate_event W (enterJunction_event W (by decide) h)))) fun _ => h

/-! ### Signals and stops -/

theorem signals_event (W : EventWalk C P) {q} (h : At P s) : At P (s.setJunction { s.junction with signalQueue := q }) :=
  W.junction (CancelLaw.same rfl fun i => by cases i <;> rfl) h

theorem offerSignal_event (W : EventWalk C P) {item} (h : At P s) : At P (offerSignal item s) := by
  unfold offerSignal; dsimp only
  refine ite_at (fun _ => h) fun _ => ite_at (fun _ => tryGrant_event W (signals_event W h)) fun _ =>
    ite_at (fun _ => tryGrant_event W (signals_event W h)) fun _ => ite_at (fun _ => ?_) fun _ => h
  exact W.raise (by decide) h

theorem crossSignal_event (W : EventWalk C P) {tag m g} (h : At P s) : At P (crossSignal tag m g s) := by
  have changed : ∀ f, At P (changeEntry tag (Entry.onSignal f) s) := fun f => changeEntry_event W (onSignal_tame f) h
  unfold crossSignal; split
  · exact ite_at (fun _ => judgeRoute_event W (offerSignal_event W (changed _))) fun _ => h
  · exact ite_at (fun _ => judgeRoute_event W (offerSignal_event W (ite_at (fun _ => W.raise (by decide) (changed _)) fun _ =>
      changed _))) fun _ => h
  · exact h

theorem enterStop_event (W : EventWalk C P) {tag st} (h : At P s) : At P (enterStop tag st s) :=
  changeEntry_event W (onStop_tame _) h

theorem crossPass_event (W : EventWalk C P) {tag p} (h : At P s) : At P (crossPass tag p s) :=
  ite_at (fun _ => ite_at (fun _ => W.raise (by decide) (enterStop_event W h)) fun _ => enterStop_event W h) fun _ => h

theorem crossStop_event (W : EventWalk C P) {tag m p} (h : At P s) : At P (crossStop tag m p s) := by
  unfold crossStop; split
  · exact ite_at (fun _ => ite_at (fun _ => enterStop_event W h) fun _ => askFor_event W.toToneWalk (enterStop_event W h)) fun _ => h
  · exact crossPass_event W h
  · exact h

theorem bumpCrossed_event (W : EventWalk C P) {tag} (h : At P s) : At P (bumpCrossed tag s) := changeEntry_event W bumped_tame h

theorem serveEntry_event (W : EventWalk C P) {e} (h : At P s) : At P (serveEntry s e) := by
  unfold serveEntry; split
  · exact ite_at (fun _ => W.raise (by decide) (enterStop_event W h)) fun _ => h
  · exact h

theorem serveStops_event (W : EventWalk C P) (h : At P s) : At P (serveStops s) :=
  ite_at (fun _ => settleAfter_event W (foldl_at (fun _ h => serveEntry_event W h) _ h)) fun _ => h

/-! ### The sweep -/

/-- A due entry's next mark lies at or below the route distance (R95): for a junction with two marks crossed that is its C mark. -/
theorem due_markC {e : Entry} {j : JunctionEntry} (due : e.isDue s) (body : e.body = .junction j) (second : e.crossed = 2) :
    j.markC ≤ s.route.distance := by
  obtain ⟨m, next, reached⟩ := due
  simp only [nextMark, body, second, EntryBody.marks, List.getElem?_cons_succ, List.getElem?_cons_zero, Option.some.injEq] at next
  omega

theorem crossMark_event (W : CrossWalk C P) {e} (mem : e ∈ s.route.table) (due : e.isDue s) (h : At P s) :
    At P (crossMark e s) := by
  have E := W.toEventWalk
  have counted : At P (bumpCrossed e.tag s) := bumpCrossed_event E h
  have junction : ∀ j, e.body = .junction j → At P (crossMark e s) := fun j body => by
    by_cases second : e.crossed = 2
    · exact W.breach mem body second (due_markC due body second) h
    · unfold crossMark crossJunction
      dsimp only
      rw [body]
      dsimp only
      split
      · exact crossA_event E counted
      · exact crossE_event E counted
      next again => exact absurd again second
      · exact crossX_event E counted
      · exact counted
  cases body : e.body with
  | junction j => exact junction j body
  | signal g => unfold crossMark; rw [body]; exact crossSignal_event E counted
  | stop p => unfold crossMark; rw [body]; exact crossStop_event E counted
  | restriction r => unfold crossMark; rw [body]; exact changeEntry_event E (onRestriction_tame _) counted

theorem sweepMarks_event (W : CrossWalk C P) (n : Nat) (h : At P s) : At P (sweepMarks n s) := by
  induction n generalizing s with
  | zero => exact h
  | succ n ih =>
    unfold sweepMarks; split
    next e found => exact ih (crossMark_event W (nextCrossing_some found).1 (nextCrossing_some found).2 h)
    · exact h

/-! ### Vigilance -/

theorem judgeVigilance_event (W : EventWalk C P) (h : At P s) : At P (judgeVigilance s) := by
  have tripped : ∀ c ∈ [Cause.vigilance], C c := by simpa using W.free .vigilance (by decide) (by decide) (by decide)
  unfold judgeVigilance
  refine ite_at (fun _ => ite_at (fun _ => ite_at (fun _ => W.vigil h) fun _ => W.vigil h) fun _ => h) fun _ => ?_
  split
  · exact h
  · exact W.vigil h
  · exact W.vigil h
  · exact silencePattern_event W.toToneWalk (W.vigil h)
  · exact silencePattern_event W.toToneWalk (W.vigil h)
  · exact ite_at (fun _ => h) fun _ => silencePattern_event W.toToneWalk (W.remove (by decide) tripped (W.vigil h))

theorem enterTrail_event (W : EventWalk C P) (h : At P s) : At P (enterTrail s) := by
  unfold enterTrail; split
  · exact h
  · exact transmitter_event W h
  · exact transmitter_event W h

theorem reportSource_event (W : EventWalk C P) {b a v} (h : At P s) : At P (reportSource b a v s) := by
  have cause : ∀ c ∈ [Cause.referenceLost], C c := by simpa using W.free .referenceLost (by decide) (by decide) (by decide)
  have degraded : At P (if a.isDegraded && !b.isDegraded then raise 11 a.motor v s else s) :=
    ite_at (fun _ => W.raise (by decide) h) fun _ => h
  exact ite_at (fun _ => W.add (by decide) cause (W.raise (by decide) degraded)) fun _ =>
    ite_at (fun _ => W.remove (by decide) cause degraded) fun _ => degraded

/-! ### Properties that do not read the route engine -/

/-- An event walk for a property that does not read the route engine, from the halt causes joined and ended in any way. -/
theorem CrossWalk.blind (free : ∀ c, c ≠ .host → c ≠ .rollback → c ≠ .demandLost → C c)
    (raise : ∀ {s k j v}, k ≠ 30 → At P s → At P (raise k j v s))
    (lock : ∀ {s g b}, g = .g3 ∨ g = .g4 ∨ g = .g5 → At P s → At P (judgeLock g b s))
    (sound : ∀ {s u}, At P s → At P (s.setSound u))
    (add : ∀ {s cs}, (∀ c ∈ cs, C c) → At P s → At P (addCauses cs s))
    (remove : ∀ {s cs}, (∀ c ∈ cs, C c) → At P s → At P (removeCauses cs s))
    (lines : ∀ {s l}, l.role = s.lines.role → l.coupled = s.lines.coupled → l.halting = s.lines.halting → At P s →
      At P (s.setLines l))
    (route : ∀ {s r}, At P s → At P (s.setRoute r)) (sand : ∀ {s}, At P s → At P (releaseSand s))
    (junction : ∀ {s u}, (CancelLaw s.junction → CancelLaw u) → At P s → At P (s.setJunction u))
    (vigil : ∀ {s v}, At P s → At P (s.setVigilance v)) : CrossWalk C P := by
  have judged : ∀ {s : State}, At P s → At P (judgeJunctionCauses s) := fun h => by
    have breach := free .breach (by decide) (by decide) (by decide)
    have junction := free .junction (by decide) (by decide) (by decide)
    refine remove ?_ (add ?_ h) <;> intro c mem <;> rcases List.mem_append.1 mem with mem | mem <;> split at mem <;>
      simp at mem <;> subst mem <;> assumption
  have W : EventWalk C P := ⟨⟨fun e => raise (by omega), lock (by simp), fun _ => sound⟩, free, raise, lock, fun _ => add, fun _ => remove, lines, fun _ => route, sand, junction, vigil,
    fun _ h => judged (route h)⟩
  refine { W with breach := fun {s e j} mem body second reached h => ?_ }
  have counted : At P (bumpCrossed e.tag s) := bumpCrossed_event W h
  unfold crossMark crossJunction
  rw [body, second]
  exact ite_at (fun _ => formCeiling_event W (raise (by decide)
    (judgeWarning_event W (judged (route (stopAskingFor_event W counted)))))) fun _ => counted

end Sys2Proof.Machine
end

section
/-! Command walks: the event walk carried through every command. Beside the primitives of an event, a command may change the role,
the place, the pins and the host link, and judge the groups of standstill; a setting's value, a freeze flag and a pass of the effort
chain are primitives of a step walk. -/

namespace Sys2Proof.Machine

/-- The fields of the effort that stages 4 to 7 write are the same. -/
structure Traction.SameEffort (a b : Traction) : Prop where
  effort : b.effort = a.effort
  effortA : b.effortA = a.effortA
  effortB : b.effortB = a.effortB
  powerLimit : b.powerLimit = a.powerLimit
  brakeLimit : b.brakeLimit = a.brakeLimit

/-- The primitives of every command, for a property that does not read the route engine. -/
structure CommandWalk (P : State → Prop) : Prop where
  raise : ∀ {s k j v}, k ≠ 30 → At P s → At P (raise k j v s)
  lock : ∀ {s g b}, g = .g3 ∨ g = .g4 ∨ g = .g5 → At P s → At P (judgeLock g b s)
  sound : ∀ {s u}, At P s → At P (s.setSound u)
  add : ∀ {s cs}, At P s → At P (addCauses cs s)
  remove : ∀ {s cs}, At P s → At P (removeCauses cs s)
  sand : ∀ {s}, At P s → At P (releaseSand s)
  junction : ∀ {s u}, (CancelLaw s.junction → CancelLaw u) → At P s → At P (s.setJunction u)
  vigil : ∀ {s v}, At P s → At P (s.setVigilance v)
  tweak : ∀ {s x}, s.traction.SameEffort x → At P s → At P (s.setTraction x)
  inhibit : ∀ {s}, At P s → At P (enterInhibited s)
  halt : ∀ {s x}, x.causes = s.halt.causes → At P s → At P (s.setHalt x)
  lines : ∀ {s l}, l.halting = s.lines.halting → At P s → At P (s.setLines l)
  sense : ∀ {s}, At P s → At P (senseHalt s)
  groups : ∀ {s}, At P s → At P (judgeStandstillGroups s)
  axle : ∀ {s x}, At P s → At P (s.setAxle x)
  stop : ∀ {s x}, At P s → At P (s.setStop x)
  place : ∀ {s r}, At P s → At P (s.setRoute r)
  sandState : ∀ {s x}, At P s → At P (s.setAdhesion { s.adhesion with sand := x })
  clock : ∀ {s n}, At P s → At P (s.setNow n)
  pins : ∀ {s x}, At P s → At P (s.setPins x)
  host : ∀ {s x}, At P s → At P (s.setHost x)

/-- The command walk with the reset, a setting's value, a freeze flag, a pass of the effort chain, and the adhesion fault of a bogie
that slips. -/
structure StepWalk (P : State → Prop) : Prop extends CommandWalk P where
  reset : ∀ {s}, At P s → At P (resetBlocks s)
  value : ∀ {s g n v}, groupOf n = some g → settingAllows n v = true → At P s → At P (takeValue g n v s)
  freeze : ∀ {s g b}, At P s → At P (setFreeze g b s)
  pass : ∀ {s}, At P s → At P (effortPass s)
  fault : ∀ {s i x}, (s.adhesion.bogie i).state = .slipping → At P s → At P (raiseAdhesionFault s.settings i x s)

variable {P : State → Prop} {s : State}

theorem CommandWalk.outer (W : CommandWalk P) : OuterWalk P := ⟨W.clock, W.pins⟩

theorem CommandWalk.cross (W : CommandWalk P) : CrossWalk (fun _ => True) P :=
  .blind (fun _ _ _ _ => trivial) W.raise W.lock W.sound (fun _ => W.add) (fun _ => W.remove) (fun _ _ => W.lines) W.place W.sand
    W.junction W.vigil

theorem CommandWalk.event (W : CommandWalk P) : EventWalk (fun _ => True) P := W.cross.toEventWalk

/-! ### The role -/

theorem changeRole_command (W : CommandWalk P) {r c} (h : At P s) : At P (changeRole r c s) := by
  have left : At P (if s.lines.role = .lead ∧ r ≠ .lead then leaveLead s else s) :=
    ite_at (fun _ => releaseControls_event W.event.toToneWalk (W.tweak ⟨rfl, rfl, rfl, rfl, rfl⟩ (W.lines rfl h))) fun _ => h
  have trailed : ∀ {u}, At P u → At P (leaveTrail u) := fun h =>
    tryGrant_event W.event (W.remove (W.tweak ⟨rfl, rfl, rfl, rfl, rfl⟩ h))
  unfold changeRole; dsimp only
  refine judgeVigilance_event W.event (refreshSetLength_event W.event (W.inhibit (ite_at (fun _ => enterTrail_event W.event ?_)
    fun _ => ?_)))
  all_goals exact ite_at (fun _ => trailed (W.halt rfl (W.lines rfl left))) fun _ => W.halt rfl (W.lines rfl left)

theorem sampleRole_command (W : CommandWalk P) (h : At P s) : At P (sampleRole s) :=
  ite_at (fun _ => h) fun _ => changeRole_command W h

/-! ### The axle unit -/

theorem suspectSlower_command (W : CommandWalk P) (h : At P s) : At P (suspectSlower s) :=
  W.raise (by decide) (W.axle (W.axle h))

theorem selectReference_command (W : CommandWalk P) (h : At P s) : At P (selectReference s) :=
  reportSource_event W.event (W.axle h)

theorem setStandstill_command (W : CommandWalk P) (h : At P s) : At P (setStandstill s) :=
  sampleRole_command W (W.groups (serveStops_event W.event (judgeVigilance_event W.event
    (W.remove (W.halt rfl (W.axle (W.sand h)))))))

theorem clearStandstill_command (W : CommandWalk P) (h : At P s) : At P (clearStandstill s) :=
  W.groups (judgeVigilance_event W.event (W.halt rfl (W.halt rfl (W.axle h))))

theorem judgeStandstill_command (W : CommandWalk P) (h : At P s) : At P (judgeStandstill s) :=
  ite_at (fun _ => h) fun _ => ite_at
    (fun _ => ite_at (fun _ => setStandstill_command W (W.axle h)) fun _ => W.axle h)
    fun _ => ite_at (fun _ => clearStandstill_command W (W.axle h)) fun _ => W.axle h

theorem judgeAgreement_command (W : CommandWalk P) {r} (h : At P s) : At P (judgeAgreement r s) :=
  ite_at (fun _ => ite_at (fun _ => W.axle h) fun _ => W.axle h) fun _ => W.axle h

theorem moveTo_command (W : CommandWalk P) {d x} (h : At P s) : At P (moveTo d x s) :=
  ite_at (fun _ => sweepMarks_event W.cross _ (W.place h)) fun _ => W.place h

theorem routeSample_command (W : CommandWalk P) (h : At P s) : At P (routeSample s) :=
  endRoute_event W.event (ite_at (fun _ => moveTo_command W h) fun _ => h)

theorem speedSample_command (W : CommandWalk P) (h : At P s) : At P (speedSample s) := by
  have disagreed : At P (judgeDisagreement (sampleChannels s)) :=
    ite_at (fun _ => ite_at (fun _ => suspectSlower_command W (W.axle h)) fun _ => W.axle (W.axle h)) fun _ => W.axle (W.axle h)
  have judged := judgeStandstill_command W (judgeAgreement_command W (r := .ax3) (judgeAgreement_command W (r := .ax2)
    (selectReference_command W disagreed)))
  exact W.axle (routeSample_command W (ite_at (fun _ => sampleRole_command W judged) fun _ => judged))

theorem takeEdge_command (W : CommandWalk P) {i a b} (h : At P s) : At P (takeEdge i a b s) :=
  ite_at (fun _ => ite_at (fun _ => W.raise (by decide) (W.axle (W.axle (W.axle h)))) fun _ => W.axle (W.axle h)) fun _ => W.axle h

theorem resetChannel_command (W : CommandWalk P) {i} (h : At P s) : At P (resetChannel i s) := by
  unfold resetChannel; dsimp only; split
  · exact W.axle h
  · exact W.axle h
  · exact W.axle (W.axle h)
  · exact W.axle (W.axle h)

/-! ### Halts and the monitor -/

theorem enterTripped_command (W : CommandWalk P) (h : At P s) : At P (enterTripped s) :=
  W.add (W.vigil h)

theorem enterWarn_command (W : CommandWalk P) {st t j} (h : At P s) : At P (raise 22 j s.axle.refSpeed (askFor 4 (vigilTo st t s))) :=
  W.raise (by decide) (askFor_event W.event.toToneWalk (W.vigil h))

theorem vigilPressed_command (W : CommandWalk P) (h : At P s) : At P (vigilPressed s) := by
  have cleared : At P (silencePattern 4 (removeCauses [.vigilance] s)) :=
    silencePattern_event W.event.toToneWalk (W.remove h)
  unfold vigilPressed; split
  · exact h
  · exact h
  · exact W.vigil h
  · exact W.vigil (silencePattern_event W.event.toToneWalk h)
  · exact W.vigil (silencePattern_event W.event.toToneWalk h)
  · exact ite_at (fun _ => W.vigil cleared) fun _ => W.vigil cleared

theorem releaseLatch_command (W : CommandWalk P) (h : At P s) : At P (releaseLatch s) := by
  unfold releaseLatch; split
  · exact h
  · exact silencePattern_event W.event.toToneWalk (W.raise (by decide) (W.tweak ⟨rfl, rfl, rfl, rfl, rfl⟩ (W.halt rfl h)))

theorem judgeWindow_command (W : CommandWalk P) (h : At P s) : At P (judgeWindow s) := by
  unfold judgeWindow; split
  · refine ite_at (fun _ => h) fun _ => ite_at (fun _ => ite_at (fun _ => ?_) fun _ => W.lines rfl h) fun _ => W.lines rfl h
    exact W.raise (by decide) (W.lines rfl (changeRole_command W h))
  · exact h

theorem senseLine_command (W : CommandWalk P) (h : At P s) : At P (senseLine s) :=
  ite_at (fun _ => h) fun _ => ite_at (fun _ => W.sense (W.lines rfl h)) fun _ => W.sense h

theorem startPulse_command (W : CommandWalk P) (h : At P s) : At P (startPulse s) := by
  have delivered : At P (deliverStart s) := ite_at (fun _ => W.tweak ⟨rfl, rfl, rfl, rfl, rfl⟩ h) fun _ => h
  exact ite_at (fun _ => delivered) fun _ => W.lines rfl delivered

/-! ### The junction unit -/

theorem junction_command (W : CommandWalk P) {u : JunctionUnit} (queue : u.cancelQueue = s.junction.cancelQueue)
    (slots : ∀ i, u.slot i = s.junction.slot i) (h : At P s) : At P (s.setJunction u) :=
  W.junction (CancelLaw.same queue fun i => by rw [slots]) h

theorem endTurn_command (W : CommandWalk P) (h : At P s) : At P (endTurn s) := tryGrant_event W.event (transmitter_event W.event h)

/-- The cancel queue's telegram leaves it with its slot (R113). -/
theorem CancelLaw.sent {u : JunctionUnit} {c : CancelItem} {rest : List CancelItem} (first : u.cancelQueue = c :: rest)
    (law : CancelLaw u) : CancelLaw ({ u with cancelQueue := rest }.setSlot c.slot .empty) where
  room := by have := law.room; rw [first] at this; simp at this ⊢; omega
  once := by have := law.once; rw [first, List.map_cons, List.nodup_cons] at this; simpa using this.2
  kept := fun i => by
    have once := law.once
    have kept := law.kept i
    rw [first, List.map_cons, List.nodup_cons] at once
    rw [first] at kept
    have slot : JunctionUnit.slot { u with cancelQueue := rest } i = u.slot i := by cases i <;> rfl
    rw [JunctionUnit.slot_setSlot, JunctionUnit.setSlot_cancelQueue, slot]
    split
    next same =>
      refine iff_of_false (by decide) ?_
      rintro ⟨x, mem, rfl⟩
      exact once.1 (List.mem_map.2 ⟨x, mem, same⟩)
    next other =>
      rw [kept]
      simp [Ne.symm other]

/-- A slot joins the cancel queue with its telegram (R113, R127). -/
theorem CancelLaw.queued {u v : JunctionUnit} {i : SlotId} {x : Slot} {j : Nat} (before : (u.slot i).holder ≠ .cancelled)
    (after : x.holder = .cancelled) (queue : v.cancelQueue = u.cancelQueue ++ [⟨i, j⟩])
    (slots : ∀ k, v.slot k = if k = i then x else u.slot k) (law : CancelLaw u) : CancelLaw v := by
  have unkept : ∀ c ∈ u.cancelQueue, c.slot ≠ i := fun c mem same => before ((law.kept i).2 ⟨c, mem, same⟩)
  have once : (v.cancelQueue.map (·.slot)).Nodup := by
    rw [queue, List.map_append, List.nodup_append]
    refine ⟨law.once, by simp, ?_⟩
    rintro a mem b own rfl
    obtain ⟨c, inside, rfl⟩ := List.mem_map.1 mem
    exact unkept c inside (by simpa using own)
  refine ⟨?_, once, fun k => ?_⟩
  · have : (v.cancelQueue.map (·.slot)).length ≤ allSlots.length :=
      (once.subperm fun k _ => by cases k <;> decide).length_le
    simpa [allSlots] using this
  · rw [slots, queue]
    split
    next same => exact iff_of_true after ⟨⟨i, j⟩, by simp, same.symm⟩
    next other =>
      rw [law.kept k]
      constructor
      · rintro ⟨c, mem, own⟩; exact ⟨c, by simp [mem], own⟩
      · rintro ⟨c, mem, own⟩
        rcases List.mem_append.1 mem with mem | mem
        · exact ⟨c, mem, own⟩
        · obtain rfl := List.mem_singleton.1 mem
          exact absurd own.symm other

theorem cancelSent_command (W : CommandWalk P) (h : At P s) : At P (cancelSent s) := by
  unfold cancelSent; split
  · exact h
  next c rest first =>
    have left := W.junction (CancelLaw.sent first) h
    exact judgeRoute_event W.event (serveWaiting_event W.event left)

theorem airtimeEnded_command (W : CommandWalk P) {x} (h : At P s) : At P (airtimeEnded x s) := by
  unfold airtimeEnded; split
  · exact cancelSent_command W h
  · exact signals_event W.event h
  · exact h

/-- A cancelled entry leaves its slot to the cancel queue, or free (R113, R127). -/
theorem releaseSlot_command (W : CommandWalk P) {tag j} (h : At P s) : At P (releaseSlot tag j s) := by
  unfold releaseSlot; split
  · exact h
  next i found =>
    refine ite_at (fun _ => tryGrant_event W.event ?_) fun _ => serveWaiting_event W.event (vacate_event W.event h)
    have held : (s.junction.slot i).holder ≠ .cancelled := by simp [slotOf_holder found]
    have whole : (vacate tag .cancelled s).setJunction { (vacate tag .cancelled s).junction with
        cancelQueue := (vacate tag .cancelled s).junction.cancelQueue ++ [⟨i, j.junction⟩] } =
        s.setJunction { (vacate tag .cancelled s).junction with
          cancelQueue := (vacate tag .cancelled s).junction.cancelQueue ++ [⟨i, j.junction⟩] } := by
      unfold vacate; rw [found]; rfl
    rw [whole]
    refine W.junction (CancelLaw.queued (x := ⟨.cancelled, false, none⟩) (j := j.junction) held rfl ?_ fun k => ?_) h
    · unfold vacate; rw [found]; simp [onSlot]
    · unfold vacate; rw [found]; cases i <;> cases k <;> rfl

theorem countUnanswered_command (W : CommandWalk P) {tag j} (h : At P s) : At P (countUnanswered tag j s) :=
  ite_at (fun _ => W.raise (by decide) (W.place h)) fun _ => W.place h

theorem judgeTurn_command (W : CommandWalk P) {x} (h : At P s) : At P (judgeTurn x s) := by
  unfold judgeTurn; split
  · exact h
  · split
    · exact h
    · exact ite_at (fun _ => countUnanswered_command W h) fun _ => h

theorem askAgain_command (W : CommandWalk P) {x} (h : At P s) : At P (askAgain x s) := by
  unfold askAgain; split
  · exact ite_at (fun _ => onSlot_event W.event rfl h) fun _ => h
  · exact h

theorem recordAnswer_command (W : CommandWalk P) {tag a} (h : At P s) : At P (recordAnswer tag a s) :=
  junction_command W (s := changeEntry tag _ s) rfl (fun i => by cases i <;> rfl) (W.place h)

/-- A junction entry in any state, BREACHED too (R61, R124). -/
theorem enterJunction_command (W : CommandWalk P) {tag st} (h : At P s) : At P (enterJunction tag st s) :=
  judgeWarning_event W.event (W.remove (W.add (W.place h)))

theorem positionFix_command (W : CommandWalk P) {tag} (h : At P s) : At P (positionFix tag s) := by
  unfold positionFix; split
  · exact h
  · exact ite_at (fun _ => endRoute_event W.event (moveTo_command W h)) fun _ => W.raise (by decide) h

theorem answerAsking_command (W : CommandWalk P) {tag j a} (h : At P s) : At P (answerAsking tag j a s) := by
  have stopped : ∀ {st}, At P (formCeiling (enterJunction tag st (stopAskingFor tag s))) :=
    formCeiling_event W.event (enterJunction_command W (stopAskingFor_event W.event h))
  unfold answerAsking; split
  · exact ite_at (fun _ => positionFix_command W (W.raise (by decide) stopped)) fun _ => h
  · exact h
  · exact W.raise (by decide) stopped

theorem loseLock_command (W : CommandWalk P) {tag n} (h : At P s) : At P (loseLock tag n s) := by
  have entered : ∀ {st}, At P (enterJunction tag st s) := enterJunction_command W h
  have asked : ∀ {u}, At P u → At P (formCeiling (startAskingFor tag u)) := fun h =>
    formCeiling_event W.event (startAskingFor_event W.event h)
  exact ite_at (fun _ => W.raise (by decide) (asked entered)) fun _ =>
    ite_at (fun _ => W.raise (by decide) (asked (askFor_event W.event.toToneWalk entered))) fun _ =>
      W.raise (by decide) (formCeiling_event W.event entered)

theorem takeAnswer_command (W : CommandWalk P) {e j a} (h : At P s) : At P (takeAnswer e j a s) := by
  unfold takeAnswer; split
  · exact answerAsking_command W (recordAnswer_command W h)
  · exact answerAsking_command W (recordAnswer_command W h)
  · exact ite_at (fun _ => recordAnswer_command W h) fun _ => loseLock_command W (recordAnswer_command W h)
  · exact h

theorem enterLoopFault_command (W : CommandWalk P) (h : At P s) : At P (enterLoopFault s) :=
  W.raise (by decide) (junction_command W rfl (fun i => by cases i <;> rfl) h)

theorem cancelJunction_command (W : CommandWalk P) {tag n j} (h : At P s) : At P (cancelJunction tag n j s) := by
  have hosted : At P (if 2 ≤ n then addCauses [.host] s else s) := ite_at (fun _ => W.add h) fun _ => h
  exact settleRoute_event W.event (judgeRoute_event W.event (releaseSlot_command W (enterJunction_command W
    (stopAskingFor_event W.event hosted))))

/-- The slots of removed entries are free; those kept for the cancel queue stay (R83, R113). -/
theorem emptyTable_command (W : CommandWalk P) (h : At P s) : At P (emptyTable s) :=
  W.junction (s := s.setRoute _) (CancelLaw.same rfl fun i => by
    cases i <;> (simp only [JunctionUnit.slot, Slot.dropEntry, State.setRoute_junction]; split <;> simp_all [Slot.empty])) (W.place h)

theorem afterEmptying_command (W : CommandWalk P) {l} (h : At P s) : At P (afterEmptying l s) :=
  judgeInhibit_event W.event (formCeiling_event W.event (judgeRoute_event W.event (judgeWarning_event W.event
    (W.remove (W.add h)))))

/-! ### The stop-request unit -/

theorem sweepPassPoints_command (W : CommandWalk P) (n : Nat) (h : At P s) : At P (sweepPassPoints n s) := by
  induction n generalizing s with
  | zero => exact h
  | succ n ih =>
    unfold sweepPassPoints; split
    · exact ih (crossPass_event W.event (bumpCrossed_event W.event h))
    · exact h

theorem takeUpStops_command (W : CommandWalk P) {old} (h : At P s) : At P (takeUpStops old s) :=
  ite_at (fun _ => h) fun _ => settleAfter_event W.event (sweepPassPoints_command W _ h)

theorem judgeStops_command (W : CommandWalk P) (h : At P s) : At P (judgeStops s) := takeUpStops_command W (W.lock (by simp) h)

theorem clearStopLatch_command (W : CommandWalk P) (h : At P s) : At P (clearStopLatch s) :=
  ite_at (fun _ => judgeStops_command W (W.stop h)) fun _ => h

theorem announceEntry_command (W : CommandWalk P) {e} (h : At P s) : At P (announceEntry s e) := by
  unfold announceEntry; split
  · exact ite_at (fun _ => askFor_event W.event.toToneWalk (enterStop_event W.event h)) fun _ => h
  · exact h

theorem trigger_command (W : CommandWalk P) {x a} (h : At P s) : At P (trigger x a s) := by
  refine ite_at (fun _ => h) fun _ => ?_
  split
  · exact judgeStops_command W (foldl_at (fun _ h => announceEntry_command W h) _ (W.raise (by decide) (askFor_event W.event.toToneWalk (W.stop h))))
  · exact ite_at (fun _ => askFor_event W.event.toToneWalk (W.stop h)) fun _ => W.stop h

theorem visitChannel_command (W : CommandWalk P) {st l i} (h : At P s) : At P (visitChannel st l s i) := by
  unfold visitChannel; split
  · exact h
  · exact h
  · dsimp only
    have faulted : ∀ {u} {b : Prop} [Decidable b] {k j v}, k ≠ 30 → At P u → At P (if b then raise k j v u else u) :=
      fun k30 h => ite_at (fun _ => W.raise k30 h) fun _ => h
    exact faulted (by decide) (ite_at (fun _ => trigger_command W (faulted (by decide) (W.stop h))) fun _ =>
      faulted (by decide) (W.stop h))

theorem scanButtons_command (W : CommandWalk P) {l} (h : At P s) : At P (scanButtons l s) := by
  unfold scanButtons judgeScanMode; dsimp only
  refine ite_at (fun _ => W.stop ?_) fun _ => ite_at (fun _ => W.stop ?_) fun _ => W.stop ?_
  all_goals exact foldl_at (fun _ h => visitChannel_command W h) _ (W.stop h)

end Sys2Proof.Machine
end

section
/-! The requests of the host, the resets and every command keep what a step walk keeps. -/

namespace Sys2Proof.Machine

variable {P : State → Prop} {s : State}

/-! ### Requests -/

theorem doSet_command (W : StepWalk P) {n v} (h : At P s) : At P (doSet n v s).1 := by
  unfold doSet; split
  · exact h
  next g group =>
    split
    next allowed => exact W.value group allowed h
    · exact h

theorem freezes_command (W : StepWalk P) {g} (h : At P s) : At P (doFreeze g s).1 ∧ At P (doThaw g s).1 := by
  unfold doFreeze doThaw; split
  · exact ⟨h, h⟩
  · exact ⟨W.freeze h, W.freeze h⟩

theorem formed_command (W : CommandWalk P) {r} (h : At P s) : At P (judgeInhibit (formCeiling (s.setRoute r))) :=
  judgeInhibit_event W.event (formCeiling_event W.event (W.place h))

theorem doRouteStart_command (W : CommandWalk P) {o} (h : At P s) : At P (doRouteStart o s).1 := by
  unfold doRouteStart
  split
  · exact h
  · split
    · exact h
    · split
      · exact h
      · exact formed_command W h

theorem doRouteEnd_command (W : CommandWalk P) (h : At P s) : At P (doRouteEnd s).1 := by
  unfold doRouteEnd; split
  · exact h
  · exact ite_at (fun _ => afterEmptying_command W (W.place (emptyTable_command W h))) fun _ => h

/-- A request that is refused changes nothing. -/
theorem refusing {b : Prop} [Decidable b] {refusal : Status} {x : State × Reply} (h : At P s) (other : At P x.1) :
    At P (if b then refuse refusal s else x).1 := by
  split
  · exact h
  · exact other

theorem doRouteInsert_command (W : CommandWalk P) {r} (h : At P s) : At P (doRouteInsert r s).1 := by
  unfold doRouteInsert; split
  · exact h
  · split
    · exact h
    next body _ =>
      have joined : At P (joinTable ⟨r.tag, 0, body⟩ s) := formed_command W h
      exact refusing h (refusing h (refusing h (refusing h (refusing h joined))))

theorem doRouteRemove_command (W : CommandWalk P) {tag} (h : At P s) : At P (doRouteRemove tag s).1 := by
  unfold doRouteRemove; split
  · exact h
  · split
    · exact h
    · split
      · exact formed_command W h
      · exact h

theorem doJunctionCancel_command (W : CommandWalk P) {tag} (h : At P s) : At P (doJunctionCancel tag s).1 := by
  unfold doJunctionCancel; split
  · exact h
  · split
    · exact h
    next e j _ =>
      have cancelled : At P (cancelJunction e.tag e.crossed j s) := cancelJunction_command W h
      unfold cancelEntry; split
      · exact h
      · split
        · exact formed_command W h
        · exact h
        · exact cancelled
        · exact cancelled
        · exact cancelled
        · exact cancelled
        · exact h
        · exact h

theorem doJunctionRetry_command (W : CommandWalk P) {tag} (h : At P s) : At P (doJunctionRetry tag s).1 := by
  unfold doJunctionRetry; split
  · exact h
  · split
    · exact h
    · split
      · exact h
      · split
        · exact formCeiling_event W.event (startAskingFor_event W.event (enterJunction_command W (W.place h)))
        · exact h

theorem setMask_command (W : CommandWalk P) {r b} (h : At P s) : At P (setMask r b s) :=
  junction_command W rfl (fun i => by cases i <;> rfl) h

theorem masks_command (W : CommandWalk P) {n} (h : At P s) : At P (doMask n s).1 ∧ At P (doUnmask n s).1 := by
  unfold doMask doUnmask; split
  · exact ⟨h, h⟩
  · exact ⟨setMask_command W h, tryGrant_event W.event (setMask_command W h)⟩

theorem doLoopReset_command (W : CommandWalk P) (h : At P s) : At P (doLoopReset s).1 := by
  unfold doLoopReset; split
  · exact h
  · split
    · exact tryGrant_event W.event (junction_command W rfl (fun i => by cases i <;> rfl) h)
    · exact h

theorem doStopRequest_command (W : CommandWalk P) {a} (h : At P s) : At P (doStopRequest a s).1 := by
  unfold doStopRequest; split
  · exact h
  · split
    · exact h
    · exact trigger_command W h

theorem doPlay_command (W : CommandWalk P) {p} (h : At P s) : At P (doPlay p s).1 := by
  unfold doPlay; split
  · exact h
  · split
    · exact h
    · dsimp only; split
      · exact h
      · exact requestPattern_event W.event.toToneWalk h

theorem silenceAll_command (W : CommandWalk P) (h : At P s) : At P (silenceAll s) :=
  judgeSound_event W.event.toToneWalk (W.sound h)

theorem doSilence_command (W : CommandWalk P) {p} (h : At P s) : At P (doSilence p s).1 := by
  unfold doSilence; split
  · exact silenceAll_command W h
  · split
    · exact h
    · exact silencePattern_event W.event.toToneWalk h

theorem replacePattern_command (W : CommandWalk P) {n p} (h : At P s) : At P (replacePattern n p s).1 := by
  unfold replacePattern; split
  · exact h
  · exact W.sound h

theorem doPatternLoad_command (W : CommandWalk P) {r} (h : At P s) : At P (doPatternLoad r s).1 := by
  unfold doPatternLoad; split
  · exact h
  · split
    · exact h
    · split
      · exact replacePattern_command W h
      · split
        · exact h
        · exact replacePattern_command W h

theorem doAxleReset_command (W : CommandWalk P) {i} (h : At P s) : At P (doAxleReset i s).1 := by
  unfold doAxleReset; split
  · exact h
  · split
    · dsimp only [taken]
      exact resetChannel_command W (resetChannel_command W (resetChannel_command W (resetChannel_command W h)))
    · split
      · exact h
      · exact resetChannel_command W h

theorem doEvents_command (W : CommandWalk P) {n} (h : At P s) : At P (doEvents n s).1 := by
  unfold doEvents; split
  · exact h
  · exact W.host h

/-! ### Resets -/

theorem endReset_command (W : CommandWalk P) (h : At P s) : At P (endReset s) := by
  have sensed := W.sense (sampleRole_command W h)
  exact ite_at (fun _ => sensed) fun _ => enterLoopFault_command W sensed

theorem restartJourney_command (W : CommandWalk P) (h : At P s) : At P (restartJourney s) :=
  W.stop (clearStopLatch_command W (afterEmptying_command W (W.raise (by decide) (W.host
    (W.junction (s := s.setRoute _) (fun _ => ⟨by simp [JunctionUnit.journey], by simp [JunctionUnit.journey], fun i => by
      cases i <;> simp [JunctionUnit.journey, JunctionUnit.slot, Slot.empty]⟩) (W.place h))))))

theorem doRestart_command (W : StepWalk P) {a} (h : At P s) : At P (doRestart a s).1 := by
  unfold doRestart; split
  · exact h
  · split
    · exact h
    · split
      · exact restartJourney_command W.toCommandWalk h
      · split
        · exact h
        · exact endReset_command W.toCommandWalk (W.host (W.reset h))

/-- Every request keeps what a step walk keeps. -/
theorem perform_command (W : StepWalk P) {r} (h : At P s) : At P (perform r s).1 := by
  cases r
  case ident => exact h
  case status => exact h
  case events => exact doEvents_command W.toCommandWalk h
  case set => exact doSet_command W h
  case get => exact doGet_at h
  case freeze => exact (freezes_command W h).1
  case thaw => exact (freezes_command W h).2
  case routeStart => exact doRouteStart_command W.toCommandWalk h
  case routeInsert => exact doRouteInsert_command W.toCommandWalk h
  case routeRemove => exact doRouteRemove_command W.toCommandWalk h
  case routeRead => exact doRouteRead_at h
  case routeEnd => exact doRouteEnd_command W.toCommandWalk h
  case junctionCancel => exact doJunctionCancel_command W.toCommandWalk h
  case junctionRetry => exact doJunctionRetry_command W.toCommandWalk h
  case mask => exact (masks_command W.toCommandWalk h).1
  case unmask => exact (masks_command W.toCommandWalk h).2
  case loopReset => exact doLoopReset_command W.toCommandWalk h
  case halt => exact W.add h
  case resume => exact W.remove h
  case stopRequest => exact doStopRequest_command W.toCommandWalk h
  case stopClear => exact clearStopLatch_command W.toCommandWalk h
  case play => exact doPlay_command W.toCommandWalk h
  case silence => exact doSilence_command W.toCommandWalk h
  case patternLoad => exact doPatternLoad_command W.toCommandWalk h
  case axleRead => exact doAxleRead_at h
  case axleReset => exact doAxleReset_command W.toCommandWalk h
  case buttonRead => exact doButtonRead_at h
  case restart => exact doRestart_command W h
  case unknownKind => exact h
  case badLength => exact h

/-! ### The host link -/

theorem pump_command (W : StepWalk P) (h : At P s) : At P (pump s) := by
  refine ite_at (fun _ => ?_) fun _ => h
  unfold executeHead; split
  · exact h
  · exact W.host (perform_command W h)

theorem submit_command (W : StepWalk P) {tag r} (h : At P s) : At P (submit tag r s) := by
  unfold submit; split
  · exact pump_command W (W.host h)
  · split
    · exact W.host h
    · exact W.host h
    · exact h

theorem lineFreed_command (W : StepWalk P) (h : At P s) : At P (lineFreed s) := by
  unfold lineFreed; split
  · exact W.host h
  · exact pump_command W h

theorem endReply_command (W : StepWalk P) (h : At P s) : At P (endReply s) := by
  unfold endReply; split
  · exact h
  · exact lineFreed_command W (W.host h)
  · exact lineFreed_command W (W.host h)

theorem hunt_command (W : CommandWalk P) {b} (h : At P s) : At P (hunt b s) := ite_at (fun _ => W.host h) fun _ => h

theorem collect_command (W : StepWalk P) {l} (h : At P s) : At P (collect l s) :=
  ite_at (fun _ => W.host h) fun _ => ite_at (fun _ => ite_at (fun _ => submit_command W (W.host h)) fun _ => W.host h)
    fun _ => W.host h

theorem receive_command (W : StepWalk P) {b f} (h : At P s) : At P (receive b f s) := by
  refine ite_at (fun _ => W.host h) fun _ => ?_
  split
  · exact hunt_command W.toCommandWalk h
  · exact ite_at (fun _ => hunt_command W.toCommandWalk (W.host h)) fun _ => collect_command W h

theorem abandonFrame_command (W : CommandWalk P) (h : At P s) : At P (abandonFrame s) := by
  unfold abandonFrame; split
  · exact h
  · exact W.host (W.clock h)

/-! ### Commands of the junction and sound units -/

theorem airtimeEnd_command (W : CommandWalk P) {x} (h : At P s) : At P (endAirtime x s) :=
  ite_at (fun _ => transmitter_event W.event (airtimeEnded_command W h)) fun _ => endTurn_command W (airtimeEnded_command W h)

theorem takeAck_command (W : CommandWalk P) {n} (h : At P s) : At P (takeAck n s) :=
  judgeRoute_event W.event (signals_event W.event (s := s.setRoute _) (W.place h))

theorem pressed_command (W : CommandWalk P) {c p u} (h : At P s) :
    At P ((driverTakes c p s).setSound u) := by
  refine W.sound (judgeSound_event W.event.toToneWalk (W.sound ?_))
  split
  · exact W.raise (by decide) h
  · exact h

theorem stepPlayer_command (W : CommandWalk P) {c} (h : At P s) : At P (stepPlayer c s) := by
  unfold stepPlayer; split
  · split
    · exact enterStep_event W.event.toToneWalk h
    · exact leavePlayer_event W.event.toToneWalk h
  · exact h

theorem dropPress_command (W : CommandWalk P) {i} (h : At P s) : At P (dropPress i s) := by
  unfold dropPress; split
  · exact h
  · exact W.raise (by decide) (W.stop h)

theorem senseStopreq_command (W : CommandWalk P) (h : At P s) : At P (senseStopreq s) :=
  ite_at (fun _ => h) fun _ => ite_at (fun _ => trigger_command W (W.stop h)) fun _ => W.stop h

/-! ### Every command -/

/-- The next state of any command keeps what a step walk keeps. -/
theorem exec_command (W : StepWalk P) (c : Instr) (h : At P s) : Keeps P (exec c s) := by
  have E := W.event
  have O := W.outer
  have same : ∀ {a b : Traction}, b.effort = a.effort → b.effortA = a.effortA → b.effortB = a.effortB →
    b.powerLimit = a.powerLimit → b.brakeLimit = a.brakeLimit → a.SameEffort b := fun e a b p q => ⟨e, a, b, p, q⟩
  cases c
  case powerUp => exact keeps_next (endReset_command W.toCommandWalk (W.host (W.reset (W.clock h))))
  case encoderEdge => exact keeps_next (ite_at (fun _ => h) fun _ => takeEdge_command W.toCommandWalk h)
  case phaseErrorWindowExpiry => exact keeps_next (atExpiry_at O (fun h => W.axle h) h)
  case speedSample => exact keeps_next (speedSample_command W.toCommandWalk (W.clock h))
  case axleSuspect => exact keeps_next (atExpiry_at O (fun h => W.axle (suspectSlower_command W.toCommandWalk h)) h)
  case agreementRunComplete => exact keeps_next (atExpiry_at O (fun h => W.axle h) h)
  case standstillSet => exact keeps_next (atExpiry_at O (fun h => setStandstill_command W.toCommandWalk (W.axle h)) h)
  case controlPeriod => exact keeps_next (W.pass (W.pins (W.clock h)))
  case directionSettleExpiry => exact keeps_next (atExpiry_at O (fun h => W.tweak (same rfl rfl rfl rfl rfl) h) h)
  case handleHoldExpiry => exact keeps_next (atExpiry_at O (fun h => W.tweak (same rfl rfl rfl rfl rfl) h) h)
  case handleFault =>
    exact keeps_next (ite_at (fun _ => h) fun _ =>
      atExpiry_at O (fun h => W.raise (by decide) (W.tweak (same rfl rfl rfl rfl rfl) h)) h)
  case demandLost => exact keeps_next (atExpiry_at O (fun h => W.raise (by decide) (W.add h)) h)
  case adhesionFault i =>
    refine keeps_next ?_
    unfold atExpiry slipFaultAt
    dsimp only
    split
    · exact h
    next due =>
      split at due
      next slips => exact W.fault (s := s.reach _) slips.1 (W.clock h)
      · cases due
  case sandRunExpiry => exact keeps_next (atExpiry_at O (fun h => W.sandState h) h)
  case sandRestExpiry => exact keeps_next (atExpiry_at O (fun h => W.sandState h) h)
  case doorReleaseAsserted =>
    exact keeps_next (ite_at (fun _ => h) fun _ => clearStopLatch_command W.toCommandWalk (serveStops_event E (W.inhibit (W.pins h))))
  case doorReleaseReleased => exact keeps_next (W.pins h)
  case haltReleased => exact keeps_next (atExpiry_at O (fun h => releaseLatch_command W.toCommandWalk h) h)
  case vigilPress => exact keeps_next (ite_at (fun _ => h) fun _ => vigilPressed_command W.toCommandWalk (W.pins h))
  case vigilRelease =>
    exact keeps_next (ite_at (fun _ => ite_at (fun _ => W.vigil (W.pins h)) fun _ => W.pins h) fun _ => h)
  case holdLimitExpiry => exact keeps_next (atExpiry_at O (fun h => enterWarn_command W.toCommandWalk h) h)
  case graceExpiry => exact keeps_next (atExpiry_at O (fun h => enterWarn_command W.toCommandWalk h) h)
  case warnToHaltExpiry => exact keeps_next (atExpiry_at O (fun h => enterTripped_command W.toCommandWalk h) h)
  case repressWindowExpiry => exact keeps_next (atExpiry_at O (fun h => enterTripped_command W.toCommandWalk h) h)
  case roleInputChange => exact keeps_next (W.pins h)
  case demandWindowExpiry => exact keeps_next (W.lines rfl (judgeWindow_command W.toCommandWalk (W.lines rfl (W.clock h))))
  case haltLineChange => exact keeps_next (ite_at (fun _ => h) fun _ => senseLine_command W.toCommandWalk (W.pins h))
  case startEmissionExpiry => exact keeps_next (atExpiry_at O (fun h => W.lines rfl h) h)
  case startEdge => exact keeps_next (ite_at (fun _ => startPulse_command W.toCommandWalk h) fun _ => h)
  case startRetentionExpiry => exact keeps_next (atExpiry_at O (fun h => W.lines rfl h) h)
  case loopOkReleased =>
    exact keeps_next (ite_at (fun _ => h) fun _ => ite_at (fun _ => enterLoopFault_command W.toCommandWalk (W.pins h)) fun _ => W.pins h)
  case telegramAirtimeEnd =>
    refine keeps_next ?_
    split
    · exact airtimeEnd_command W.toCommandWalk (W.clock h)
    · exact h
  case answerWindowExpiry =>
    refine keeps_next ?_
    split
    · exact endTurn_command W.toCommandWalk (askAgain_command W.toCommandWalk (judgeTurn_command W.toCommandWalk (W.clock h)))
    · exact h
  case slotRepeatExpiry =>
    exact keeps_next (atExpiry_at O (fun h => ite_at (fun _ => startAsking_event E h) fun _ => onSlot_event E rfl h) h)
  case signalRepeatExpiry =>
    refine keeps_next ?_
    split
    · exact h
    · exact ite_at (fun _ => atExpiry_at O (fun h => offerSignal_event E (W.place h)) h) fun _ => h
  case pointAnswer =>
    refine keeps_next (ite_at (fun _ => ?_) fun _ => h)
    split
    · exact h
    · split
      · exact h
      · exact takeAnswer_command W.toCommandWalk h
  case priorityAck =>
    refine keeps_next (ite_at (fun _ => ?_) fun _ => h)
    split
    · exact h
    · exact takeAck_command W.toCommandWalk h
  case scan =>
    unfold exec execScan; dsimp only; split
    · exact keeps_next (scanButtons_command W.toCommandWalk (W.clock h))
    · intro t e; cases e
  case buttonStuck => exact keeps_next (atExpiry_at O (fun h => dropPress_command W.toCommandWalk h) h)
  case stopCancel => exact keeps_next (ite_at (fun _ => clearStopLatch_command W.toCommandWalk h) fun _ => h)
  case stopreqEdge => exact keeps_next (ite_at (fun _ => h) fun _ => senseStopreq_command W.toCommandWalk (W.pins h))
  case stepExpiry => exact keeps_next (atExpiry_at O (fun h => stepPlayer_command W.toCommandWalk h) h)
  case strikePulseExpiry => exact keeps_next (atExpiry_at O (fun h => W.sound h) h)
  case bellPedalPress =>
    exact keeps_next (ite_at (fun _ => h) fun _ => ite_at (fun _ => strike_event E.toToneWalk (pressed_command W.toCommandWalk (W.pins h))) fun _ => W.pins h)
  case bellPedalRelease => exact keeps_next (releaseBell_event E.toToneWalk (W.pins h))
  case bellIntervalExpiry => exact keeps_next (atExpiry_at O (fun h => strike_event E.toToneWalk (W.sound h)) h)
  case hornPress =>
    exact keeps_next (ite_at (fun _ => h) fun _ => ite_at (fun _ => pressed_command W.toCommandWalk (W.pins h)) fun _ => W.pins h)
  case hornRelease =>
    refine keeps_next ?_
    split
    · exact ite_at (fun _ => endHorn_event E.toToneWalk (W.pins h)) fun _ => W.sound (W.pins h)
    · exact W.pins h
  case hornTailExpiry => exact keeps_next (atExpiry_at O (fun h => endHorn_event E.toToneWalk h) h)
  case byteReceived => exact keeps_next (receive_command W h)
  case frameGapExpiry => exact keeps_next (abandonFrame_command W.toCommandWalk h)
  case replyEnd => exact keeps_next (endReply_command W h)
  all_goals exact keeps_next (submit_command W h)

end Sys2Proof.Machine
end

section
/-! The halt latch, operation by operation: what the closing of the power gate, a latch that sets, causes that join or end and the
HALT drive leave of each block (R20, R24, R41, R61 to R63, R74, R75, R77). -/

namespace Sys2Proof.Machine

variable {s : State}

/-! ### The traction unit -/

/-- Only the traction state, the efforts and the effort lines differ. -/
def Traction.SameSetup (a b : Traction) : Prop :=
  b = { a with
    state := b.state, effort := b.effort, effortA := b.effortA, effortB := b.effortB, lineA := b.lineA, lineB := b.lineB }

theorem Traction.SameSetup.refl (a : Traction) : a.SameSetup a := rfl

theorem Traction.SameSetup.trans {a b c : Traction} (ab : a.SameSetup b) (bc : b.SameSetup c) : a.SameSetup c := by
  unfold Traction.SameSetup at *; rw [bc, ab]

theorem writeLines_setup (t : Traction) : t.SameSetup (writeLines t) := by unfold writeLines; split <;> rfl

theorem closeGate_setup (t : Traction) : t.SameSetup (closeGate t) := by
  unfold closeGate; split
  · exact Traction.SameSetup.trans (b := { t with effort := 0, effortA := 0, effortB := 0 }) rfl (writeLines_setup _)
  · rfl

/-- A closing gate leaves an E that is not positive (R20). -/
theorem closeGate_still {t : Traction} (still : t.effort ≤ 0) : closeGate t = t := if_neg (by omega)

/-- A closing gate takes a positive E with its bogie efforts (R20). -/
theorem closeGate_power {t : Traction} (power : 0 < t.effort) :
    closeGate t = writeLines { t with effort := 0, effortA := 0, effortB := 0 } := if_pos power

/-- The traction unit HALTED (R24). -/
def Traction.halted (t : Traction) : Traction :=
  if t.state = .running then closeGate { t with state := .halted } else { t with state := .halted }

theorem enterHalted_eq (s : State) : enterHalted s = s.setTraction s.traction.halted := rfl

theorem Traction.halted_setup (t : Traction) : t.SameSetup t.halted := by
  unfold Traction.halted; split
  · exact Traction.SameSetup.trans (b := { t with state := .halted }) rfl (closeGate_setup _)
  · rfl

theorem Traction.halted_state (t : Traction) : t.halted.state = .halted := by
  unfold Traction.halted; split
  · exact (closeGate_cases _).1
  · rfl

/-- Without power to take away, HALTED is the state alone. -/
theorem Traction.halted_still {t : Traction} (still : t.state ≠ .running ∨ t.effort ≤ 0) : t.halted = { t with state := .halted } := by
  unfold Traction.halted; split
  next moving => exact closeGate_still (t := { t with state := .halted }) (still.resolve_left fun h => h moving)
  · rfl

/-- The gate of a RUNNING unit closes on its power at the halt, and the effort lines carry the duty of 0 (R20, R24, R44). -/
theorem Traction.halted_power {t : Traction} (moving : t.state = .running) (power : 0 < t.effort) :
    t.halted = { t with
      state := .halted, effort := 0, effortA := 0, effortB := 0, lineA := .duty 500, lineB := .duty 500 } := by
  unfold Traction.halted; rw [if_pos moving, closeGate_power (t := { t with state := .halted }) power]; rfl

/-- HALTED, E is what it was or 0, and never gains. -/
theorem Traction.halted_effort (t : Traction) : t.halted.effort = t.effort ∨ t.state = .running ∧ 0 < t.effort ∧ t.halted.effort = 0 := by
  by_cases still : t.state ≠ .running ∨ t.effort ≤ 0
  · left; rw [Traction.halted_still still]
  · right
    simp only [not_or, not_not, not_le] at still
    exact ⟨still.1, still.2, by rw [Traction.halted_power still.1 still.2]⟩

/-! ### A latch that sets -/

/-- The state a latch that sets leaves, but for its event and its warning (R24, R62, R77). -/
def latchedFrom (first : Cause) (s : State) : State :=
  let record : LatchRecord := ⟨first, s.now, s.route.distance, s.axle.refSpeed, s.axle.standstill⟩
  ((s.setHalt { s.halt with latch := some record, ackRun := none }).setTraction s.traction.halted).setLines
    { s.lines with retained := none }

theorem setLatch_eq (first : Cause) (s : State) :
    setLatch first s = askFor 0 (raise 30 first.code s.axle.refSpeed (latchedFrom first s)) := rfl

@[simp] theorem setLatch_traction (c : Cause) (s : State) : (setLatch c s).traction = s.traction.halted := by
  simp [setLatch_eq, latchedFrom]

@[simp] theorem setLatch_lines (c : Cause) (s : State) : (setLatch c s).lines = { s.lines with retained := none } := by
  simp [setLatch_eq, latchedFrom]

@[simp] theorem setLatch_halt (c : Cause) (s : State) : (setLatch c s).halt = { s.halt with
    latch := some ⟨c, s.now, s.route.distance, s.axle.refSpeed, s.axle.standstill⟩, ackRun := none } := by
  simp [setLatch_eq, latchedFrom]

/-! ### The warning asked for -/

theorem strike_sound {u s : State} (sound : u.sound = s.sound) (now : u.now = s.now) : (strike u).sound = (strike s).sound := by
  unfold strike
  rw [sound, now]
  split
  · exact sound
  · rfl

theorem enterStep_sound {u s : State} (sound : u.sound = s.sound) (now : u.now = s.now) (c : SoundChannel) (p : Nat)
    (st : PatternStep) (i j t : Nat) : (enterStep c p st i j t u).sound = (enterStep c p st i j t s).sound := by
  unfold enterStep
  rw [sound]
  dsimp only
  split
  · exact strike_sound rfl now
  · rfl

theorem takePattern_sound {u s : State} (sound : u.sound = s.sound) (now : u.now = s.now) (c : SoundChannel) (p : Nat) :
    (takePattern c p u).sound = (takePattern c p s).sound := by
  unfold takePattern
  rw [sound, now]
  split
  · exact enterStep_sound sound now _ _ _ _ _ _
  · exact sound

theorem queueRequest_sound {u s : State} (sound : u.sound = s.sound) (c : SoundChannel) (w : Waiting) :
    (queueRequest c w u).1.sound = (queueRequest c w s).1.sound := by
  unfold queueRequest
  rw [sound]
  dsimp only
  split
  · rfl
  · split
    · exact sound
    · simp
    · simpa using sound

/-- What a request makes of the sounds reads the sounds and the time alone (R155). -/
theorem askFor_sound {u s : State} (sound : u.sound = s.sound) (now : u.now = s.now) (p : Nat) :
    (askFor p u).sound = (askFor p s).sound := by
  unfold askFor requestPattern
  rw [sound]
  split
  · exact sound
  next r _ =>
    dsimp only
    split
    · exact sound
    · split
      · rfl
      · split
        · simpa [judgeSound] using takePattern_sound sound now _ _
        · split
          · exact takePattern_sound (by simpa using sound) (by simpa using now) _ _
          · exact queueRequest_sound sound _ _
        · exact queueRequest_sound sound _ _

theorem setLatch_sound (c : Cause) (s : State) : (setLatch c s).sound = (askFor 0 s).sound := by
  rw [setLatch_eq]
  exact askFor_sound (by simp [latchedFrom]) (by simp [latchedFrom]) 0

/-- A property of the event set alone, as the operations of the sound unit keep it. -/
theorem ToneWalk.events {P : State → Prop} (only : ∀ s u, u.host = s.host → P s → P u)
    (raises : ∀ {s : State} {k j : Nat} {v : Int}, k = 6 ∨ k = 7 ∨ k = 8 → P s → P (Machine.raise k j v s)) : ToneWalk P where
  note := fun e => raises (by omega)
  sounding := fun {s _} h => judgeLock_events (P := P) (only _ _ rfl) (raises (by omega)) h
  sound := fun {s u} _ h => only s _ rfl h

theorem recorded_tone {k : Nat} (other : 8 < k) (j : Nat) (v : Int) : ToneWalk (Recorded k j v) :=
  .events (fun s u e h => by unfold Recorded at *; rwa [e]) fun tone h => h.raise (by omega)

theorem unrecorded_tone {k : Nat} (other : 8 < k) (j : Nat) : ToneWalk (Unrecorded k j) :=
  .events (fun s u e h => by unfold Unrecorded at *; rwa [e]) fun tone h => h.raise (by omega)

/-- A latch that sets raises HALT LATCHED with its first cause and the speed (R62). -/
theorem setLatch_recorded (c : Cause) (s : State) : Recorded 30 c.code s.axle.refSpeed (setLatch c s) := by
  rw [setLatch_eq]
  exact askFor_event (recorded_tone (by decide) _ _) (raise_recorded _ _ _ _)

/-! ### Causes that join -/

/-- `s` with these causes present. -/
def State.causing (s : State) (c : Causes) : State := s.setHalt { s.halt with causes := c }

/-- What joins: nothing where every cause was present; else the latch, if it was clear, sets with the highest of those that were not,
and BREACH brakes at once (R41, R62, R63). -/
theorem joinCauses_cases (cs : List Cause) (s : State) :
    (joinCauses cs s = s ∧ ∀ c ∈ cs, s.halt.causes.has c = true) ∨
    ∃ first c', first ∈ cs ∧ s.halt.causes.has first = false ∧
      (∀ c ∈ cs, s.halt.causes.has c = false → c.code ≤ first.code) ∧
      joinCauses cs s =
        let present := (if s.halt.latch.isNone then setLatch first s else s).causing c'
        if first = .breach then breachBraking present else present := by
  have fresh : ∀ y, y ∈ Cause.descending.filter (fun c => cs.contains c && !s.halt.causes.has c) ↔
      y ∈ cs ∧ s.halt.causes.has y = false := fun y => by simp [Cause.mem_descending]
  have sorted : (Cause.descending.filter (fun c => cs.contains c && !s.halt.causes.has c)).Pairwise fun a b => b.code ≤ a.code :=
    List.Pairwise.sublist List.filter_sublist (by decide)
  unfold joinCauses
  split
  next none =>
    rw [none] at fresh
    refine .inl ⟨rfl, fun c inside => ?_⟩
    by_contra absent
    exact List.not_mem_nil ((fresh c).2 ⟨inside, by simpa using absent⟩)
  next first more some =>
    rw [some] at fresh sorted
    obtain ⟨inside, absent⟩ := (fresh first).1 List.mem_cons_self
    refine .inr ⟨first, _, inside, absent, fun c mem new => ?_, rfl⟩
    rcases List.mem_cons.1 ((fresh c).2 ⟨mem, new⟩) with rfl | later
    · exact le_rfl
    · exact (List.pairwise_cons.1 sorted).1 c later

/-- BREACH brakes with E at −1000, G2 judged; the traction state, the latch, the sounds and the lines stay (R41). -/
theorem breachBraking_eq (s : State) :
    let braked := (shareEffort (s.setTraction { s.traction with effort := -1000 })).traction
    breachBraking s = judgeLock .g2 true ((s.setTraction (writeLines braked)).setSettings { s.settings with effortHeld := true }) := by
  have held : (writeLines (shareEffort (s.setTraction { s.traction with effort := -1000 })).traction).effort = -1000 :=
    (writeLines_keeps _).2.1
  unfold breachBraking judgeEffort
  simp only [State.setTraction_traction, held]
  rfl

theorem breachBraking_traction (s : State) : (breachBraking s).traction.effort = -1000 ∧
    (breachBraking s).traction.state = s.traction.state ∧ s.traction.SameSetup (breachBraking s).traction := by
  rw [breachBraking_eq, judgeLock_traction]
  obtain ⟨state, effort, -, -⟩ := writeLines_keeps (shareEffort (s.setTraction { s.traction with effort := -1000 })).traction
  exact ⟨effort, state, Traction.SameSetup.trans (b := (shareEffort (s.setTraction { s.traction with effort := -1000 })).traction) rfl
    (writeLines_setup _)⟩

/-- A new cause that is not BREACH, on a set latch, is all that joins (R62). -/
theorem joinCauses_latched {cs : List Cause} (set : s.halt.latch.isSome = true) (mild : .breach ∉ cs) :
    ∃ c, joinCauses cs s = s.causing c := by
  rcases joinCauses_cases cs s with ⟨same, -⟩ | ⟨first, c, inside, -, -, joined⟩
  · exact ⟨s.halt.causes, same⟩
  · have clear : s.halt.latch.isNone = false := by simpa [Option.isSome_iff_ne_none] using set
    rw [clear] at joined
    exact ⟨c, by simpa [show first ≠ .breach from fun e => mild (e ▸ inside)] using joined⟩

/-- The HALT drive judged: it stays, it begins and a retained pulse is cleared, or it ends and the line is sensed (R74, R75, R77). -/
theorem judgeDrive_cases (s : State) :
    let drive := s.cfg Setting.haltOutput = 1 ∧ s.halt.causes.counts = true
    ((drive ↔ s.lines.halting = true) ∧ judgeDrive s = s) ∨
    (drive ∧ s.lines.halting = false ∧ judgeDrive s = s.setLines { s.lines with halting := true, retained := none }) ∨
    (¬drive ∧ s.lines.halting = true ∧ judgeDrive s = senseHalt (s.setLines { s.lines with halting := false })) := by
  have driven : (decide (s.cfg Setting.haltOutput = 1) && s.halt.causes.counts) = true ↔
      s.cfg Setting.haltOutput = 1 ∧ s.halt.causes.counts = true := by simp
  dsimp only
  unfold judgeDrive
  generalize (decide (s.cfg Setting.haltOutput = 1) && s.halt.causes.counts) = drive at driven
  dsimp only
  rw [← driven]
  cases drive <;> cases s.lines.halting <;> simp

/-- On a set latch the HALT drive judged changes the lines' drive and TRAINLINE alone. -/
theorem judgeDrive_latched (set : s.halt.latch.isSome = true) :
    ∃ drive kept c, (kept = none ∨ kept = s.lines.retained) ∧
      judgeDrive s = (s.setLines { s.lines with halting := drive, retained := kept }).causing c := by
  rcases judgeDrive_cases s with ⟨-, e⟩ | ⟨-, -, e⟩ | ⟨-, -, e⟩
  · exact ⟨s.lines.halting, s.lines.retained, s.halt.causes, .inr rfl, e⟩
  · exact ⟨true, none, s.halt.causes, .inl rfl, e⟩
  · rw [e]
    unfold senseHalt
    split
    · obtain ⟨c, joined⟩ := joinCauses_latched (s := s.setLines { s.lines with halting := false }) (cs := [.trainline]) set (by decide)
      exact ⟨false, s.lines.retained, c, .inr rfl, joined⟩
    · exact ⟨false, s.lines.retained, _, .inr rfl, rfl⟩

/-- What outlives the drive judged on a set latch. -/
theorem judgeDrive_set {P : State → Prop} (set : s.halt.latch.isSome = true) (causing : ∀ {u c}, P u → P (u.causing c))
    (drive : ∀ {u a b}, b = none ∨ b = u.lines.retained → P u → P (u.setLines { u.lines with halting := a, retained := b }))
    (h : P s) : P (judgeDrive s) := by
  obtain ⟨a, b, c, kept, judged⟩ := judgeDrive_latched set
  rw [judged]; exact causing (drive kept h)

/-- What outlives causes that join on a set latch (R62). -/
theorem addCauses_set {P : State → Prop} {cs : List Cause} (set : s.halt.latch.isSome = true)
    (causing : ∀ {u c}, P u → P (u.causing c))
    (drive : ∀ {u a b}, b = none ∨ b = u.lines.retained → P u → P (u.setLines { u.lines with halting := a, retained := b }))
    (brake : .breach ∈ cs → ∀ {u}, P u → P (breachBraking u)) (h : P s) : P (addCauses cs s) := by
  have joined : (joinCauses cs s).halt.latch.isSome = true ∧ P (joinCauses cs s) := by
    rcases joinCauses_cases cs s with ⟨same, -⟩ | ⟨first, c, inside, -, -, joined⟩
    · rw [same]; exact ⟨set, h⟩
    · have clear : s.halt.latch.isNone = false := by simpa [Option.isSome_iff_ne_none] using set
      rw [joined, clear]
      dsimp only
      split
      next breached => exact ⟨by rw [breachBraking_halt]; exact set, brake (breached ▸ inside) (causing h)⟩
      · exact ⟨set, causing h⟩
  exact judgeDrive_set joined.1 causing drive joined.2

/-- A set latch keeps its record and its run, and nothing is raised or asked for, whatever joins (R62, R63). -/
theorem addCauses_latched {cs : List Cause} {r : LatchRecord} (set : s.halt.latch = some r) :
    (addCauses cs s).halt.latch = some r ∧ (addCauses cs s).halt.ackRun = s.halt.ackRun ∧
    (addCauses cs s).sound = s.sound ∧ ∀ n, Unrecorded 30 n s → Unrecorded 30 n (addCauses cs s) := by
  have isSet : s.halt.latch.isSome = true := by simp [set]
  obtain ⟨latch, run, sound⟩ : (addCauses cs s).halt.latch = some r ∧ (addCauses cs s).halt.ackRun = s.halt.ackRun ∧
      (addCauses cs s).sound = s.sound :=
    addCauses_set (P := fun u => u.halt.latch = some r ∧ u.halt.ackRun = s.halt.ackRun ∧ u.sound = s.sound) isSet
      (fun h => h) (fun _ h => h)
      (fun _ {u} h => by rw [breachBraking_halt, breachBraking_eq, judgeLock_sound]; exact h) ⟨set, rfl, rfl⟩
  exact ⟨latch, run, sound, fun n h => addCauses_set isSet (fun h => h) (fun _ h => h)
    (fun _ {u} h => by
      rw [breachBraking_eq]
      exact judgeLock_events (P := Unrecorded 30 n) (fun h => h) (fun h => h.raise (by decide)) h) h⟩

/-- What a latch that sets with causes that join leaves for good: its record, its event, its warning (R62, R63). -/
structure Latches (first : Cause) (s t : State) : Prop where
  latch : t.halt.latch = some ⟨first, s.now, s.route.distance, s.axle.refSpeed, s.axle.standstill⟩
  run : t.halt.ackRun = none
  state : t.traction.state = .halted
  retained : t.lines.retained = none
  sound : t.sound = (askFor 0 s).sound
  recorded : Recorded 30 first.code s.axle.refSpeed t

theorem Latches.brake {first : Cause} {u : State} (h : Latches first s u) : Latches first s (breachBraking u) where
  latch := by rw [breachBraking_halt]; exact h.latch
  run := by rw [breachBraking_halt]; exact h.run
  state := (breachBraking_traction u).2.1.trans h.state
  retained := by rw [breachBraking_eq, judgeLock_lines]; exact h.retained
  sound := by rw [breachBraking_eq, judgeLock_sound]; exact h.sound
  recorded := by
    rw [breachBraking_eq]
    exact judgeLock_events (P := Recorded 30 first.code s.axle.refSpeed) (fun h => h) (fun h => h.raise (by decide)) h.recorded

theorem Latches.drive {first : Cause} {u : State} (h : Latches first s u) : Latches first s (judgeDrive u) :=
  judgeDrive_set (P := Latches first s) (by simp [h.latch]) (fun {u c} h => ⟨h.latch, h.run, h.state, h.retained, h.sound, h.recorded⟩)
    (fun {u a b} kept h => ⟨h.latch, h.run, h.state, kept.elim id (·.trans h.retained), h.sound, h.recorded⟩) h

theorem Cause.code_injective {a b : Cause} (h : a.code = b.code) : a = b := by
  cases a <;> cases b <;> first | rfl | cases h

/-- Of causes that become present together the highest is the first cause of a clear latch (R62, R63). -/
theorem addCauses_latches {cs : List Cause} {first : Cause} (inside : first ∈ cs) (clear : s.halt.latch = none)
    (absent : s.halt.causes.has first = false) (highest : ∀ c ∈ cs, s.halt.causes.has c = false → c.code ≤ first.code) :
    Latches first s (addCauses cs s) := by
  refine Latches.drive ?_
  rcases joinCauses_cases cs s with ⟨-, all⟩ | ⟨top, c, mem, new, above, joined⟩
  · rw [all first inside] at absent; cases absent
  · obtain rfl : top = first := Cause.code_injective (le_antisymm (highest top mem new) (above first inside absent))
    rw [joined, clear]
    dsimp only [Option.isNone_none, if_true]
    have present : Latches top s ((setLatch top s).causing c) := by
      refine ⟨?_, ?_, ?_, ?_, ?_, setLatch_recorded top s⟩
      · show (setLatch top s).halt.latch = _; simp
      · show (setLatch top s).halt.ackRun = _; simp
      · show (setLatch top s).traction.state = _; simp [Traction.halted_state]
      · show (setLatch top s).lines.retained = _; simp
      · exact setLatch_sound top s
    split
    · exact present.brake
    · exact present

theorem Latches.halted {first : Cause} {t : State} (h : Latches first s t) (now : t.now = s.now) : HaltLatched first s t where
  record := by rw [now]; exact h.latch
  told := h.recorded.told
  warned := by rw [h.sound, now]; rfl

end Sys2Proof.Machine
end

section
/-! The HALT drive and its law (R74), and the requests HALT and RESUME (R65). -/

namespace Sys2Proof.Machine

variable {s : State}

/-! ### Causes, one by one -/

theorem Causes.ext_has {a b : Causes} (h : ∀ y, a.has y = b.has y) : a = b := by
  have host := h .host
  have demandLost := h .demandLost
  have trainline := h .trainline
  have vigilance := h .vigilance
  have junction := h .junction
  have rollback := h .rollback
  have referenceLost := h .referenceLost
  have breach := h .breach
  cases a; cases b
  simp_all [Causes.has]

theorem Causes.counts_congr {a b : Causes} (h : ∀ y, y ≠ .trainline → a.has y = b.has y) : a.counts = b.counts := by
  simp [Causes.counts, Cause.descending, h .host (by decide), h .demandLost (by decide), h .vigilance (by decide),
    h .junction (by decide), h .rollback (by decide), h .referenceLost (by decide), h .breach (by decide)]

/-- TRAINLINE is the level of the HALT line once it is sensed (R75); the other causes stay. -/
theorem senseHalt_has (s : State) (y : Cause) :
    (senseHalt s).halt.causes.has y = if y = .trainline then s.pins.haltLine else s.halt.causes.has y := by
  unfold senseHalt; split
  next high => rw [joinCauses_has]; simp [high]
  next low => rw [dropCauses_has]; simp [low]

/-! ### What causes leave of the lines and the settings -/

/-- Causes that join clear at most a retained pulse on the lines (R77). -/
theorem joinCauses_lines (cs : List Cause) (s : State) :
    (joinCauses cs s).lines = { s.lines with retained := (joinCauses cs s).lines.retained } := by
  rcases joinCauses_cases cs s with ⟨same, -⟩ | ⟨first, c, -, -, -, joined⟩
  · rw [same]
  · have latched : ((if s.halt.latch.isNone then setLatch first s else s).causing c).lines =
        { s.lines with retained := ((if s.halt.latch.isNone then setLatch first s else s).causing c).lines.retained } := by
      unfold State.causing; split <;> simp
    rw [joined]
    dsimp only
    split
    · rw [breachBraking_eq, judgeLock_lines]; exact latched
    · exact latched

theorem senseHalt_lines (s : State) : (senseHalt s).lines = { s.lines with retained := (senseHalt s).lines.retained } := by
  unfold senseHalt; split
  · exact joinCauses_lines _ _
  · rfl

/-- The settings of the groups that neither the effort, the route nor the sounds lock stay at an event's halts (R165, R168). -/
theorem setting_walk {n : Nat} (other : ∀ g : Group, g = .g2 ∨ g = .g3 ∨ g = .g5 → settingGroup n ≠ g.code) (v : Int) :
    QuietWalk (fun _ => True) fun u => u.cfg n = v where
  free := fun _ _ _ => trivial
  raise := fun _ h => h
  lock := fun {s g b} hg h => (judgeLock_value b s (other g hg)).trans h
  effortHeld := fun h => h
  sound := fun _ h => h
  traction := fun h => h
  latch := fun _ h => h
  cause := fun _ h => h
  lines := fun _ _ _ h => h
  route := fun _ _ _ h => h
  sand := fun h => by rw [releaseSand_eq]; exact h
  junction := fun _ _ h => h
  vigil := fun h => h

theorem haltOutput_walk (v : Int) : QuietWalk (fun _ => True) fun u => u.cfg Setting.haltOutput = v :=
  setting_walk (by rintro g (rfl | rfl | rfl) <;> decide) v

theorem joinCauses_haltOutput (cs : List Cause) (s : State) : (joinCauses cs s).cfg Setting.haltOutput = s.cfg Setting.haltOutput :=
  joinCauses_quiet (haltOutput_walk _) (fun _ _ => trivial) rfl

theorem senseHalt_haltOutput (s : State) : (senseHalt s).cfg Setting.haltOutput = s.cfg Setting.haltOutput :=
  senseHalt_quiet (haltOutput_walk _) rfl

theorem judgeDrive_haltOutput (s : State) : (judgeDrive s).cfg Setting.haltOutput = s.cfg Setting.haltOutput :=
  judgeDrive_quiet (haltOutput_walk _) rfl

/-! ### The HALT drive -/

/-- A drive law reads the drive, the HALT output and the causes but TRAINLINE. -/
theorem DriveLaw.transfer {s t : State} (law : DriveLaw s) (halting : t.lines.halting = s.lines.halting)
    (output : t.cfg Setting.haltOutput = s.cfg Setting.haltOutput)
    (causes : ∀ y, y ≠ .trainline → t.halt.causes.has y = s.halt.causes.has y) : DriveLaw t := by
  unfold DriveLaw
  rw [halting, output, Causes.counts_congr causes]
  exact law

/-- The HALT drive judged obeys its law (R74), whatever it was before. -/
theorem judgeDrive_law (s : State) : DriveLaw (judgeDrive s) := by
  rcases judgeDrive_cases s with ⟨same, e⟩ | ⟨drive, -, e⟩ | ⟨still, -, e⟩
  · rw [e]; exact same.symm
  · rw [e]; exact iff_of_true rfl drive
  · rw [e]
    have ended : DriveLaw (s.setLines { s.lines with halting := false }) := iff_of_false (by simp) still
    exact ended.transfer (by rw [senseHalt_lines]) (senseHalt_haltOutput _) fun y other => by rw [senseHalt_has, if_neg other]

theorem addCauses_law (cs : List Cause) (s : State) : DriveLaw (addCauses cs s) := judgeDrive_law _

theorem removeCauses_law (cs : List Cause) (s : State) : DriveLaw (removeCauses cs s) := judgeDrive_law _

theorem addCauses_haltOutput (cs : List Cause) (s : State) : (addCauses cs s).cfg Setting.haltOutput = s.cfg Setting.haltOutput :=
  (judgeDrive_haltOutput _).trans (joinCauses_haltOutput cs s)

theorem removeCauses_haltOutput (cs : List Cause) (s : State) :
    (removeCauses cs s).cfg Setting.haltOutput = s.cfg Setting.haltOutput := judgeDrive_haltOutput _

/-- TRAINLINE stays while the unit did not drive the line, and takes the line's level where its drive ends (R75). -/
theorem judgeDrive_trainline (s : State) :
    (s.lines.halting = false → (judgeDrive s).halt.causes.trainline = s.halt.causes.trainline) ∧
    (s.lines.halting = true → (judgeDrive s).lines.halting = false → (judgeDrive s).halt.causes.trainline = s.pins.haltLine) ∧
    ((judgeDrive s).halt.causes.trainline = s.halt.causes.trainline ∨ (judgeDrive s).halt.causes.trainline = s.pins.haltLine) := by
  rcases judgeDrive_cases s with ⟨-, e⟩ | ⟨-, idle, e⟩ | ⟨-, driven, e⟩
  · rw [e]; exact ⟨fun _ => rfl, fun on off => (by rw [on] at off; cases off), .inl rfl⟩
  · rw [e]; exact ⟨fun _ => rfl, fun on => (by rw [on] at idle; cases idle), .inl rfl⟩
  · have sensed : (senseHalt (s.setLines { s.lines with halting := false })).halt.causes.trainline = s.pins.haltLine :=
      senseHalt_has (s.setLines { s.lines with halting := false }) .trainline
    rw [e]
    exact ⟨fun idle => (by rw [idle] at driven; cases driven), fun _ _ => sensed, .inr sensed⟩

/-! ### The traction unit at causes that join -/

/-- On a set latch a cause that is not BREACH leaves the traction unit (R24). -/
theorem addCauses_traction_latched {cs : List Cause} (mild : .breach ∉ cs) (set : s.halt.latch.isSome = true) :
    (addCauses cs s).traction = s.traction :=
  addCauses_set (P := fun u => u.traction = s.traction) set (fun h => h) (fun _ h => h) (fun breached => absurd breached mild) rfl

/-- A clear latch that sets for a cause that is not BREACH takes the unit to HALTED, with no power, and does no more (R20, R24). -/
theorem addCauses_traction_clear {cs : List Cause} (mild : .breach ∉ cs) {first : Cause} (inside : first ∈ cs)
    (clear : s.halt.latch = none) (absent : s.halt.causes.has first = false) : (addCauses cs s).traction = s.traction.halted := by
  rcases joinCauses_cases cs s with ⟨-, all⟩ | ⟨top, c, mem, -, -, joined⟩
  · rw [all first inside] at absent; cases absent
  · have unbreached : top ≠ .breach := fun e => mild (e ▸ mem)
    rw [clear] at joined
    simp only [Option.isNone_none, if_true, if_neg unbreached] at joined
    unfold addCauses
    rw [joined]
    refine judgeDrive_set (P := fun u => u.traction = s.traction.halted) (s := (setLatch top s).causing c) ?_ (fun h => h)
      (fun _ h => h) ?_
    · show (setLatch top s).halt.latch.isSome = true; simp
    · show (setLatch top s).traction = _; simp

/-! ### HALT and RESUME -/

/-- An idle buzzer plays HALT WARNING at once when it is asked for (R155, R158). -/
theorem haltWarning_played (idle : s.sound.buzzer = ⟨.idle, []⟩) :
    (askFor 0 s).sound.buzzer = ⟨.playing 0 0 0 (s.now + 300), []⟩ := by
  simp [askFor, requestPattern, SoundUnit.pattern, fixedPattern, SoundUnit.line, idle, SoundLine.plays, judgeSound, takePattern,
    enterStep, SoundUnit.setLine]

/-- No cause is present on a clear latch (R62, R67). -/
theorem HaltLaw.quiet (law : HaltLaw s) (clear : s.halt.latch = none) (c : Cause) : s.halt.causes.has c = false := by
  by_contra present
  have any : s.halt.causes.any = true := List.any_eq_true.2 ⟨c, c.mem_descending, by simpa using present⟩
  have := law.latched any
  simp [clear] at this

/-- HALT joins HOST to the causes (R65). -/
theorem halt_causes (s : State) : (addCauses [.host] s).halt.causes =
    { s.halt.causes with host := true, trainline := (addCauses [.host] s).halt.causes.trainline } :=
  Causes.ext_has fun y => by
    by_cases line : y = .trainline
    · rw [line]; rfl
    · rw [addCauses_has line]; cases y <;> first | rfl | exact absurd rfl line

/-- RESUME ends HOST (R65). -/
theorem resume_causes (s : State) : (removeCauses [.host] s).halt.causes =
    { s.halt.causes with host := false, trainline := (removeCauses [.host] s).halt.causes.trainline } :=
  Causes.ext_has fun y => by
    by_cases line : y = .trainline
    · rw [line]; rfl
    · rw [removeCauses_has line]; cases y <;> first | rfl | exact absurd rfl line

/-- The state in which the head of the queue has executed differs from the one it left in the host link alone: a latch that set
there has set. -/
theorem Latches.answered {first : Cause} {tag : Nat} {r : HostRequest} {reply : Reply} {t : State}
    (h : Latches first (queued tag r s) t) (now : t.now = s.now) : HaltLatched first s (answering tag r reply t) where
  record := by show t.halt.latch = some ⟨first, t.now, _, _, _⟩; rw [now]; exact h.latch
  told := fun _ whole => (h.recorded : Recorded _ _ _ t).resolve_left fun full => by
    rw [show t.host.incomplete = false from whole] at full; cases full
  warned := h.sound.trans (askFor_sound (u := queued tag r s) (s := s.setNow t.now) rfl now.symm 0)

/-- HALT's effects on `s` with the request in its queue, and no reply yet (R65). -/
theorem halt_effects (law : HaltLaw s) (clear : s.halt.latch = none) :
    let t := addCauses [.host] s
    Latches .host s t ∧
    (s.sound.buzzer = ⟨.idle, []⟩ → t.sound.buzzer = ⟨.playing 0 0 0 (s.now + 300), []⟩) ∧
    (s.traction.effort ≤ 0 → t.traction.effort = s.traction.effort) ∧
    (s.traction.state = .running → 0 < s.traction.effort → t.traction.effort = 0 ∧ t.traction.effortA = 0 ∧
      t.traction.effortB = 0 ∧ t.traction.lineA = .duty 500 ∧ t.traction.lineB = .duty 500) := by
  have absent : s.halt.causes.has .host = false := law.quiet clear .host
  have latches := addCauses_latches (List.mem_singleton_self Cause.host) clear absent (by simp)
  refine ⟨latches, fun idle => ?_, ?_⟩
  · rw [latches.sound]; exact haltWarning_played idle
  · rw [addCauses_traction_clear (by decide) (List.mem_singleton_self _) clear absent]
    exact ⟨fun still => by rw [Traction.halted_still (.inr still)], fun moving power => by
      rw [Traction.halted_power moving power]; exact ⟨rfl, rfl, rfl, rfl, rfl⟩⟩

/-- RESUME on a set latch leaves it and the traction unit (R65). -/
theorem resume_latched {r : LatchRecord} (set : s.halt.latch = some r) :
    (removeCauses [.host] s).halt.latch = some r ∧ (removeCauses [.host] s).traction = s.traction :=
  judgeDrive_set (P := fun u => u.halt.latch = some r ∧ u.traction = s.traction) (s := dropCauses [.host] s)
    (by simp [dropCauses, set]) (fun h => h) (fun _ h => h) ⟨set, rfl⟩

/-- Settles O39: HALT and RESUME are answered, and their effects are those of causes that join and of causes that end. -/
theorem haltLatchesAndResumeEndsHost : Obligations.HaltLatchesAndResumeEndsHost := by
  refine ⟨fun cs s => ⟨fun first inside clear absent highest => ?_, fun r set => ?_⟩, fun tag s ready law => ⟨?_, ?_⟩⟩
  · have latches := addCauses_latches inside clear absent highest
    exact ⟨latches.halted (by simp), latches.run, latches.state, latches.retained⟩
  · obtain ⟨latch, run, sound, quiet⟩ := addCauses_latched (cs := cs) set
    exact ⟨latch, run, sound, fun n => Unrecorded.untold (quiet n)⟩
  · refine ⟨_, (exec_request rfl).trans (congrArg _ (submit_ready ready tag .halt)), rfl, halt_causes _, fun clear => ?_,
      fun r set => ?_, ?_, ?_⟩
    · obtain ⟨latches, buzzer, still, power⟩ := halt_effects (s := queued tag .halt s) ⟨law.halted, law.latched⟩ clear
      exact ⟨latches.latch, latches.run, latches.state, latches.retained, latches.answered (by simp [queued]), buzzer, still, power⟩
    · obtain ⟨latch, -, sound, quiet⟩ := addCauses_latched (s := queued tag .halt s) (cs := [.host]) set
      exact ⟨latch, addCauses_traction_latched (s := queued tag .halt s) (by decide) (by simp [queued, set]), sound,
        fun n => Unrecorded.untold (quiet n)⟩
    · have counted : (addCauses [.host] (queued tag .halt s)).halt.causes.counts = true :=
        List.any_eq_true.2 ⟨.host, Cause.mem_descending _, by simp [addCauses_has]⟩
      have drive := addCauses_law [.host] (queued tag .halt s)
      unfold DriveLaw at drive
      rw [counted, addCauses_haltOutput] at drive
      exact drive.trans (and_iff_left rfl)
    · simp [answering, perform, doHalt, taken, queued]
  · obtain ⟨quiet, ends, -⟩ := judgeDrive_trainline (dropCauses [.host] (queued tag .resume s))
    refine ⟨_, (exec_request rfl).trans (congrArg _ (submit_ready ready tag .resume)), rfl, resume_causes _, fun r set => ?_,
      ?_, quiet, ends, ?_⟩
    · obtain ⟨latch, traction⟩ := resume_latched (s := queued tag .resume s) set
      exact ⟨latch, (congrArg Traction.state traction).trans (law.halted.2 (by simp [set]))⟩
    · have drive := removeCauses_law [.host] (queued tag .resume s)
      unfold DriveLaw at drive
      rw [removeCauses_haltOutput] at drive
      exact drive
    · simp [answering, perform, doResume, taken, queued]

end Sys2Proof.Machine
end

section
/-! The pass of the effort chain, stage by stage (R25): which fields each stage writes. A property of the other fields, or of these
as a stage writes them, outlives the stage. -/

namespace Sys2Proof.Machine

/-- The primitives of the acknowledgement and of the start pulse (R23, R66, R67, R76, R77). -/
structure AckWalk (P : State → Prop) : Prop extends ToneWalk P where
  raise : ∀ {s k j v}, k ≠ 9 → k ≠ 30 → At P s → At P (raise k j v s)
  start : ∀ {s}, s.traction.state = .startHeld → At P s → At P (s.setTraction { s.traction with state := .running })
  ack : ∀ {s x}, At P s → At P (s.setHalt { s.halt with ackRun := x })
  release : ∀ {s}, s.halt.causes.any = false → s.halt.latch.isSome = true → At P s →
    At P ((s.setHalt { s.halt with latch := none, ackRun := none }).setTraction { s.traction with state := .inhibited })
  pulse : ∀ {s e p r}, At P s → At P (s.setLines { s.lines with emission := e, previousDemand := p, retained := r })

/-- The primitives of the reading of a demand (R30 to R32). -/
structure ReadWalk (P : State → Prop) : Prop where
  raise : ∀ {s k j v}, k ≠ 9 → k ≠ 30 → At P s → At P (raise k j v s)
  read : ∀ {s h e i f m d}, At P s → At P (s.setTraction { s.traction with
    lastH := h, lastHEmergency := e, invalidRun := i, handleFaultMark := f, inEmergency := m, demandLoss := d })
  lose : ∀ {s}, At P s → At P (addCauses [.demandLost] s)
  remove : ∀ {s}, At P s → At P (removeCauses [.demandLost] s)

/-- The primitives of stage 1. -/
structure StageWalk (P : State → Prop) : Prop extends AckWalk P, ReadWalk P

/-- The primitives of the later stages (R35, R37, R40, R42 to R56). -/
structure LateWalk (P : State → Prop) : Prop where
  raise : ∀ {s k j v}, k ≠ 9 → k ≠ 30 → At P s → At P (raise k j v s)
  roll : ∀ {s}, At P s → At P (addCauses [.rollback] s)
  overspeed : ∀ {s st}, At P s → At P (judgeOverspeed st s)
  effort : ∀ {s e}, At P s → At P (s.setTraction { s.traction with effort := e })
  effortHeld : ∀ {s b}, At P s → At P (judgeLock .g2 b (s.setSettings { s.settings with effortHeld := b }))
  adhesion : ∀ {s x}, At P s → At P (s.setAdhesion x)
  free : ∀ {s n}, At P s → At P (s.setFreeCount n)
  outputs : ∀ {s a b p q d}, At P s → At P (s.setTraction { s.traction with
    effortA := a, effortB := b, lineA := p, lineB := q, invDir := d })
  drives : ∀ {s a b c d}, At P s → At P (s.setLines { s.lines with
    demandDrive := a, demandChanged := b, tlFwdDrive := c, tlRevDrive := d })
  stamp : ∀ {s n}, At P s → At P (s.setTraction { s.traction with passDue := n })

/-- The primitives of a pass once the demand is read. -/
structure TailWalk (P : State → Prop) : Prop extends AckWalk P, LateWalk P

/-- The primitives of a pass once it is opened. -/
structure OutputWalk (P : State → Prop) : Prop extends StageWalk P, LateWalk P

theorem OutputWalk.tail {P : State → Prop} (W : OutputWalk P) : TailWalk P := { W.toAckWalk, W.toLateWalk with }

/-- The primitives of the exit from INHIBITED (R22, R77). -/
structure ExitWalk (P : State → Prop) : Prop where
  leave : ∀ {s st}, s.traction.state = .inhibited → st = .running ∨ st = .startHeld → At P s →
    At P (s.setTraction { s.traction with state := st })
  start : ∀ {s}, s.traction.state = .startHeld → At P s → At P (s.setTraction { s.traction with state := .running })
  spend : ∀ {s}, At P s → At P (s.setLines { s.lines with retained := none })

/-- The primitives of the opening: the limits, the direction and the exit from INHIBITED (R22, R26 to R28, R46). -/
structure OpenWalk (P : State → Prop) : Prop extends ExitWalk P where
  limits : ∀ {s}, At P s → At P (takeLimits s)
  turn : ∀ {s d i t}, At P s → At P (s.setTraction { s.traction with direction := d, ignored := i, settle := t })
  sense : ∀ {s x}, At P s → At P (s.setAxle { s.axle with sense := x })
  inhibit : ∀ {s}, At P s → At P (enterInhibited s)
  refuse : ∀ {s p}, At P s → At P (Machine.raise 9 p s.axle.refSpeed s)

/-- The primitives of a pass. -/
structure PassWalk (P : State → Prop) : Prop extends OutputWalk P, OpenWalk P

variable {P : State → Prop} {s : State}

/-! ### The opening -/

theorem takeDirection_open (W : OpenWalk P) {st p} (h : At P s) : At P (takeDirection st p s) := by
  unfold takeDirection; dsimp only
  refine ite_at (fun _ => W.inhibit ?_) fun _ => ?_
  all_goals exact W.sense (W.turn h)

theorem judgeDirection_open (W : OpenWalk P) {st} (h : At P s) : At P (judgeDirection st s) :=
  ite_at (fun _ => W.turn h) fun _ => ite_at (fun _ => h) fun _ =>
    ite_at (fun _ => takeDirection_open W h) fun _ => W.refuse (s := s.setTraction _) (W.turn h)

theorem deliverStart_stage (start : ∀ {s}, s.traction.state = .startHeld → At P s →
    At P (s.setTraction { s.traction with state := .running })) (h : At P s) : At P (deliverStart s) := by
  unfold deliverStart; split
  next held => exact start held.1 h
  · exact h

theorem judgeExit_exit (W : ExitWalk P) (h : At P s) : At P (judgeExit s) := by
  unfold judgeExit
  refine ite_at (fun inhibited => ite_at (fun _ => ?_) fun _ => W.leave inhibited.1 (.inl rfl) h) fun _ => h
  have held := W.leave inhibited.1 (.inr rfl) h
  unfold enterStartHeld; dsimp only; split
  · exact held
  · exact deliverStart_stage W.start (W.spend held)

/-- The state a pass has opened: the limits taken, the direction and the exit from INHIBITED judged (R22, R26, R46). -/
def passOpened (s : State) : State := judgeExit (judgeDirection s.settings (takeLimits s))

theorem passOpened_open (W : OpenWalk P) (h : At P s) : At P (passOpened s) :=
  judgeExit_exit W.toExitWalk (judgeDirection_open W (W.limits h))

/-! ### Stage 1 -/

theorem readInvalid_read (W : ReadWalk P) (h : At P s) : At P (readInvalid s).1 := by
  unfold readInvalid; dsimp only
  exact ite_at (fun _ => W.raise (by decide) (by decide) (W.read (W.read h))) fun _ => W.read h

theorem readHandle_read (W : ReadWalk P) (h : At P s) : At P (readHandle s).1 := by
  unfold readHandle; split
  · exact W.read h
  · exact readInvalid_read W h

theorem readDemand_read (W : ReadWalk P) (h : At P s) : At P (readDemand s).1 := by
  unfold readDemand; split
  · exact W.remove (W.read h)
  · exact ite_at (fun _ => W.raise (by decide) (by decide) (W.lose (W.read h))) fun _ => W.read h

theorem readDemandOf_read (W : ReadWalk P) (h : At P s) : At P (readDemandOf s).1 := by
  unfold readDemandOf; split
  · exact readHandle_read W h
  · exact readDemand_read W (W.read h)
  · exact W.read h

theorem releaseLatch_stage (W : AckWalk P) (free : s.halt.causes.any = false) (h : At P s) : At P (releaseLatch s) := by
  unfold releaseLatch; split
  · exact h
  next r set => exact silencePattern_event W.toToneWalk (W.raise (by decide) (by decide) (W.release free (by simp [set]) h))

theorem acknowledge_stage (W : AckWalk P) {x} (h : At P s) : At P (acknowledge x s) := by
  unfold acknowledge
  refine ite_at (fun runs => ite_at (fun _ => releaseLatch_stage W ?_ h) fun _ => W.ack h) fun _ => W.ack h
  simp only [Bool.and_eq_true, Bool.not_eq_true'] at runs
  exact runs.1.2

theorem startPulse_stage (W : AckWalk P) (h : At P s) : At P (startPulse s) :=
  ite_at (fun _ => deliverStart_stage W.start h) fun _ => W.pulse (deliverStart_stage W.start h)

theorem judgeEmission_stage (W : AckWalk P) {x} (h : At P s) : At P (judgeEmission x s) :=
  W.pulse (ite_at (fun _ => startPulse_stage W (W.pulse h)) fun _ => h)

theorem stageOne_stage (W : StageWalk P) (h : At P s) : At P (stageOne s).1 :=
  judgeEmission_stage W.toAckWalk (acknowledge_stage W.toAckWalk (readDemandOf_read W.toReadWalk h))

/-! ### The later stages -/

theorem judgeRollback_late (W : LateWalk P) {st} (h : At P s) : At P (judgeRollback st s) :=
  ite_at (fun _ => W.roll h) fun _ => h

theorem moveEffort_late (W : LateWalk P) {st h2} (h : At P s) : At P (moveEffort st h2 s) := W.effortHeld (W.effort h)

theorem raiseAdhesionFault_late (W : LateWalk P) {st i x} (h : At P s) : At P (raiseAdhesionFault st i x s) := by
  unfold raiseAdhesionFault; split
  · exact W.raise (by decide) (by decide) (W.adhesion h)
  · exact W.raise (by decide) (by decide) (W.free (W.adhesion h))

theorem stepBogie_late (W : LateWalk P) {st g i} (h : At P s) : At P (stepBogie st g i s) :=
  ite_at (fun _ => W.adhesion h) fun _ => ite_at (fun _ => raiseAdhesionFault_late W (W.adhesion h)) fun _ => W.adhesion h

theorem judgeSand_late (W : LateWalk P) {st} (h : At P s) : At P (judgeSand st s) := by
  unfold judgeSand; split
  · exact ite_at (fun _ => W.adhesion h) fun _ => h
  · exact ite_at (fun _ => h) fun _ => W.adhesion h
  · exact h

theorem adhesionStep_late (W : LateWalk P) {st} (h : At P s) : At P (adhesionStep st s) :=
  W.adhesion (judgeSand_late W (W.adhesion (stepBogie_late W (stepBogie_late W h))))

/-- The effort lines written change the two lines alone (R44). -/
theorem writeLines_eq (t : Traction) :
    writeLines t = { t with lineA := (writeLines t).lineA, lineB := (writeLines t).lineB } := by
  unfold writeLines; split <;> rfl

theorem writeOutputs_late (W : LateWalk P) {x} (h : At P s) : At P (writeOutputs x s) := by
  have written : ∀ {d}, At P ((shareEffort s).setTraction { writeLines (shareEffort s).traction with invDir := d }) := by
    rw [writeLines_eq]; exact W.outputs (s := shareEffort s) (W.outputs h)
  unfold writeOutputs driveTrainLines
  exact ite_at (fun _ => W.drives written) fun _ => written

theorem laterStages_late (W : LateWalk P) {st h1} (h : At P s) : At P (laterStages st h1 s) :=
  writeOutputs_late W (adhesionStep_late W (moveEffort_late W (judgeRollback_late W (W.overspeed h))))

theorem effortPass_pass (W : PassWalk P) (h : At P s) : At P (effortPass s) :=
  W.stamp (laterStages_late W.toLateWalk (stageOne_stage W.toStageWalk (passOpened_open W.toOpenWalk h)))

/-! ### What the last stages write -/

/-- The adhesion step changes the adhesion section, the event set and the free values' counter alone. -/
theorem adhesionStep_other {st : SettingsStore} (adhesion : ∀ s x, P s → P (s.setAdhesion x))
    (free : ∀ s n, P s → P (s.setFreeCount n)) (host : ∀ s x, P s → P (s.setHost x)) (h : P s) : P (adhesionStep st s) := by
  have fault : ∀ {u i x}, P u → P (raiseAdhesionFault st i x u) := fun h => by
    unfold raiseAdhesionFault; split
    · exact host _ _ (adhesion _ _ h)
    · exact host _ _ (free _ _ (adhesion _ _ h))
  have bogie : ∀ {u g i}, P u → P (stepBogie st g i u) := fun h =>
    ite_at (P := P) (fun _ => adhesion _ _ h) fun _ => ite_at (fun _ => fault (adhesion _ _ h)) fun _ => adhesion _ _ h
  have sand : ∀ {u}, P u → P (judgeSand st u) := fun h => by
    unfold judgeSand; split
    · exact ite_at (P := P) (fun _ => adhesion _ _ h) fun _ => h
    · exact ite_at (P := P) (fun _ => h) fun _ => adhesion _ _ h
    · exact h
  exact adhesion _ _ (sand (adhesion _ _ (bogie (bogie h))))

@[simp] theorem adhesionStep_traction (st : SettingsStore) (s : State) : (adhesionStep st s).traction = s.traction :=
  adhesionStep_other (P := fun u => u.traction = s.traction) (fun _ _ h => h) (fun _ _ h => h) (fun _ _ h => h) rfl

@[simp] theorem adhesionStep_lines (st : SettingsStore) (s : State) : (adhesionStep st s).lines = s.lines :=
  adhesionStep_other (P := fun u => u.lines = s.lines) (fun _ _ h => h) (fun _ _ h => h) (fun _ _ h => h) rfl

@[simp] theorem adhesionStep_halt (st : SettingsStore) (s : State) : (adhesionStep st s).halt = s.halt :=
  adhesionStep_other (P := fun u => u.halt = s.halt) (fun _ _ h => h) (fun _ _ h => h) (fun _ _ h => h) rfl

@[simp] theorem adhesionStep_settings (st : SettingsStore) (s : State) : (adhesionStep st s).settings = s.settings :=
  adhesionStep_other (P := fun u => u.settings = s.settings) (fun _ _ h => h) (fun _ _ h => h) (fun _ _ h => h) rfl

/-- A pass: its opening, stage 1, the later stages, and the time of the next. -/
theorem effortPass_eq (s : State) : effortPass s =
    let first := stageOne (passOpened s)
    let done := laterStages s.settings first.2 first.1
    done.setTraction { done.traction with passDue := s.now + Config.period } := by
  unfold effortPass passOpened
  rfl

theorem driveTrainLines_eq (x : Int) (s : State) : driveTrainLines x s = s.setLines (driveTrainLines x s).lines := by
  unfold driveTrainLines; split <;> rfl

/-- The effort shared, the lines and INV_DIR written (R29, R42 to R44). -/
theorem writeOutputs_traction (x : Int) (s : State) : (writeOutputs x s).traction =
    { writeLines (shareEffort s).traction with invDir := invDirUnder s.traction.direction s.traction.invDir } := by
  unfold writeOutputs
  dsimp only
  rw [driveTrainLines_eq, writeLines_eq]
  rfl

@[simp] theorem writeOutputs_halt (x : Int) (s : State) : (writeOutputs x s).halt = s.halt := by
  unfold writeOutputs; dsimp only; rw [driveTrainLines_eq]; rfl

@[simp] theorem writeOutputs_settings (x : Int) (s : State) : (writeOutputs x s).settings = s.settings := by
  unfold writeOutputs; dsimp only; rw [driveTrainLines_eq]; rfl

end Sys2Proof.Machine
end

section
/-! The cancel queue with its slots, and the HALT drive with its causes, over every step (R74, R113). -/

namespace Sys2Proof.Machine

variable {P : State → Prop} {s : State}

/-- The new values of a group at their blocks (R80, R104, R131, R149). -/
theorem takeUp_command (W : CommandWalk P) (drive : ∀ {s}, At P s → At P (judgeDrive s)) {g old} (h : At P s) :
    At P (takeUp g old s) := by
  unfold takeUp; split
  · exact h
  · exact h
  · exact h
  · exact takeUpRoute_event W.event h
  · exact takeUpStops_command W h
  · exact h
  · exact ite_at (fun _ => h) fun _ => drive h

/-- What every command of a step walk keeps, a step keeps. -/
theorem step_command (W : StepWalk P) (pending : ∀ {s l}, P s → P (s.setPending l)) {s t : State} (h : P s)
    (next : step s = .next t) : P t := by
  unfold step at next
  split at next
  · cases next; exact W.clock h
  next c rest _ => exact exec_command W c (pending h) t next

/-! ### The cancel queue -/

theorem commandWalk_cancel : CommandWalk fun s => CancelLaw s.junction where
  raise := fun {s k j v} _ h => by rw [At, raise_junction]; exact h
  lock := fun {s g b} _ h => by rw [At, judgeLock_junction]; exact h
  sound := fun h => h
  add := fun {s cs} h => by rw [At, addCauses_junction]; exact h
  remove := fun {s cs} h => by rw [At, removeCauses_junction]; exact h
  sand := fun {s} h => by rw [releaseSand_eq]; exact h
  junction := fun keeps h => keeps h
  vigil := fun h => h
  tweak := fun _ h => h
  inhibit := fun {s} h => by rw [enterInhibited_eq]; exact h
  halt := fun _ h => h
  lines := fun _ h => h
  sense := fun {s} h => by rw [At, senseHalt_junction]; exact h
  groups := fun {s} h => by
    have same : (judgeStandstillGroups s).junction = s.junction := judgeStandstillGroups_halt_walk (blockHalt_junction s) rfl
    rw [At, same]; exact h
  axle := fun h => h
  stop := fun h => h
  place := fun h => h
  sandState := fun h => h
  clock := fun h => h
  pins := fun h => h
  host := fun h => h

theorem effortPass_junction (s : State) : (effortPass s).junction = s.junction :=
  effortPass_at (ChainWalk.other (blockHalt_junction s) (fun _ _ h => h) (fun _ _ h => h) (fun _ _ h => h) (fun _ _ _ h => h)
    (fun _ _ _ _ h => h) (fun _ _ _ h => h) fun _ _ h => h) rfl

theorem stepWalk_cancel : StepWalk fun s => CancelLaw s.junction where
  toCommandWalk := commandWalk_cancel
  reset := fun _ => CancelLaw.atReset
  value := fun {s g n v} _ _ h =>
    ite_at (fun _ => h) fun _ => takeUp_command commandWalk_cancel (fun {s} h => by rw [At, judgeDrive_junction]; exact h)
      (s := s.setSettings _) h
  freeze := fun {s g b} h => takeUp_command commandWalk_cancel (fun {s} h => by rw [At, judgeDrive_junction]; exact h)
    (by rw [At, judgeLock_junction]; exact h)
  pass := fun {s} h => by rw [At, effortPass_junction]; exact h
  fault := fun {s i x} _ h => by
    unfold raiseAdhesionFault; split <;> (rw [At, raise_junction]; exact h)

/-! ### The HALT drive -/

/-- A judged lock of another group keeps the HALT output (R80, R165). -/
theorem judgeLock_drive {g : Group} (other : g ≠ .g6) (b : Bool) (law : DriveLaw s) : DriveLaw (judgeLock g b s) :=
  law.transfer (by rw [judgeLock_lines]) (judgeLock_value b s (by revert other; cases g <;> decide))
    fun y _ => by rw [judgeLock_halt]

theorem raise_drive {k j : Nat} {v : Int} (law : DriveLaw s) : DriveLaw (raise k j v s) :=
  law.transfer (by rw [raise_lines]) rfl fun y _ => by rw [raise_halt]

theorem commandWalk_drive : CommandWalk DriveLaw where
  raise := fun _ law => raise_drive law
  lock := fun {s g b} other law => judgeLock_drive (by rcases other with rfl | rfl | rfl <;> decide) b law
  sound := fun law => law
  add := fun _ => addCauses_law _ _
  remove := fun _ => removeCauses_law _ _
  sand := fun {s} law => by rw [releaseSand_eq]; exact law
  junction := fun _ law => law
  vigil := fun law => law
  tweak := fun _ law => law
  inhibit := fun {s} law => by rw [enterInhibited_eq]; exact law
  halt := fun same law => DriveLaw.transfer law rfl rfl fun y _ => by rw [State.setHalt_halt, same]
  lines := fun same law => DriveLaw.transfer law same rfl fun _ _ => rfl
  sense := fun {s} law => DriveLaw.transfer law (by rw [senseHalt_lines]) (senseHalt_haltOutput s) fun y other => by
    rw [senseHalt_has, if_neg other]
  groups := fun {s} law => by
    unfold judgeStandstillGroups
    dsimp only
    split
    next same =>
      have g1 : DriveLaw (judgeLock .g1 (!s.axle.standstill) (judgeLock .g0 (!s.axle.standstill) s)) :=
        judgeLock_drive (by decide) _ (judgeLock_drive (by decide) _ law)
      exact g1.transfer (by rw [judgeLock_lines]) same fun y _ => by rw [judgeLock_halt]
    · exact judgeDrive_law _
  axle := fun law => law
  stop := fun law => law
  place := fun law => law
  sandState := fun law => law
  clock := fun law => law
  pins := fun law => law
  host := fun law => law

/-- A new value of a group, taken up: only G6's HALT output is read by the drive, and it is judged afresh (R80, R166). -/
theorem takeUp_drive {g : Group} {old : SettingsStore} {t : State} (law : DriveLaw s) (lines : t.lines = s.lines)
    (halt : t.halt = s.halt) (before : old.value Setting.haltOutput = s.cfg Setting.haltOutput)
    (others : g ≠ .g6 → t.cfg Setting.haltOutput = s.cfg Setting.haltOutput) : DriveLaw (takeUp g old t) := by
  by_cases own : g = .g6
  · subst own
    have unchanged : t.cfg Setting.haltOutput = old.value Setting.haltOutput → DriveLaw t := fun same =>
      law.transfer (by rw [lines]) (same.trans before) fun y _ => by rw [halt]
    exact ite_at (P := DriveLaw) unchanged fun _ => judgeDrive_law t
  · have kept : DriveLaw t := law.transfer (by rw [lines]) (others own) fun y _ => by rw [halt]
    exact takeUp_command commandWalk_drive (fun _ => judgeDrive_law _) kept

/-- A value set changes the setting it names alone (R166). -/
theorem setValue_other {n m : Nat} {v : Int} (other : m ≠ n) (s : State) :
    (s.setSettings { s.settings with effective := listSet n v s.settings.effective }).cfg m = s.cfg m := by
  unfold State.cfg SettingsStore.value
  rw [State.setSettings_settings, listed_listSet, if_neg other]

theorem passWalk_drive : PassWalk DriveLaw where
  note := fun _ law => raise_drive law
  sounding := fun law => judgeLock_drive (by decide) _ law
  sound := fun _ law => law
  raise := fun _ _ law => raise_drive law
  leave := fun _ _ law => law
  start := fun _ law => law
  spend := fun law => law
  read := fun law => law
  lose := fun _ => addCauses_law _ _
  roll := fun _ => addCauses_law _ _
  remove := fun _ => removeCauses_law _ _
  ack := fun law => law
  release := fun _ _ law => law
  pulse := fun law => law
  overspeed := fun {s st} law => by rw [judgeOverspeed_eq]; exact law
  effort := fun law => law
  effortHeld := fun {s b} law => judgeLock_drive (s := s.setSettings _) (by decide) b law
  adhesion := fun law => law
  free := fun law => law
  outputs := fun law => law
  drives := fun law => law
  stamp := fun law => law
  limits := fun law => law
  turn := fun law => law
  sense := fun law => law
  inhibit := fun {s} law => by rw [enterInhibited_eq]; exact law
  refuse := fun law => raise_drive law

theorem stepWalk_drive : StepWalk DriveLaw where
  toCommandWalk := commandWalk_drive
  reset := fun _ => iff_of_false (by simp [resetBlocks, TrainLines.atReset]) fun drive =>
    absurd (show Causes.none.counts = true from drive.2) (by decide)
  value := fun {s g n v} group _ law => by
    refine ite_at (fun _ => law) fun _ => takeUp_drive law rfl rfl rfl fun other => setValue_other ?_ s
    rintro rfl
    exact other (Option.some.inj (group.symm.trans (by decide)))
  freeze := fun {s g b} law => takeUp_drive (s := s) law (by rw [judgeLock_lines]; rfl) (by rw [judgeLock_halt]; rfl) rfl
    fun other => judgeLock_value _ _ (by revert other; cases g <;> decide)
  pass := fun law => effortPass_pass passWalk_drive law
  fault := fun {s i x} _ law => by
    unfold raiseAdhesionFault; split <;> exact raise_drive law

/-! ### Queues, lines, vigilance -/

/-- Those of the laws of the queues, of the driven lines and of the vigilance timer that are asked for. -/
structure PlacesKept (queues lines vigil : Prop) (s : State) : Prop where
  sounds : queues → SoundLaw s.sound
  signals : queues → s.junction.signalQueue.length ≤ Config.maxSignals
  requests : queues → s.host.queue.length ≤ Config.maxRequests
  lines : lines → LineLaw s.lines
  vigil : vigil → VigilLaw s.vigilance

theorem raise_queue (k j : Nat) (v : Int) (s : State) : (raise k j v s).host.queue = s.host.queue := rfl

theorem judgeLock_queue (g : Group) (b : Bool) (s : State) : (judgeLock g b s).host.queue = s.host.queue :=
  judgeLock_events (P := fun u => u.host.queue = s.host.queue) (fun h => h) (fun h => h) rfl

variable {p q r : Prop}

/-- These laws read five blocks. -/
theorem PlacesKept.transfer {s t : State} (h : PlacesKept p q r s) (sound : t.sound = s.sound) (junction : t.junction = s.junction)
    (queue : t.host.queue = s.host.queue) (lines : t.lines = s.lines) (vigil : t.vigilance = s.vigilance) : PlacesKept p q r t where
  sounds := sound ▸ h.sounds
  signals := junction ▸ h.signals
  requests := queue ▸ h.requests
  lines := lines ▸ h.lines
  vigil := vigil ▸ h.vigil

theorem PlacesKept.lock {g : Group} {b : Bool} (h : PlacesKept p q r s) : PlacesKept p q r (judgeLock g b s) :=
  h.transfer (by simp) (by simp) (judgeLock_queue g b s) (by simp) (by simp)

theorem haltWalk_places : HaltWalk (PlacesKept p q r) where
  raise := fun h => h.transfer rfl rfl rfl rfl rfl
  lock := fun h => h.lock
  sound := fun keeps h => { h with sounds := fun on => keeps (h.sounds on) }
  outputs := fun _ h => h.transfer rfl rfl rfl rfl rfl
  inhibit := fun h => by rw [enterInhibited_eq]; exact h.transfer rfl rfl rfl rfl rfl
  full := fun h => h.transfer rfl rfl rfl rfl rfl
  effortHeld := fun h => h.transfer rfl rfl rfl rfl rfl
  start := fun _ h => h.transfer rfl rfl rfl rfl rfl
  lines := fun _ keeps h => { h with lines := fun on => keeps (h.lines on) }
  ack := fun h => h.transfer rfl rfl rfl rfl rfl
  latch := fun _ h => h.transfer rfl rfl rfl rfl rfl
  causes := fun _ h => h.transfer rfl rfl rfl rfl rfl

/-- Every primitive of a command keeps the queues within their places, the lines with the LEAD and the vigilance timer with its
states. -/
theorem wholeWalk_places : WholeWalk (PlacesKept p q r) := {
  ChainWalk.other haltWalk_places (fun _ _ h => h.transfer rfl rfl rfl rfl rfl) (fun _ _ h => h.transfer rfl rfl rfl rfl rfl)
    (fun _ _ h => h.transfer rfl rfl rfl rfl rfl) (fun _ _ _ h => h.transfer rfl rfl rfl rfl rfl)
    (fun _ _ _ _ h => h.transfer rfl rfl rfl rfl rfl) (fun _ _ _ h => h.transfer rfl rfl rfl rfl rfl)
    (fun _ _ h => h.transfer rfl rfl rfl rfl rfl) with
  route := fun _ _ h => h.transfer rfl rfl rfl rfl rfl
  sand := fun {s} h => by rw [releaseSand_eq]; exact h.transfer rfl rfl rfl rfl rfl
  inhibited := fun _ h => h.transfer rfl rfl rfl rfl rfl
  junction := fun keeps h => { h with signals := fun on => keeps (h.signals on) }
  stop := fun h => h.transfer rfl rfl rfl rfl rfl
  vigil := fun law h => { h with vigil := fun _ => law }
  role := fun keeps h => { h with lines := fun on => keeps (h.lines on) }
  axle := fun _ h => h.transfer rfl rfl rfl rfl rfl
  moving := fun h => h.transfer rfl rfl rfl rfl rfl
  stopped := fun _ h => h.transfer rfl rfl rfl rfl rfl
  flagged := fun h => h.transfer rfl rfl rfl rfl rfl
  clock := fun h => h.transfer rfl rfl rfl rfl rfl
  pins := fun h => h.transfer rfl rfl rfl rfl rfl
  link := fun _ _ keeps h => { h with requests := fun on => keeps (h.requests on) }
  pending := fun h => h.transfer rfl rfl rfl rfl rfl
  settings := fun _ h => h.transfer rfl rfl rfl rfl rfl
  events := fun h => h.transfer rfl rfl rfl rfl rfl
  blocks := fun h => {
    sounds := fun _ => QueueLaw.atReset.sounds
    signals := fun _ => QueueLaw.atReset.signals
    requests := h.requests
    lines := fun _ => by simp [LineLaw, resetBlocks, TrainLines.atReset]
    vigil := fun _ => by simp [VigilLaw, resetBlocks, Vigilance.atReset] }
  restarted := fun h => { h with requests := fun _ => by simp [HostLink.afterFull, Config.maxRequests] }
  fresh := fun h => { h with requests := fun _ => by simp [HostLink.atReset] } }

/-- Settles O10: the queues, the lines and the timer by the coarse walk, the cancel queue and the HALT drive by their step walks. -/
theorem queuesLinesAndVigilanceStayLawful : Obligations.QueuesLinesAndVigilanceStayLawful := by
  refine ⟨fun s t law next => ?_, fun s t law next => ?_, fun s t law next => ?_, fun s t law next => ?_, fun s t law next => ?_⟩
  · have kept : PlacesKept True False False t :=
      step_keeps wholeWalk_places ⟨fun _ => law.sounds, fun _ => law.signals, fun _ => law.requests, False.elim, False.elim⟩ next
    exact ⟨kept.sounds trivial, kept.signals trivial, kept.requests trivial⟩
  · exact step_command stepWalk_cancel (fun h => h) law next
  · have kept : PlacesKept False True False t :=
      step_keeps wholeWalk_places ⟨False.elim, False.elim, False.elim, fun _ => law, False.elim⟩ next
    exact kept.lines trivial
  · exact step_command stepWalk_drive (fun h => h) law next
  · have kept : PlacesKept False False True t :=
      step_keeps wholeWalk_places ⟨False.elim, False.elim, False.elim, False.elim, fun _ => law⟩ next
    exact kept.vigil trivial

end Sys2Proof.Machine
end

section
/-! The factors and the bogie efforts over every step (R20, R42, R43, R49, R52). -/

namespace Sys2Proof.Machine

variable {s : State}

/-! ### Bogie efforts and factors -/

/-- A product of factors that are not negative, in per mille, is positive only with its first. -/
theorem scaled_pos {x y : Int} (scale : 0 ≤ y) (h : 0 < (x * y).tdiv 1000) : 0 < x := by
  by_contra low
  have product : x * y ≤ 0 := Int.mul_nonpos_of_nonpos_of_nonneg (by omega) scale
  have quotient : 0 ≤ (-(x * y)).tdiv 1000 := Int.tdiv_nonneg (by omega) (by decide)
  rw [Int.neg_tdiv] at quotient
  omega

/-- A bogie effort is positive only with E (R42, R43). -/
theorem bogieEffort_pos {e k power brake : Int} (factor : 0 ≤ k) (limits : 0 ≤ power ∧ 0 ≤ brake)
    (h : 0 < bogieEffort e k power brake) : 0 < e := by
  unfold bogieEffort at h
  dsimp only at h
  split at h
  next moves => exact scaled_pos factor moves
  next still => exact absurd (scaled_pos limits.2 h) still

/-- A bogie judged on its slip speed, if it is measured (R50, R52, R53). -/
def slipJudged (st : SettingsStore) (slip : Option Int) (s : State) (found : BogieState) : BogieState :=
  match slip with
  | some x => judgeSlip st s.now s.axle.refSpeed x found
  | none => found

/-- The bogie a step leaves (R49 to R54). -/
def steppedBogie (st : SettingsStore) (sign : Int) (i : Bogie) (s : State) : BogieState :=
  let found := signJudged sign s.adhesion.lastSign (s.adhesion.bogie i)
  if sign = 0 ∨ found.fault then found
  else
    let judged := slipJudged st (slipSpeed sign s i) s found
    if slipOverdue st s.now judged then judged.faulted st else judged

theorem Adhesion.bogie_setBogie (x : Adhesion) (i j : Bogie) (b : BogieState) :
    (x.setBogie i b).bogie j = if j = i then b else x.bogie j := by cases i <;> cases j <;> rfl

theorem raiseAdhesionFault_bogie (st : SettingsStore) (i j : Bogie) (x : Option Int) (s : State) :
    (raiseAdhesionFault st i x s).adhesion.bogie j = if j = i then (s.adhesion.bogie i).faulted st else s.adhesion.bogie j := by
  unfold raiseAdhesionFault
  split <;> simp [Adhesion.bogie_setBogie]

theorem stepBogie_eq (st : SettingsStore) (sign : Int) (i : Bogie) (s : State) : stepBogie st sign i s =
    let found := signJudged sign s.adhesion.lastSign (s.adhesion.bogie i)
    let judged := slipJudged st (slipSpeed sign s i) s found
    if sign = 0 ∨ found.fault then s.setAdhesion (s.adhesion.setBogie i found)
    else if slipOverdue st s.now judged then
      raiseAdhesionFault st i (slipSpeed sign s i) (s.setAdhesion (s.adhesion.setBogie i judged))
    else s.setAdhesion (s.adhesion.setBogie i judged) := rfl

theorem stepBogie_bogie (st : SettingsStore) (sign : Int) (i j : Bogie) (s : State) :
    (stepBogie st sign i s).adhesion.bogie j = if j = i then steppedBogie st sign i s else s.adhesion.bogie j := by
  rw [stepBogie_eq]
  unfold steppedBogie
  dsimp only
  split
  · exact Adhesion.bogie_setBogie _ _ _ _
  · split
    · rw [raiseAdhesionFault_bogie, State.setAdhesion_adhesion, Adhesion.bogie_setBogie, Adhesion.bogie_setBogie, if_pos rfl]
      split <;> rfl
    · exact Adhesion.bogie_setBogie _ _ _ _

/-- The factor lies between the lowest factor and 1000 (R52). -/
def BogieState.Fits (low : Int) (b : BogieState) : Prop := low ≤ b.k ∧ b.k ≤ 1000

theorem cutFactor_fits {st : SettingsStore} (law : SettingsLaw st) {k : Int} (high : k ≤ 1000) :
    st.value Setting.kMin ≤ cutFactor st k ∧ cutFactor st k ≤ 1000 := by
  have low := law.value_fits (n := Setting.kMin) rfl
  have cut := law.value_fits (n := Setting.cutStep) rfl
  simp only at low cut
  unfold cutFactor; omega

theorem judgeSlip_fits {st : SettingsStore} (law : SettingsLaw st) {now : Nat} {v x : Int} {b : BogieState}
    (h : b.Fits (st.value Setting.kMin)) : (judgeSlip st now v x b).Fits (st.value Setting.kMin) := by
  have step := law.value_fits (n := Setting.recoveryStep) rfl
  have cut := cutFactor_fits law h.2
  obtain ⟨low, high⟩ := h
  simp only at step
  unfold judgeSlip
  dsimp only
  split
  · split
    · exact cut
    · exact ⟨low, high⟩
  · split
    · exact cut
    · split
      · exact ⟨low, high⟩
      · exact ⟨low, high⟩
  · split
    · exact cut
    · exact ⟨by dsimp only; omega, by dsimp only; omega⟩

/-- A step keeps the factor in its range (R52, R54). -/
theorem steppedBogie_fits {st : SettingsStore} (law : SettingsLaw st) {sign : Int} {i : Bogie}
    (h : (s.adhesion.bogie i).Fits (st.value Setting.kMin)) : (steppedBogie st sign i s).Fits (st.value Setting.kMin) := by
  have low := law.value_fits (n := Setting.kMin) rfl
  simp only at low
  have found : (signJudged sign s.adhesion.lastSign (s.adhesion.bogie i)).Fits (st.value Setting.kMin) := by
    unfold signJudged; split
    · exact ⟨low.2.trans (by decide), le_rfl⟩
    · exact h
  have faulted : ∀ b : BogieState, (b.faulted st).Fits (st.value Setting.kMin) := fun _ => ⟨le_rfl, low.2.trans (by decide)⟩
  unfold steppedBogie
  dsimp only
  split
  · exact found
  · split
    · exact faulted _
    · unfold slipJudged; split
      · exact judgeSlip_fits law found
      · exact found

/-- Without effort a bogie is at rest (R49). -/
theorem steppedBogie_rest (st : SettingsStore) (i : Bogie) (s : State) : steppedBogie st 0 i s = .adhering := by
  simp [steppedBogie, signJudged]

/-- Sand and the sign recorded leave the bogies as the step has made them (R48, R55, R56). -/
theorem adhesionStep_bogie (st : SettingsStore) (s : State) (i : Bogie) : (adhesionStep st s).adhesion.bogie i =
    (stepBogie st s.traction.effort.sign .b (stepBogie st s.traction.effort.sign .a s)).adhesion.bogie i := by
  have sand : ∀ u : State, (judgeSand st u).adhesion.bogie i = u.adhesion.bogie i := fun u => by
    unfold judgeSand; split
    · split <;> cases i <;> rfl
    · split <;> cases i <;> rfl
    · rfl
  have noted : ∀ u : State, (noteSand u).adhesion.bogie i = u.adhesion.bogie i := fun u => by cases i <;> rfl
  unfold adhesionStep
  dsimp only
  rw [noted, sand]
  cases i <;> rfl

/-- After the adhesion step the factors are in range (R52). -/
theorem adhesionStep_fits {st : SettingsStore} (law : SettingsLaw st)
    (h : ∀ i, (s.adhesion.bogie i).Fits (st.value Setting.kMin)) (i : Bogie) :
    ((adhesionStep st s).adhesion.bogie i).Fits (st.value Setting.kMin) := by
  have first : ∀ i, ((stepBogie st s.traction.effort.sign .a s).adhesion.bogie i).Fits (st.value Setting.kMin) := fun i => by
    rw [stepBogie_bogie]; split
    · exact steppedBogie_fits law (h _)
    · exact h i
  rw [adhesionStep_bogie, stepBogie_bogie]
  split
  · exact steppedBogie_fits law (first _)
  · exact first i

/-- Without effort both bogies are at rest after the step (R49). -/
theorem adhesionStep_rest {st : SettingsStore} (still : s.traction.effort = 0) (i : Bogie) :
    (adhesionStep st s).adhesion.bogie i = .adhering := by
  rw [adhesionStep_bogie, still, stepBogie_bogie, stepBogie_bogie, Int.sign_zero, steppedBogie_rest, steppedBogie_rest]
  cases i <;> rfl

/-! ### The law of the bogies, primitive by primitive -/

/-- The settings in range, the law of the bogies, and, where one is asked for, a value that k_min keeps. -/
structure BogieKept (low : Option Int) (s : State) : Prop where
  settings : SettingsLaw s.settings
  bogies : BogieLaw s
  low : ∀ v, low = some v → s.cfg Setting.kMin = v

variable {low : Option Int}

/-- The law of the bogies reads the settings, the limits and the efforts, and the bogies. -/
theorem BogieKept.transfer {s t : State} (h : BogieKept low s) (settings : t.settings = s.settings)
    (traction : s.traction.SameEffort t.traction) (bogies : ∀ i, t.adhesion.bogie i = s.adhesion.bogie i) : BogieKept low t where
  settings := settings ▸ h.settings
  bogies := {
    limits := by rw [traction.powerLimit, traction.brakeLimit]; exact h.bogies.limits
    factors := fun i => by unfold State.cfg; rw [settings, bogies]; exact h.bogies.factors i
    rest := fun released i => by rw [bogies]; exact h.bogies.rest (settings ▸ released) i
    held := by rw [settings]; exact h.bogies.held
    share := by rw [traction.effort, traction.effortA, traction.effortB]; exact h.bogies.share }
  low := fun v e => by unfold State.cfg; rw [settings]; exact h.low v e

theorem Traction.SameEffort.refl (a : Traction) : a.SameEffort a := ⟨rfl, rfl, rfl, rfl, rfl⟩

/-- Another traction unit under the same limits, its bogie efforts positive only with E. -/
theorem BogieKept.power {t : Traction} (h : BogieKept low s) (power : t.powerLimit = s.traction.powerLimit)
    (brake : t.brakeLimit = s.traction.brakeLimit) (share : 0 < t.effortA ∨ 0 < t.effortB → 0 < t.effort) :
    BogieKept low (s.setTraction t) :=
  { h with bogies := { h.bogies with
      limits := by rw [State.setTraction_traction, power, brake]; exact h.bogies.limits
      share := share } }

/-- A judged lock of another group than G2. -/
theorem BogieKept.lock {g : Group} (other : g ≠ .g2) {b : Bool} (h : BogieKept low s) : BogieKept low (judgeLock g b s) := by
  have value : (judgeLock g b s).cfg Setting.kMin = s.cfg Setting.kMin :=
    judgeLock_value b s (by revert other; cases g <;> decide)
  have locked : (judgeLock g b s).settings.locked.g2 = s.settings.locked.g2 := by
    rw [judgeLock_locked]; cases g <;> first | rfl | exact absurd rfl other
  exact {
    settings := judgeLock_settings h.settings
    bogies := {
      limits := by rw [judgeLock_traction]; exact h.bogies.limits
      factors := fun i => by rw [value, judgeLock_adhesion]; exact h.bogies.factors i
      rest := fun released i => by
        rw [judgeLock_adhesion]; rw [judgeLock_effortHeld] at released; exact h.bogies.rest released i
      held := by rw [judgeLock_effortHeld, locked]; exact h.bogies.held
      share := by rw [judgeLock_traction]; exact h.bogies.share }
    low := fun v e => value.trans (h.low v e) }

/-- G2 judged LOCKED keeps its values (R165, R168). -/
theorem effortLocked_value (s : State) (n : Nat) : (judgeLock .g2 true s).cfg n = s.cfg n := by
  unfold State.cfg SettingsStore.value
  rw [(judgeLock_values _ _ _).2]
  simp

/-- G2 judged on an E that is not 0 (R165). -/
theorem BogieKept.hold {t : State} (h : BogieKept low s) (settings : SettingsLaw t.settings)
    (value : t.cfg Setting.kMin = s.cfg Setting.kMin) (on : t.settings.effortHeld = true) (traction : t.traction = s.traction)
    (adhesion : t.adhesion = s.adhesion) : BogieKept low (judgeLock .g2 true t) where
  settings := judgeLock_settings settings
  bogies := {
    limits := by rw [judgeLock_traction, traction]; exact h.bogies.limits
    factors := fun i => by rw [judgeLock_adhesion, effortLocked_value, adhesion, value]; exact h.bogies.factors i
    rest := fun released => by rw [judgeLock_effortHeld, on] at released; cases released
    held := fun _ => by rw [judgeLock_locked]; rfl
    share := by rw [judgeLock_traction, traction]; exact h.bogies.share }
  low := fun v e => (effortLocked_value _ _).trans (value.trans (h.low v e))

theorem BogieLaw.factor_nonneg (law : SettingsLaw s.settings) (bogies : BogieLaw s) (i : Bogie) : 0 ≤ (s.adhesion.bogie i).k := by
  have fits : (100 : Int) ≤ s.cfg Setting.kMin := (law.value_fits (n := Setting.kMin) rfl).1
  have := (bogies.factors i).1
  omega

/-- BREACH brakes both bogies: neither effort is positive, and G2 is LOCKED (R41, R165). -/
theorem BogieKept.brake (h : BogieKept low s) : BogieKept low (breachBraking s) := by
  have braked : ∀ i, ¬0 < bogieEffort (-1000) (s.adhesion.bogie i).k s.traction.powerLimit s.traction.brakeLimit :=
    fun i positive => absurd (bogieEffort_pos (h.bogies.factor_nonneg h.settings i) h.bogies.limits positive) (by decide)
  have shared : BogieKept low
      (s.setTraction (writeLines (shareEffort (s.setTraction { s.traction with effort := -1000 })).traction)) := by
    rw [writeLines_eq]
    exact h.power rfl rfl fun positive => (positive.elim (braked .a) (braked .b)).elim
  rw [breachBraking_eq]
  exact shared.hold ⟨h.settings.effective, h.settings.pending, h.settings.held⟩ rfl rfl rfl rfl

theorem toneWalk_bogies : ToneWalk (BogieKept low) where
  note := fun {s k j v} _ h => BogieKept.transfer h rfl (by rw [raise_traction]; exact .refl _) fun _ => by rw [raise_adhesion]
  sounding := fun h => h.lock (by decide)
  sound := fun _ h => h.transfer rfl (.refl _) fun _ => rfl

theorem BogieKept.raise {k j : Nat} {v : Int} (h : BogieKept low s) : BogieKept low (Machine.raise k j v s) :=
  h.transfer rfl (by rw [raise_traction]; exact .refl _) fun _ => by rw [raise_adhesion]

/-- A closing gate takes the bogie efforts with E (R20). -/
theorem closeGate_share {t : Traction} (share : 0 < t.effortA ∨ 0 < t.effortB → 0 < t.effort) :
    0 < (closeGate t).effortA ∨ 0 < (closeGate t).effortB → 0 < (closeGate t).effort := by
  by_cases power : 0 < t.effort
  · rw [closeGate_power power, writeLines_eq]; simp
  · rw [closeGate_still (by omega)]; exact share

theorem Traction.SameSetup.limits {a b : Traction} (h : a.SameSetup b) : b.powerLimit = a.powerLimit ∧ b.brakeLimit = a.brakeLimit := by
  unfold Traction.SameSetup at h; rw [h]; exact ⟨rfl, rfl⟩

theorem BogieKept.latch {c : Cause} (h : BogieKept low s) : BogieKept low (setLatch c s) := by
  have share : 0 < s.traction.halted.effortA ∨ 0 < s.traction.halted.effortB → 0 < s.traction.halted.effort := by
    unfold Traction.halted; split
    · exact closeGate_share h.bogies.share
    · exact h.bogies.share
  have halted : BogieKept low (s.setTraction s.traction.halted) :=
    h.power s.traction.halted_setup.limits.1 s.traction.halted_setup.limits.2 share
  rw [setLatch_eq]
  exact askFor_event toneWalk_bogies (BogieKept.raise (halted.transfer rfl (.refl _) fun _ => rfl))

theorem BogieKept.join {cs : List Cause} (h : BogieKept low s) : BogieKept low (joinCauses cs s) := by
  rcases joinCauses_cases cs s with ⟨same, -⟩ | ⟨first, c, -, -, -, joined⟩
  · rw [same]; exact h
  · have latched : BogieKept low (if s.halt.latch.isNone then setLatch first s else s) := by
      split
      · exact h.latch
      · exact h
    have present := latched.transfer (t := (if s.halt.latch.isNone then setLatch first s else s).causing c) rfl (.refl _) fun _ => rfl
    rw [joined]
    dsimp only
    split
    · exact present.brake
    · exact present

theorem BogieKept.sense (h : BogieKept low s) : BogieKept low (senseHalt s) := by
  unfold senseHalt; split
  · exact h.join
  · exact h.transfer rfl (.refl _) fun _ => rfl

theorem BogieKept.drive (h : BogieKept low s) : BogieKept low (judgeDrive s) := by
  rcases judgeDrive_cases s with ⟨-, e⟩ | ⟨-, -, e⟩ | ⟨-, -, e⟩
  · rw [e]; exact h
  · rw [e]; exact h.transfer rfl (.refl _) fun _ => rfl
  · rw [e]; exact (h.transfer (t := s.setLines { s.lines with halting := false }) rfl (.refl _) fun _ => rfl).sense

theorem BogieKept.inhibit (h : BogieKept low s) : BogieKept low (enterInhibited s) := by
  have setup := closeGate_setup { s.traction with state := .inhibited }
  unfold enterInhibited; split
  · exact h.power setup.limits.1 setup.limits.2 (closeGate_share h.bogies.share)
  · exact h.transfer rfl ⟨rfl, rfl, rfl, rfl, rfl⟩ fun _ => rfl
  · exact h

theorem commandWalk_bogies : CommandWalk (BogieKept low) where
  raise := fun _ h => h.raise
  lock := fun other h => h.lock (by rcases other with rfl | rfl | rfl <;> decide)
  sound := fun h => h.transfer rfl (.refl _) fun _ => rfl
  add := fun h => h.join.drive
  remove := fun {s cs} h => (h.transfer (t := dropCauses cs s) rfl (.refl _) fun _ => rfl).drive
  sand := fun {s} h => by
    unfold releaseSand; split
    · exact h.transfer rfl (.refl _) fun i => by cases i <;> rfl
    · exact h
  junction := fun _ h => h.transfer rfl (.refl _) fun _ => rfl
  vigil := fun h => h.transfer rfl (.refl _) fun _ => rfl
  tweak := fun same h => h.transfer rfl same fun _ => rfl
  inhibit := fun h => h.inhibit
  halt := fun _ h => h.transfer rfl (.refl _) fun _ => rfl
  lines := fun _ h => h.transfer rfl (.refl _) fun _ => rfl
  sense := fun h => h.sense
  groups := fun {s} h => by
    have judged : BogieKept low (judgeLock .g6 (!s.axle.standstill) (judgeLock .g1 (!s.axle.standstill)
      (judgeLock .g0 (!s.axle.standstill) s))) := ((h.lock (by decide)).lock (by decide)).lock (by decide)
    exact ite_at (fun _ => judged) fun _ => judged.drive
  axle := fun h => h.transfer rfl (.refl _) fun _ => rfl
  stop := fun h => h.transfer rfl (.refl _) fun _ => rfl
  place := fun h => h.transfer rfl (.refl _) fun _ => rfl
  sandState := fun h => h.transfer rfl (.refl _) fun i => by cases i <;> rfl
  clock := fun h => h.transfer rfl (.refl _) fun _ => rfl
  pins := fun h => h.transfer rfl (.refl _) fun _ => rfl
  host := fun h => h.transfer rfl (.refl _) fun _ => rfl

/-! ### Values of G2 -/

/-- With E judged to be 0, k_min may take any value of its range (R49, R165). -/
theorem BogieKept.released {t : State} (h : BogieKept none s) (still : s.settings.effortHeld = false)
    (settings : SettingsLaw t.settings) (judged : t.settings.effortHeld = false) (traction : t.traction = s.traction)
    (adhesion : t.adhesion = s.adhesion) : BogieKept none t where
  settings := settings
  bogies := {
    limits := traction ▸ h.bogies.limits
    factors := fun i => by
      have fits : t.cfg Setting.kMin ≤ 800 := (settings.value_fits (n := Setting.kMin) rfl).2
      rw [adhesion, h.bogies.rest still i]
      exact ⟨fits.trans (by decide), le_rfl⟩
    rest := fun _ i => by rw [adhesion]; exact h.bogies.rest still i
    held := fun on => by rw [judged] at on; cases on
    share := traction ▸ h.bogies.share }
  low := fun v e => by cases e

/-- Other settings, with k_min, E's judgement and the lock of G2 as they were. -/
theorem BogieKept.store {st : SettingsStore} (h : BogieKept low s) (settings : SettingsLaw st)
    (value : st.value Setting.kMin = s.cfg Setting.kMin) (held : st.effortHeld = s.settings.effortHeld)
    (locked : st.locked.g2 = s.settings.locked.g2) : BogieKept low (s.setSettings st) where
  settings := settings
  bogies := { h.bogies with
    factors := fun i => (show st.value Setting.kMin ≤ _ ∧ _ by rw [value]; exact h.bogies.factors i)
    rest := fun still => h.bogies.rest (held ▸ still)
    held := fun on => locked.trans (h.bogies.held (held ▸ on)) }
  low := fun v e => value.trans (h.low v e)

/-- A value set, or made pending, in its range (R166). -/
theorem BogieKept.value {g : Group} {n : Nat} {v : Int} (group : groupOf n = some g) (allowed : settingAllows n v = true)
    (h : BogieKept none s) : BogieKept none (takeValue g n v s) := by
  unfold takeValue
  split
  next locked => exact h.store (h.settings.setPending allowed group locked) rfl rfl rfl
  next unlocked =>
    have settings := h.settings.setEffective allowed
    by_cases own : g = .g2
    · subst own
      have still : s.settings.effortHeld = false := by
        by_contra on
        exact unlocked (h.bogies.held (by simpa using on))
      exact h.released still settings still rfl rfl
    · refine takeUp_command commandWalk_bogies (fun h => BogieKept.drive h) (h.store settings (setValue_other ?_ s) rfl rfl)
      rintro rfl
      exact own (Option.some.inj (group.symm.trans (by decide)))

/-- A freeze flag set or cleared, and its group judged (R170). -/
theorem BogieKept.freeze {g : Group} {b : Bool} (h : BogieKept none s) : BogieKept none (setFreeze g b s) := by
  have flagged : BogieKept none (s.setSettings { s.settings with frozen := s.settings.frozen.put g b }) :=
    h.store ⟨h.settings.effective, h.settings.pending, h.settings.held⟩ rfl rfl rfl
  refine takeUp_command commandWalk_bogies (fun h => BogieKept.drive h) (?_ : BogieKept none _)
  by_cases own : g = .g2
  · subst own
    by_cases still : s.settings.effortHeld = false
    · exact flagged.released still (judgeLock_settings flagged.settings) (by rw [judgeLock_effortHeld]; exact still)
        (judgeLock_traction _ _ _) (judgeLock_adhesion _ _ _)
    · have on : s.settings.effortHeld = true := by simpa using still
      rw [show lockHeld (s.setSettings { s.settings with frozen := s.settings.frozen.put .g2 b }) .g2 = true from on]
      exact flagged.hold flagged.settings rfl on rfl rfl
  · exact flagged.lock own

/-! ### The pass -/

theorem stageWalk_bogies : StageWalk (BogieKept low) where
  toToneWalk := toneWalk_bogies
  raise := fun _ _ h => h.raise
  start := fun _ h => h.transfer rfl ⟨rfl, rfl, rfl, rfl, rfl⟩ fun _ => rfl
  read := fun h => h.transfer rfl ⟨rfl, rfl, rfl, rfl, rfl⟩ fun _ => rfl
  lose := fun h => commandWalk_bogies.add h
  remove := fun h => commandWalk_bogies.remove h
  ack := fun h => h.transfer rfl (.refl _) fun _ => rfl
  release := fun _ _ h => h.transfer rfl ⟨rfl, rfl, rfl, rfl, rfl⟩ fun _ => rfl
  pulse := fun h => h.transfer rfl (.refl _) fun _ => rfl

theorem exitWalk_bogies : ExitWalk (BogieKept low) where
  leave := fun _ _ h => h.transfer rfl ⟨rfl, rfl, rfl, rfl, rfl⟩ fun _ => rfl
  start := fun _ h => h.transfer rfl ⟨rfl, rfl, rfl, rfl, rfl⟩ fun _ => rfl
  spend := fun h => h.transfer rfl (.refl _) fun _ => rfl

theorem takeDirection_bogies {st : SettingsStore} {p : Position} (h : BogieKept low s) : BogieKept low (takeDirection st p s) := by
  have turned : ∀ t : State, t.settings = s.settings → s.traction.SameEffort t.traction → t.adhesion = s.adhesion → BogieKept low t :=
    fun t settings traction adhesion => h.transfer settings traction fun _ => by rw [adhesion]
  exact ite_at (P := BogieKept low) (fun _ => BogieKept.inhibit (turned _ rfl ⟨rfl, rfl, rfl, rfl, rfl⟩ rfl))
    fun _ => turned _ rfl ⟨rfl, rfl, rfl, rfl, rfl⟩ rfl

theorem judgeDirection_bogies {st : SettingsStore} (h : BogieKept low s) : BogieKept low (judgeDirection st s) :=
  ite_at (P := BogieKept low) (fun _ => h.transfer rfl ⟨rfl, rfl, rfl, rfl, rfl⟩ fun _ => rfl) fun _ =>
    ite_at (fun _ => h) fun _ => ite_at (fun _ => takeDirection_bogies h) fun _ =>
      BogieKept.raise (s := s.setTraction _) (h.transfer rfl ⟨rfl, rfl, rfl, rfl, rfl⟩ fun _ => rfl)

theorem takeLimits_bogies (h : BogieKept low s) : BogieKept low (takeLimits s) :=
  { h with bogies := { h.bogies with
      limits := ⟨le_trans (by decide) (h.settings.value_fits (n := Setting.powerLimit) rfl).1,
        le_trans (by decide) (h.settings.value_fits (n := Setting.brakeLimit) rfl).1⟩ } }

theorem judgeOverspeed_bogies {st : SettingsStore} (h : BogieKept low s) : BogieKept low (judgeOverspeed st s) := by
  have setup := closeGate_setup { s.traction with ceilingInUse := s.route.ceiling, overspeed := true }
  unfold judgeOverspeed
  dsimp only
  split
  · exact h.transfer rfl ⟨rfl, rfl, rfl, rfl, rfl⟩ fun _ => rfl
  · split
    · split
      · exact h.power setup.limits.1 setup.limits.2 (closeGate_share h.bogies.share)
      · exact h.transfer rfl ⟨rfl, rfl, rfl, rfl, rfl⟩ fun _ => rfl
    · exact h.transfer rfl ⟨rfl, rfl, rfl, rfl, rfl⟩ fun _ => rfl

/-- What stage 4 leaves of the settings: G2 judged on E, its values kept while E is not 0 (R165). -/
theorem judgeEffort_settings (law : SettingsLaw s.settings) :
    SettingsLaw (judgeEffort s).settings ∧ (judgeEffort s).settings.effortHeld = decide (s.traction.effort ≠ 0) ∧
    ((judgeEffort s).settings.effortHeld = true → (judgeEffort s).settings.locked.g2 = true) ∧
    (s.traction.effort ≠ 0 → (judgeEffort s).cfg Setting.kMin = s.cfg Setting.kMin) := by
  unfold judgeEffort
  dsimp only
  refine ⟨judgeLock_settings ⟨law.effective, law.pending, law.held⟩, by rw [judgeLock_effortHeld]; rfl, fun on => ?_, fun moves => ?_⟩
  · rw [judgeLock_effortHeld] at on
    rw [judgeLock_locked]
    exact Bool.or_eq_true_iff.2 (.inl on)
  · rw [decide_eq_true moves, effortLocked_value]; rfl

/-- A pass that moves E from `u`, judges it, steps the adhesion section and shares E by the factors it finds leaves the law of the
bogies (R42, R43, R49, R52). -/
theorem BogieKept.shared {st : SettingsStore} {u t : State} {e : Int} (law : SettingsLaw st)
    (third : BogieKept (some (st.value Setting.kMin)) u)
    (settings : t.settings = (judgeEffort (u.setTraction { u.traction with effort := e })).settings)
    (adhesion : t.adhesion = (adhesionStep st (judgeEffort (u.setTraction { u.traction with effort := e }))).adhesion)
    (traction : t.traction.powerLimit = u.traction.powerLimit ∧ t.traction.brakeLimit = u.traction.brakeLimit ∧
      t.traction.effort = e ∧
      t.traction.effortA = bogieEffort e (t.adhesion.bogie .a).k u.traction.powerLimit u.traction.brakeLimit ∧
      t.traction.effortB = bogieEffort e (t.adhesion.bogie .b).k u.traction.powerLimit u.traction.brakeLimit) : BogieKept none t := by
  obtain ⟨power, brake, effort, effortA, effortB⟩ := traction
  obtain ⟨settingsLaw, judged, held, kept⟩ := judgeEffort_settings (s := u.setTraction { u.traction with effort := e }) third.settings
  have moved : (judgeEffort (u.setTraction { u.traction with effort := e })).traction.effort = e := by
    unfold judgeEffort; rw [judgeLock_traction]; rfl
  have start : ∀ i, ((judgeEffort (u.setTraction { u.traction with effort := e })).adhesion.bogie i).Fits (st.value Setting.kMin) :=
    fun i => by rw [judgeEffort_adhesion, ← third.low _ rfl]; exact third.bogies.factors i
  have low : t.cfg Setting.kMin ≤ 800 := (SettingsLaw.value_fits (settings ▸ settingsLaw) (n := Setting.kMin) rfl).2
  have fits : ∀ i, t.cfg Setting.kMin ≤ (t.adhesion.bogie i).k ∧ (t.adhesion.bogie i).k ≤ 1000 := fun i => by
    by_cases still : e = 0
    · rw [adhesion, adhesionStep_rest (moved.trans still)]
      exact ⟨low.trans (by decide), le_rfl⟩
    · have same : t.cfg Setting.kMin = st.value Setting.kMin := by
        unfold State.cfg; rw [settings]; exact (kept still).trans (third.low _ rfl)
      rw [same, adhesion]
      exact adhesionStep_fits law start i
  have factor : ∀ i, 0 ≤ (t.adhesion.bogie i).k := fun i => by
    have range := st.value Setting.kMin
    have := (SettingsLaw.value_fits (settings ▸ settingsLaw : SettingsLaw t.settings) (n := Setting.kMin) rfl).1
    exact le_trans (le_trans (by decide) this) (fits i).1
  exact {
    settings := settings ▸ settingsLaw
    bogies := {
      limits := by rw [power, brake]; exact third.bogies.limits
      factors := fits
      rest := fun released i => by
        rw [settings, judged] at released
        rw [adhesion, adhesionStep_rest (moved.trans (not_not.1 (of_decide_eq_false released)))]
      held := by rw [settings]; exact held
      share := by
        rw [effort, effortA, effortB]
        exact fun positive => positive.elim (bogieEffort_pos (factor .a) third.bogies.limits)
          (bogieEffort_pos (factor .b) third.bogies.limits) }
    low := fun v none => by cases none }

theorem laterStages_bogies {st : SettingsStore} {h1 : Int} (law : SettingsLaw st)
    (h : BogieKept (some (st.value Setting.kMin)) s) : BogieKept none (laterStages st h1 s) := by
  have third : BogieKept (some (st.value Setting.kMin)) (judgeRollback st (judgeOverspeed st s)) :=
    ite_at (fun _ => commandWalk_bogies.add (judgeOverspeed_bogies h)) fun _ => judgeOverspeed_bogies h
  unfold laterStages
  dsimp only
  generalize judgeRollback st (judgeOverspeed st s) = u at third
  obtain ⟨e, moved⟩ : ∃ e, moveEffort st (gateDemand h1 s) u = judgeEffort (u.setTraction { u.traction with effort := e }) := ⟨_, rfl⟩
  rw [moved]
  refine third.shared law (writeOutputs_settings _ _ |>.trans (adhesionStep_settings _ _)) (writeOutputs_adhesion _ _) ?_
  have effort : (judgeEffort (u.setTraction { u.traction with effort := e })).traction = { u.traction with effort := e } := by
    unfold judgeEffort; rw [judgeLock_traction]; rfl
  rw [writeOutputs_traction, writeLines_eq, writeOutputs_adhesion]
  simp only [shareEffort, State.setTraction_traction, adhesionStep_traction, effort]
  exact ⟨trivial, trivial, trivial, rfl, rfl⟩

theorem stampPass_bogies {n : Nat} (h : BogieKept low s) : BogieKept low (s.setTraction { s.traction with passDue := n }) :=
  h.transfer rfl ⟨rfl, rfl, rfl, rfl, rfl⟩ fun _ => rfl

theorem effortPass_bogies (h : BogieKept none s) : BogieKept none (effortPass s) := by
  have start : BogieKept (some (s.settings.value Setting.kMin)) s := ⟨h.settings, h.bogies, fun v e => Option.some.inj e⟩
  exact stampPass_bogies (laterStages_bogies h.settings (stageOne_stage stageWalk_bogies (judgeExit_exit exitWalk_bogies
    (judgeDirection_bogies (takeLimits_bogies start)))))

/-! ### Every step -/

theorem stepWalk_bogies : StepWalk (BogieKept none) where
  toCommandWalk := commandWalk_bogies
  reset := fun {s} _ => {
    settings := PowerLaw.atReset.settings
    bogies := {
      limits := BogieLaw.atReset.limits
      factors := BogieLaw.atReset.factors
      rest := BogieLaw.atReset.rest
      held := BogieLaw.atReset.held
      share := BogieLaw.atReset.share }
    low := fun v e => by cases e }
  value := fun group allowed h => h.value group allowed
  freeze := fun h => h.freeze
  pass := fun h => effortPass_bogies h
  fault := fun {s i x} slips h => by
    have held : s.settings.effortHeld = true := by
      by_contra released
      rw [h.bogies.rest (by simpa using released) i] at slips
      cases slips
    have low : s.cfg Setting.kMin ≤ 800 := (h.settings.value_fits (n := Setting.kMin) rfl).2
    have marked : ∀ n, BogieKept none
        ((s.setAdhesion (s.adhesion.setBogie i ((s.adhesion.bogie i).faulted s.settings))).setFreeCount n) := fun n =>
      { h with
        bogies := { h.bogies with
          factors := fun j => by
            rw [State.setFreeCount_adhesion, State.setAdhesion_adhesion, Adhesion.bogie_setBogie]
            split
            · exact ⟨le_rfl, low.trans (by decide)⟩
            · exact h.bogies.factors j
          rest := fun released => absurd (show s.settings.effortHeld = false from released) (by simp [held]) }
        low := nofun }
    unfold raiseAdhesionFault
    split
    · exact BogieKept.raise (marked s.freeCount)
    · exact BogieKept.raise (marked _)

/-- Settles O6: the law of power by the coarse walk, the law of the bogies by a step walk, and both together for a unit with power. -/
theorem noPowerThroughClosedGate : Obligations.NoPowerThroughClosedGate := by
  refine ⟨fun s t law next => step_keeps wholeWalk_power law next, fun s t power bogies next => ?_, fun s power bogies moves => ?_⟩
  · have kept : BogieKept none t :=
      step_command stepWalk_bogies (fun h => h.transfer rfl (.refl _) fun _ => rfl) ⟨power.settings, bogies, nofun⟩ next
    exact kept.bogies
  · obtain ⟨running, slow⟩ := power.gate (bogies.share moves)
    refine ⟨running, slow, Option.isNone_iff_eq_none.1 ?_⟩
    simpa [Option.isSome_iff_ne_none] using power.halt.clear (by simp [running])

end Sys2Proof.Machine
end

section
/-! The timers of the traction unit at their expiries (R28, R31, R32). -/

namespace Sys2Proof.Machine

variable {s : State}

theorem atExpiry_some {timer : Option Nat} {f : State → State} {n : Nat} (runs : timer = some n) :
    atExpiry timer f s = f (s.reach n) := by rw [runs]; rfl

/-- A latch that set from `s` at a later time has set from `s`. -/
theorem Latches.reached {first : Cause} {n : Nat} {t : State} (h : Latches first (s.setNow n) t) (now : t.now = n) :
    HaltLatched first s t where
  record := by rw [now]; exact h.latch
  told := h.recorded.told
  warned := by rw [h.sound, now]

theorem Latches.raise {first : Cause} {k j : Nat} {v : Int} {t : State} (other : k ≠ 30) (h : Latches first s t) :
    Latches first s (Machine.raise k j v t) where
  latch := by rw [raise_halt]; exact h.latch
  run := by rw [raise_halt]; exact h.run
  state := by rw [raise_traction]; exact h.state
  retained := by rw [raise_lines]; exact h.retained
  sound := by rw [raise_sound]; exact h.sound
  recorded := h.recorded.raise other

/-- DEMAND LOST takes a clear latch as its first cause, and leaves a set one (R32, R62). -/
theorem loseDemand_latches (absent : s.halt.causes.demandLost = false) :
    (loseDemand s).halt.causes.demandLost = true ∧ (s.halt.latch = none → Latches .demandLost s (loseDemand s)) ∧
    ∀ r, s.halt.latch = some r → (loseDemand s).halt.latch = some r := by
  unfold loseDemand
  refine ⟨?_, fun clear => ?_, fun r set => ?_⟩
  · rw [raise_halt]; exact (addCauses_has (y := .demandLost) (by decide) _ _).trans (by simp)
  · exact (addCauses_latches (List.mem_singleton_self Cause.demandLost) clear absent (by simp)).raise (by decide)
  · rw [raise_halt]; exact (addCauses_latched set).1

/-- Settles O34: each expiry read off its timer; DEMAND LOST by the rule of a cause that joins. -/
theorem effortTimersAct : Obligations.EffortTimersAct := by
  refine fun s => ⟨fun x runs => ?_, fun x lead runs => ?_, fun x lead fresh runs => ?_, fun marked => ?_, fun x trail absent runs => ?_⟩
  · exact congrArg _ (atExpiry_some runs)
  · have since : (invalidSince s).map (· + 200) = some (x + 200) := by simp [invalidSince, lead, runs]
    exact congrArg _ (atExpiry_some since)
  · have since : (invalidSince s).map (· + 1000) = some (x + 1000) := by simp [invalidSince, lead, runs]
    exact congrArg _ ((if_neg (by simp [fresh])).trans (atExpiry_some since))
  · exact congrArg _ (if_pos marked)
  · have since : (demandLossSince s).map (· + 100) = some (x + 100) := by simp [demandLossSince, trail, absent, runs]
    obtain ⟨present, latches, keeps⟩ := loseDemand_latches (s := s.reach (x + 100)) absent
    have now : (loseDemand (s.reach (x + 100))).now = max s.now (x + 100) := by simp [loseDemand, State.reach]
    refine ⟨loseDemand (s.reach (x + 100)), congrArg Host.Outcome.next (atExpiry_some since), present, ?_, fun clear => (latches clear).reached now, keeps,
      (raise_recorded _ _ _ _).told, now, ?_⟩
    · cases set : s.halt.latch with
      | none => rw [(latches set).latch]; rfl
      | some r => rw [keeps r set]; rfl
    · simp [loseDemand, State.reach]

end Sys2Proof.Machine
end

section
/-! The halt latch at causes that are not BREACH, on any latch (R20, R24, R62, R63, R75): it stays, or it sets. -/

namespace Sys2Proof.Machine

variable {s t u : State}

/-- E once the unit is HALTED (R20). -/
theorem Traction.halted_effort_eq (x : Traction) : x.halted.effort = if x.state = .running ∧ 0 < x.effort then 0 else x.effort := by
  split
  next power => rw [Traction.halted_power power.1 power.2]
  next still =>
    rw [Traction.halted_still]
    by_cases moving : x.state = .running
    · exact .inr (not_lt.1 fun power => still ⟨moving, power⟩)
    · exact .inl moving

/-- What the setting of the latch reads is the same. -/
structure LatchAlike (s u : State) : Prop where
  now : u.now = s.now
  distance : u.route.distance = s.route.distance
  speed : u.axle.refSpeed = s.axle.refSpeed
  flag : u.axle.standstill = s.axle.standstill
  latch : u.halt.latch = s.halt.latch
  run : u.halt.ackRun = s.halt.ackRun
  state : u.traction.state = s.traction.state
  effort : u.traction.effort = s.traction.effort
  sound : u.sound = s.sound

/-- The latch, its run, the traction state, E and the sounds are as they were. -/
structure LatchStays (s t : State) : Prop where
  latch : t.halt.latch = s.halt.latch
  run : t.halt.ackRun = s.halt.ackRun
  state : t.traction.state = s.traction.state
  effort : t.traction.effort = s.traction.effort
  sound : t.sound = s.sound

/-- A clear latch has set, a cause is present, and the unit is HALTED without power. -/
structure LatchSets (s t : State) : Prop where
  clear : s.halt.latch = none
  latches : ∃ first, Latches first s t
  any : t.halt.causes.any = true
  effort : t.traction.effort = s.traction.halted.effort

/-- What causes that are judged, BREACH not among them, make of the latch. -/
def LatchJudged (s t : State) : Prop := LatchStays s t ∨ LatchSets s t

theorem Latches.alike {first : Cause} (same : LatchAlike s u) (h : Latches first u t) : Latches first s t where
  latch := by rw [h.latch, same.now, same.distance, same.speed, same.flag]
  run := h.run
  state := h.state
  retained := h.retained
  sound := h.sound.trans (askFor_sound same.sound same.now 0)
  recorded := same.speed ▸ h.recorded

theorem LatchJudged.alike (same : LatchAlike s u) (h : LatchJudged u t) : LatchJudged s t := by
  rcases h with ⟨latch, run, state, effort, sound⟩ | ⟨clear, ⟨first, latches⟩, any, effort⟩
  · exact .inl ⟨latch.trans same.latch, run.trans same.run, state.trans same.state, effort.trans same.effort, sound.trans same.sound⟩
  · refine .inr ⟨same.latch.symm.trans clear, ⟨first, latches.alike same⟩, any, effort.trans ?_⟩
    rw [Traction.halted_effort_eq, Traction.halted_effort_eq, same.state, same.effort]

theorem LatchStays.refl (s : State) : LatchStays s s := ⟨rfl, rfl, rfl, rfl, rfl⟩

theorem Causes.any_of_has {c : Causes} {x : Cause} (present : c.has x = true) : c.any = true :=
  List.any_eq_true.2 ⟨x, x.mem_descending, present⟩

theorem joinCauses_judged {cs : List Cause} (mild : .breach ∉ cs) :
    LatchStays s (joinCauses cs s) ∨ LatchSets s (joinCauses cs s) ∧ ∃ c ∈ cs, (joinCauses cs s).halt.causes.has c = true := by
  rcases joinCauses_cases cs s with ⟨same, -⟩ | ⟨first, c, inside, -, -, joined⟩
  · rw [same]; exact .inl (.refl s)
  · have present : (joinCauses cs s).halt.causes.has first = true := by rw [joinCauses_has, if_pos inside]
    have any := Causes.any_of_has present
    simp only [if_neg (show first ≠ .breach from fun e => mild (e ▸ inside))] at joined
    cases latch : s.halt.latch with
    | none =>
      rw [latch] at joined
      refine .inr ⟨⟨latch, ⟨first, ?_⟩, any, ?_⟩, first, inside, present⟩
      · rw [joined]
        exact ⟨by simp [State.causing], by simp [State.causing], by simp [State.causing, Traction.halted_state], by simp [State.causing],
          setLatch_sound first s, setLatch_recorded first s⟩
      · rw [joined]; simp [State.causing]
    | some r =>
      rw [latch] at joined
      rw [joined]
      exact .inl ⟨rfl, rfl, rfl, rfl, rfl⟩

/-- The HALT drive judged may set a clear latch, with TRAINLINE, where it ends (R75). -/
theorem judgeDrive_judged (s : State) : LatchJudged s (judgeDrive s) := by
  rcases judgeDrive_cases s with ⟨-, e⟩ | ⟨-, -, e⟩ | ⟨-, -, e⟩
  · rw [e]; exact .inl (.refl s)
  · rw [e]; exact .inl ⟨rfl, rfl, rfl, rfl, rfl⟩
  · rw [e]
    unfold senseHalt
    split
    · exact LatchJudged.alike (u := s.setLines { s.lines with halting := false }) ⟨rfl, rfl, rfl, rfl, rfl, rfl, rfl, rfl, rfl⟩
        ((joinCauses_judged (by decide)).imp_right And.left)
    · exact .inl ⟨rfl, rfl, rfl, rfl, rfl⟩

theorem LatchSets.drive {c : Cause} (other : c ≠ .trainline) (present : t.halt.causes.has c = true) (h : LatchSets s t) :
    LatchSets s (judgeDrive t) := by
  obtain ⟨first, latches⟩ := h.latches
  refine ⟨h.clear, ⟨first, latches.drive⟩, Causes.any_of_has ((judgeDrive_has other t).trans present), ?_⟩
  exact judgeDrive_set (P := fun u => u.traction.effort = s.traction.halted.effort) (by simp [latches.latch]) (fun h => h)
    (fun _ h => h) h.effort

theorem LatchStays.alike (h : LatchStays s u) (now : u.now = s.now) (route : u.route = s.route) (axle : u.axle = s.axle) :
    LatchAlike s u :=
  ⟨now, by rw [route], by rw [axle], by rw [axle], h.latch, h.run, h.state, h.effort, h.sound⟩

theorem addCauses_judged {cs : List Cause} (mild : .breach ∉ cs) (own : .trainline ∉ cs) : LatchJudged s (addCauses cs s) := by
  rcases joinCauses_judged (s := s) mild with stays | ⟨sets, c, inside, present⟩
  · exact (judgeDrive_judged _).alike (stays.alike (by simp) (by simp) (by simp))
  · exact .inr (sets.drive (fun e => own (e ▸ inside)) present)

theorem removeCauses_judged (cs : List Cause) (s : State) : LatchJudged s (removeCauses cs s) :=
  LatchJudged.alike (u := dropCauses cs s) ⟨rfl, rfl, rfl, rfl, rfl, rfl, rfl, rfl, rfl⟩ (judgeDrive_judged _)

/-! ### What causes leave of the rest of the traction unit and of the lines -/

/-- Of the traction unit causes that join change the state, the efforts and the effort lines alone. -/
theorem joinCauses_setup (cs : List Cause) (s : State) : s.traction.SameSetup (joinCauses cs s).traction := by
  rcases joinCauses_cases cs s with ⟨same, -⟩ | ⟨first, c, -, -, -, joined⟩
  · rw [same]; exact .refl _
  · have latched : ∀ u, u = s ∨ u = setLatch first s → s.traction.SameSetup (u.causing c).traction := by
      rintro u (rfl | rfl)
      · exact .refl _
      · show s.traction.SameSetup (setLatch first s).traction
        rw [setLatch_traction]; exact Traction.halted_setup _
    have present := latched (if s.halt.latch.isNone then setLatch first s else s) (by split <;> simp)
    rw [joined]
    dsimp only
    generalize (if s.halt.latch.isNone then setLatch first s else s).causing c = u at present
    split
    · exact present.trans (breachBraking_traction _).2.2
    · exact present

theorem judgeDrive_setup (s : State) : s.traction.SameSetup (judgeDrive s).traction := by
  rcases judgeDrive_cases s with ⟨-, e⟩ | ⟨-, -, e⟩ | ⟨-, -, e⟩
  · rw [e]; exact .refl _
  · rw [e]; exact .refl _
  · rw [e]
    unfold senseHalt
    split
    · exact joinCauses_setup [.trainline] (s.setLines { s.lines with halting := false })
    · exact .refl _

theorem addCauses_setup (cs : List Cause) (s : State) : s.traction.SameSetup (addCauses cs s).traction :=
  (joinCauses_setup cs s).trans (judgeDrive_setup _)

theorem removeCauses_setup (cs : List Cause) (s : State) : s.traction.SameSetup (removeCauses cs s).traction :=
  judgeDrive_setup (dropCauses cs s)

/-- Of the lines causes change the HALT drive and a retained pulse alone (R74, R77). -/
def TrainLines.SameWires (a b : TrainLines) : Prop := b = { a with halting := b.halting, retained := b.retained }

theorem TrainLines.SameWires.trans {a b c : TrainLines} (ab : a.SameWires b) (bc : b.SameWires c) : a.SameWires c := by
  unfold TrainLines.SameWires at *; rw [bc, ab]

theorem joinCauses_wires (cs : List Cause) (s : State) : s.lines.SameWires (joinCauses cs s).lines := by
  unfold TrainLines.SameWires; rw [joinCauses_lines]

theorem judgeDrive_wires (s : State) : s.lines.SameWires (judgeDrive s).lines := by
  rcases judgeDrive_cases s with ⟨-, e⟩ | ⟨-, -, e⟩ | ⟨-, -, e⟩
  · rw [e]; rfl
  · rw [e]; rfl
  · rw [e, senseHalt_lines]; rfl

theorem addCauses_wires (cs : List Cause) (s : State) : s.lines.SameWires (addCauses cs s).lines :=
  (joinCauses_wires cs s).trans (judgeDrive_wires _)

theorem removeCauses_wires (cs : List Cause) (s : State) : s.lines.SameWires (removeCauses cs s).lines :=
  judgeDrive_wires (dropCauses cs s)

/-! ### Events of causes -/

/-- Of the event set causes that join change at most HALT LATCHED, with the records of its warning, and SETTINGS APPLIED. -/
theorem joinCauses_events {P : State → Prop} (only : ∀ s u, u.host = s.host → P s → P u)
    (raises : ∀ {s : State} {k j : Nat} {v : Int}, k = 6 ∨ k = 7 ∨ k = 8 ∨ k = 30 → P s → P (raise k j v s)) {cs : List Cause}
    (h : P s) : P (joinCauses cs s) := by
  have latched : ∀ first, P (setLatch first s) := fun first => by
    rw [setLatch_eq]
    exact askFor_event (.events only fun tone => raises (by omega)) (raises (by decide) (only s _ rfl h))
  rcases joinCauses_cases cs s with ⟨same, -⟩ | ⟨first, c, -, -, -, joined⟩
  · rw [same]; exact h
  · have present : P ((if s.halt.latch.isNone then setLatch first s else s).causing c) :=
      only (if s.halt.latch.isNone then setLatch first s else s) _ rfl (ite_at (P := P) (fun _ => latched first) fun _ => h)
    rw [joined]
    dsimp only
    generalize (if s.halt.latch.isNone then setLatch first s else s).causing c = u at present
    split
    · rw [breachBraking_eq]
      exact judgeLock_events (P := P) (fun {s st} h => only s _ rfl h) (raises (by decide)) (only u _ rfl present)
    · exact present

theorem judgeDrive_events {P : State → Prop} (only : ∀ s u, u.host = s.host → P s → P u)
    (raises : ∀ {s : State} {k j : Nat} {v : Int}, k = 6 ∨ k = 7 ∨ k = 8 ∨ k = 30 → P s → P (raise k j v s)) (h : P s) :
    P (judgeDrive s) := by
  rcases judgeDrive_cases s with ⟨-, e⟩ | ⟨-, -, e⟩ | ⟨-, -, e⟩
  · rw [e]; exact h
  · rw [e]; exact only s _ rfl h
  · have ended : P (s.setLines { s.lines with halting := false }) := only s _ rfl h
    rw [e]
    exact ite_at (P := P) (fun _ => joinCauses_events only raises ended) fun _ =>
      only (s.setLines { s.lines with halting := false }) _ rfl ended

end Sys2Proof.Machine
end

section
/-! What the stages of a pass leave: its frame, what is judged at the opening and outlives the stages, what is read at stage 1 and
outlives the rest (R25). -/

namespace Sys2Proof.Machine

variable {o s t u : State}

/-! ### The frame of a pass -/

/-- What no stage of a pass writes: the axle unit but for the travel sense, the blocks of route, junctions, stops and vigilance, and
the fields named of the lines, the sounds, the settings and the host link. -/
structure PassFrame (s u : State) : Prop where
  now : u.now = s.now
  pins : u.pins = s.pins
  axle : u.axle = { s.axle with sense := u.axle.sense }
  vigilance : u.vigilance = s.vigilance
  route : u.route = s.route
  junction : u.junction = s.junction
  stop : u.stop = s.stop
  role : u.lines.role = s.lines.role
  coupled : u.lines.coupled = s.lines.coupled
  demandU : u.lines.demandU = s.lines.demandU
  loaded : u.sound.loaded = s.sound.loaded
  frozen : u.settings.frozen = s.settings.frozen
  host : u.host = { s.host with events := u.host.events, incomplete := u.host.incomplete }

theorem PassFrame.refl (s : State) : PassFrame s s := ⟨rfl, rfl, rfl, rfl, rfl, rfl, rfl, rfl, rfl, rfl, rfl, rfl, rfl⟩

/-- What an operation leaves that touches at most the sounds, the event set, the locks, and of the lines the drive and the pulse. -/
theorem PassFrame.kept (h : PassFrame s u) (kept : TripKept u t) (axle : t.axle = u.axle) (route : t.route = u.route)
    (junction : t.junction = u.junction) (vigilance : t.vigilance = u.vigilance) (lines : u.lines.SameWires t.lines) : PassFrame s t where
  now := kept.now.trans h.now
  pins := kept.pins.trans h.pins
  axle := by rw [axle]; exact h.axle
  vigilance := vigilance.trans h.vigilance
  route := route.trans h.route
  junction := junction.trans h.junction
  stop := kept.stop.trans h.stop
  role := by rw [lines]; exact h.role
  coupled := by rw [lines]; exact h.coupled
  demandU := kept.demandU.trans h.demandU
  loaded := kept.loaded.trans h.loaded
  frozen := kept.frozen.trans h.frozen
  host := by rw [kept.host, h.host]

theorem PassFrame.lock {g : Group} {b : Bool} (h : PassFrame s u) : PassFrame s (judgeLock g b u) :=
  h.kept (TripKept.refl u).lock (by simp) (by simp) (by simp) (by simp) (by rw [judgeLock_lines]; rfl)

theorem PassFrame.raise {k j : Nat} {v : Int} (h : PassFrame s u) : PassFrame s (raise k j v u) :=
  h.kept (TripKept.refl u).raise (by simp) (by simp) (by simp) (by simp) (by rw [raise_lines]; rfl)

theorem PassFrame.add {cs : List Cause} (h : PassFrame s u) : PassFrame s (addCauses cs u) :=
  h.kept (addCauses_quiet (tripKept_walk u).toQuietWalk (fun _ _ => trivial) (.refl u)) (by simp) (by simp) (by simp) (by simp)
    (addCauses_wires cs u)

theorem PassFrame.remove {cs : List Cause} (h : PassFrame s u) : PassFrame s (removeCauses cs u) :=
  h.kept (removeCauses_quiet (tripKept_walk u).toQuietWalk (fun _ _ => trivial) (.refl u)) (by simp) (by simp) (by simp) (by simp)
    (removeCauses_wires cs u)

theorem passFrame_walk (s : State) : PassWalk (PassFrame s) where
  note := fun _ h => h.raise
  sounding := fun h => h.lock
  sound := fun loaded h => { h with loaded := loaded.trans h.loaded }
  raise := fun _ _ h => h.raise
  start := fun _ h => { h with }
  spend := fun h => { h with }
  ack := fun h => { h with }
  release := fun _ _ h => { h with }
  pulse := fun h => { h with }
  read := fun h => { h with }
  lose := fun h => h.add
  roll := fun h => h.add
  remove := fun h => h.remove
  overspeed := fun {u st} h => by rw [judgeOverspeed_eq]; exact { h with }
  effort := fun h => { h with }
  effortHeld := fun {u b} h => PassFrame.lock (u := u.setSettings _) { h with }
  adhesion := fun h => { h with }
  free := fun h => { h with }
  outputs := fun h => { h with }
  drives := fun h => { h with }
  stamp := fun h => { h with }
  leave := fun _ _ h => { h with }
  limits := fun h => { h with }
  turn := fun h => { h with }
  sense := fun {u x} h => { h with axle := by rw [State.setAxle_axle, h.axle] }
  inhibit := fun {u} h => by rw [enterInhibited_eq]; exact { h with }
  refuse := fun h => h.raise

/-! ### What the opening leaves -/

/-- What the opening leaves of the halt latch, the sounds, the settings, the lines and the traction unit. -/
structure OpenFrame (s o : State) : Prop where
  halt : o.halt = s.halt
  sound : o.sound = s.sound
  settings : o.settings = s.settings
  lines : o.lines = { s.lines with retained := o.lines.retained }
  traction : o.traction = { s.traction with
    state := o.traction.state, effort := o.traction.effort, effortA := o.traction.effortA, effortB := o.traction.effortB
    lineA := o.traction.lineA, lineB := o.traction.lineB, powerLimit := o.traction.powerLimit
    brakeLimit := o.traction.brakeLimit, direction := o.traction.direction, ignored := o.traction.ignored
    settle := o.traction.settle }

theorem enterInhibited_setup (s : State) : s.traction.SameSetup (enterInhibited s).traction := by
  unfold enterInhibited
  split
  · exact Traction.SameSetup.trans (b := { s.traction with state := .inhibited }) rfl (closeGate_setup _)
  · rfl
  · rfl

theorem openFrame_walk (s : State) : OpenWalk (OpenFrame s) where
  leave := fun {u _} _ _ h => { h with traction := by rw [State.setTraction_traction, h.traction] }
  start := fun {u} _ h => { h with traction := by rw [State.setTraction_traction, h.traction] }
  spend := fun {u} h => { h with lines := by rw [State.setLines_lines, h.lines] }
  limits := fun {u} h => { h with traction := by unfold takeLimits; rw [State.setTraction_traction, h.traction] }
  turn := fun {u _ _ _} h => { h with traction := by rw [State.setTraction_traction, h.traction] }
  sense := fun h => { h with }
  inhibit := fun {u} h => by
    rw [enterInhibited_eq]
    exact { h with traction := by rw [State.setTraction_traction, enterInhibited_setup u, h.traction] }
  refuse := fun {u p} h => by
    refine ⟨?_, ?_, ?_, ?_, ?_⟩
    · rw [raise_halt]; exact h.halt
    · rw [raise_sound]; exact h.sound
    · exact h.settings
    · rw [raise_lines]; exact h.lines
    · rw [raise_traction]; exact h.traction

theorem passOpened_frame (s : State) : OpenFrame s (passOpened s) := passOpened_open (openFrame_walk s) ⟨rfl, rfl, rfl, rfl, rfl⟩

/-! ### What outlives the stages -/

/-- The direction, the settle timer, the limits and the travel sense a pass has opened with. -/
structure DirectionKept (o u : State) : Prop where
  axle : u.axle = o.axle
  direction : u.traction.direction = o.traction.direction
  ignored : u.traction.ignored = o.traction.ignored
  settle : u.traction.settle = o.traction.settle
  powerLimit : u.traction.powerLimit = o.traction.powerLimit
  brakeLimit : u.traction.brakeLimit = o.traction.brakeLimit

theorem DirectionKept.setup (h : DirectionKept o u) (axle : t.axle = u.axle) (same : u.traction.SameSetup t.traction) :
    DirectionKept o t := by
  refine ⟨axle.trans h.axle, ?_, ?_, ?_, ?_, ?_⟩ <;> rw [same]
  exacts [h.direction, h.ignored, h.settle, h.powerLimit, h.brakeLimit]

theorem DirectionKept.same (h : DirectionKept o u) (axle : t.axle = u.axle) (same : t.traction = u.traction) : DirectionKept o t :=
  h.setup axle (same ▸ .refl _)

/-- The overspeed judgement writes the flag, the ceiling in use, and what the closing gate takes (R20, R35, R38). -/
theorem judgeOverspeed_setup (st : SettingsStore) (s : State) : ∃ b, Traction.SameSetup
    { s.traction with ceilingInUse := s.route.ceiling, overspeed := b } (judgeOverspeed st s).traction := by
  unfold judgeOverspeed
  dsimp only
  split
  · exact ⟨_, .refl _⟩
  · split
    · refine ⟨true, ?_⟩
      split
      · exact closeGate_setup _
      · exact .refl _
    · exact ⟨s.traction.overspeed, .refl _⟩

theorem directionKept_walk (o : State) : OutputWalk (DirectionKept o) where
  note := fun _ h => h.same (by simp) (by simp)
  sounding := fun h => h.same (by simp) (by simp)
  sound := fun _ h => { h with }
  raise := fun _ _ h => h.same (by simp) (by simp)
  start := fun _ h => { h with }
  ack := fun h => { h with }
  release := fun _ _ h => { h with }
  pulse := fun h => { h with }
  read := fun h => { h with }
  lose := fun h => h.setup (by simp) (addCauses_setup _ _)
  roll := fun h => h.setup (by simp) (addCauses_setup _ _)
  remove := fun h => h.setup (by simp) (removeCauses_setup _ _)
  overspeed := fun {u st} h => by
    obtain ⟨b, same⟩ := judgeOverspeed_setup st u
    exact DirectionKept.setup (u := u.setTraction { u.traction with ceilingInUse := u.route.ceiling, overspeed := b }) { h with }
      (by rw [judgeOverspeed_eq]; rfl) same
  effort := fun h => { h with }
  effortHeld := fun {u b} h => DirectionKept.same (u := u) h (by simp) (by simp)
  adhesion := fun h => { h with }
  free := fun h => { h with }
  outputs := fun h => { h with }
  drives := fun h => { h with }
  stamp := fun h => { h with }

/-- What stage 1 has read of the demand, and the causes but TRAINLINE and ROLLBACK. -/
structure ReadKept (r u : State) : Prop where
  lastH : u.traction.lastH = r.traction.lastH
  lastHEmergency : u.traction.lastHEmergency = r.traction.lastHEmergency
  invalidRun : u.traction.invalidRun = r.traction.invalidRun
  handleFaultMark : u.traction.handleFaultMark = r.traction.handleFaultMark
  inEmergency : u.traction.inEmergency = r.traction.inEmergency
  demandLoss : u.traction.demandLoss = r.traction.demandLoss
  causes : ∀ y, y ≠ .trainline → y ≠ .rollback → u.halt.causes.has y = r.halt.causes.has y

theorem ReadKept.refl (r : State) : ReadKept r r := ⟨rfl, rfl, rfl, rfl, rfl, rfl, fun _ _ _ => rfl⟩

theorem ReadKept.setup {r : State} (h : ReadKept r u) (same : u.traction.SameSetup t.traction)
    (causes : ∀ y, y ≠ .trainline → y ≠ .rollback → t.halt.causes.has y = u.halt.causes.has y) : ReadKept r t := by
  refine ⟨?_, ?_, ?_, ?_, ?_, ?_, fun y line roll => (causes y line roll).trans (h.causes y line roll)⟩ <;> rw [same]
  exacts [h.lastH, h.lastHEmergency, h.invalidRun, h.handleFaultMark, h.inEmergency, h.demandLoss]

theorem ReadKept.same {r : State} (h : ReadKept r u) (traction : t.traction = u.traction) (halt : t.halt = u.halt) : ReadKept r t :=
  h.setup (traction ▸ .refl _) fun y _ _ => by rw [halt]

theorem readKept_walk (r : State) : TailWalk (ReadKept r) where
  note := fun _ h => h.same (by simp) (by simp)
  sounding := fun h => h.same (by simp) (by simp)
  sound := fun _ h => { h with }
  raise := fun _ _ h => h.same (by simp) (by simp)
  start := fun _ h => { h with }
  ack := fun h => { h with }
  release := fun _ _ h => { h with }
  pulse := fun h => { h with }
  roll := fun h => h.setup (addCauses_setup _ _) fun y line roll => by rw [addCauses_has line, if_neg (by simpa using roll)]
  overspeed := fun {u st} h => by
    obtain ⟨b, same⟩ := judgeOverspeed_setup st u
    exact ReadKept.setup (u := u.setTraction { u.traction with ceilingInUse := u.route.ceiling, overspeed := b }) { h with } same
      fun y _ _ => by rw [judgeOverspeed_eq]; rfl
  effort := fun h => { h with }
  effortHeld := fun {u b} h => ReadKept.same (u := u) h (by simp) (by simp)
  adhesion := fun h => { h with }
  free := fun h => { h with }
  outputs := fun h => { h with }
  drives := fun h => { h with }
  stamp := fun h => { h with }

/-- What stage 1 leaves of the lines: the emission and the previous demand. -/
structure LinesKept (e u : State) : Prop where
  emission : u.lines.emission = e.lines.emission
  previousDemand : u.lines.previousDemand = e.lines.previousDemand

theorem LinesKept.wires {e : State} (h : LinesKept e u) (same : u.lines.SameWires t.lines) : LinesKept e t := by
  refine ⟨?_, ?_⟩ <;> rw [same]
  exacts [h.emission, h.previousDemand]

theorem linesKept_walk (e : State) : LateWalk (LinesKept e) where
  raise := fun _ _ h => h.wires (by rw [raise_lines]; rfl)
  roll := fun h => h.wires (addCauses_wires _ _)
  overspeed := fun {u st} h => by rw [judgeOverspeed_eq]; exact { h with }
  effort := fun h => { h with }
  effortHeld := fun {u b} h => LinesKept.wires (u := u) h (by rw [judgeLock_lines]; rfl)
  adhesion := fun h => { h with }
  free := fun h => { h with }
  outputs := fun h => { h with }
  drives := fun h => { h with }
  stamp := fun h => { h with }

end Sys2Proof.Machine
end

section
/-! A pass cut at its stages (R25): opened, read, through stage 1, judged by stage 3; and what its last stages write of it. -/

namespace Sys2Proof.Machine

variable {s t u : State}

/-! ### The cuts -/

/-- The state stage 1 has read its demand in. -/
def passRead (s : State) : State := (readDemandOf (passOpened s)).1

/-- The demand H of a pass. -/
def passDemand (s : State) : Int := (readDemandOf (passOpened s)).2

/-- The state after stage 1. -/
def passFirst (s : State) : State := judgeEmission (passDemand s) (acknowledge (passDemand s) (passRead s))

/-- The state after stage 3. -/
def passThird (s : State) : State := judgeRollback s.settings (judgeOverspeed s.settings (passFirst s))

/-- The gated demand of a pass (R34). -/
def passGated (s : State) : Int := gateDemand (passDemand s) (passFirst s)

/-- E as stage 4 moves it from `s`, under the settings `st`, on the gated demand `h2` (R39 to R41). -/
def movedEffort (st : SettingsStore) (h2 : Int) (s : State) : Int :=
  if fullBraking s then -1000
  else rampEffort (st.value Setting.powerBuild) (st.value Setting.brakeBuild) (st.value Setting.release) s.traction.effort
    (effortTarget st h2 s)

/-- E as stage 4 of a pass leaves it. -/
def passEffort (s : State) : Int := movedEffort s.settings (passGated s) (passThird s)

/-- The state after the adhesion step. -/
def passStepped (s : State) : State := adhesionStep s.settings (moveEffort s.settings (passGated s) (passThird s))

/-- The state the last stages have written, but for the time of the next pass. -/
def passWritten (s : State) : State := writeOutputs (demandOut (passGated s) (passThird s)) (passStepped s)

theorem stageOne_eq (s : State) : stageOne s =
    (judgeEmission (readDemandOf s).2 (acknowledge (readDemandOf s).2 (readDemandOf s).1), (readDemandOf s).2) := rfl

theorem passFirst_eq (s : State) : passFirst s = (stageOne (passOpened s)).1 := by
  rw [stageOne_eq]; unfold passFirst passDemand passRead; exact Eq.refl _

theorem passDemand_eq (s : State) : passDemand s = (stageOne (passOpened s)).2 := by
  rw [stageOne_eq]; unfold passDemand; exact Eq.refl _

theorem passWritten_eq (s : State) : passWritten s = laterStages s.settings (passDemand s) (passFirst s) := by
  unfold laterStages passWritten passStepped passGated passThird; rfl

/-- The state with the time of its next pass. -/
def stampedAt (n : Nat) (s : State) : State := s.setTraction { s.traction with passDue := n }

@[simp] theorem stampedAt_halt (n : Nat) (s : State) : (stampedAt n s).halt = s.halt := rfl
@[simp] theorem stampedAt_sound (n : Nat) (s : State) : (stampedAt n s).sound = s.sound := rfl
@[simp] theorem stampedAt_lines (n : Nat) (s : State) : (stampedAt n s).lines = s.lines := rfl
@[simp] theorem stampedAt_adhesion (n : Nat) (s : State) : (stampedAt n s).adhesion = s.adhesion := rfl

theorem effortPass_written (s : State) : effortPass s = stampedAt (s.now + Config.period) (passWritten s) := by
  rw [effortPass_eq, passWritten_eq, passDemand_eq, passFirst_eq]
  rfl

theorem passThird_of {P : State → Prop} (W : LateWalk P) (h : P (passFirst s)) : P (passThird s) :=
  judgeRollback_late (P := P) W (W.overspeed (s := passFirst s) h)

theorem passWritten_of {P : State → Prop} (W : LateWalk P) (h : P (passThird s)) : P (passWritten s) :=
  writeOutputs_late W (adhesionStep_late W (moveEffort_late W h))

theorem effortPass_of {P : State → Prop} (W : LateWalk P) (h : P (passThird s)) : P (effortPass s) := by
  rw [effortPass_written]; exact W.stamp (s := passWritten s) (passWritten_of W h)

theorem effortPass_frame (s : State) : PassFrame s (effortPass s) := effortPass_pass (passFrame_walk s) (.refl s)

theorem passOpened_pass (s : State) : PassFrame s (passOpened s) := passOpened_open (passFrame_walk s).toOpenWalk (.refl s)

theorem passRead_frame (s : State) : PassFrame s (passRead s) :=
  readDemandOf_read (passFrame_walk s).toReadWalk (passOpened_pass s)

theorem passFirst_frame (s : State) : PassFrame s (passFirst s) :=
  stageOne_stage (passFrame_walk s).toStageWalk (passOpened_pass s)

theorem passThird_frame (s : State) : PassFrame s (passThird s) := passThird_of (passFrame_walk s).toLateWalk (passFirst_frame s)

/-! ### What stages 4 to 7 write -/

theorem moveEffort_traction (st : SettingsStore) (h2 : Int) (s : State) :
    (moveEffort st h2 s).traction = { s.traction with effort := movedEffort st h2 s } := by
  unfold moveEffort judgeEffort; rw [judgeLock_traction]; rfl

theorem moveEffort_halt (st : SettingsStore) (h2 : Int) (s : State) : (moveEffort st h2 s).halt = s.halt := by
  unfold moveEffort judgeEffort; rw [judgeLock_halt]; rfl

theorem moveEffort_lines (st : SettingsStore) (h2 : Int) (s : State) : (moveEffort st h2 s).lines = s.lines := by
  unfold moveEffort judgeEffort; rw [judgeLock_lines]; rfl

theorem moveEffort_sound (st : SettingsStore) (h2 : Int) (s : State) : (moveEffort st h2 s).sound = s.sound := by
  unfold moveEffort judgeEffort; rw [judgeLock_sound]; rfl

theorem passStepped_traction (s : State) : (passStepped s).traction = { (passThird s).traction with effort := passEffort s } := by
  unfold passStepped; rw [adhesionStep_traction, moveEffort_traction]; rfl

theorem passStepped_lines (s : State) : (passStepped s).lines = (passThird s).lines := by
  unfold passStepped; rw [adhesionStep_lines, moveEffort_lines]

theorem adhesionStep_sound (st : SettingsStore) (s : State) : (adhesionStep st s).sound = s.sound :=
  adhesionStep_other (P := fun u => u.sound = s.sound) (fun _ _ h => h) (fun _ _ h => h) (fun _ _ h => h) rfl

@[simp] theorem writeOutputs_sound (x : Int) (s : State) : (writeOutputs x s).sound = s.sound := by
  unfold writeOutputs; dsimp only; rw [driveTrainLines_eq]; rfl

theorem effortPass_halt (s : State) : (effortPass s).halt = (passThird s).halt := by
  rw [effortPass_written, stampedAt_halt]
  unfold passWritten passStepped; rw [writeOutputs_halt, adhesionStep_halt, moveEffort_halt]

theorem effortPass_sound (s : State) : (effortPass s).sound = (passThird s).sound := by
  rw [effortPass_written, stampedAt_sound]
  unfold passWritten passStepped; rw [writeOutputs_sound, adhesionStep_sound, moveEffort_sound]

theorem effortPass_adhesion (s : State) : (effortPass s).adhesion = (passStepped s).adhesion := by
  rw [effortPass_written, stampedAt_adhesion]
  unfold passWritten; rw [writeOutputs_adhesion]

theorem driveTrainLines_congr {x : Int} {a b : State} (lines : a.lines = b.lines)
    (direction : a.traction.direction = b.traction.direction) : (driveTrainLines x a).lines = (driveTrainLines x b).lines := by
  unfold driveTrainLines
  rw [lines, direction]
  split
  · rfl
  · exact lines

theorem writeOutputs_lines (x : Int) (s : State) : (writeOutputs x s).lines = (driveTrainLines x s).lines := by
  unfold writeOutputs
  exact driveTrainLines_congr rfl (by rw [writeLines_eq]; rfl)

/-- The lines a pass drives, by the demand it puts out and the direction it holds (R45). -/
theorem effortPass_lines (s : State) :
    (effortPass s).lines = (driveTrainLines (demandOut (passGated s) (passThird s)) (passThird s)).lines := by
  rw [effortPass_written, stampedAt_lines, passWritten, writeOutputs_lines]
  exact driveTrainLines_congr (passStepped_lines s) (by rw [passStepped_traction])

/-- The traction unit a pass leaves: that of stage 3 with E moved, shared and written (R29, R42 to R44). -/
theorem effortPass_traction (s : State) : (effortPass s).traction =
    { writeLines (shareEffort (passStepped s)).traction with
      invDir := invDirUnder (passThird s).traction.direction (passThird s).traction.invDir
      passDue := s.now + Config.period } := by
  rw [effortPass_written, stampedAt, State.setTraction_traction, passWritten, writeOutputs_traction, passStepped_traction]

/-- What the last stages leave of the traction unit of stage 3. -/
theorem effortPass_setup (s : State) :
    let done := (effortPass s).traction
    done.state = (passThird s).traction.state ∧ done.overspeed = (passThird s).traction.overspeed ∧
    done.ceilingInUse = (passThird s).traction.ceilingInUse ∧ done.effort = passEffort s ∧
    done.invDir = invDirUnder (passThird s).traction.direction (passThird s).traction.invDir ∧
    done.passDue = s.now + Config.period ∧ done.inEmergency = (passThird s).traction.inEmergency := by
  rw [effortPass_traction, writeLines_eq]
  simp only [shareEffort, State.setTraction_traction, passStepped_traction, and_self]

end Sys2Proof.Machine
end

section
/-! The outputs of a pass (R42 to R46), and the overspeed judgement (R35, R38). -/

namespace Sys2Proof.Machine

variable {s t u : State}

/-! ### The opening and stage 1 -/

/-- The limits a pass has opened with are the settings' (R46). -/
structure LimitsTaken (s u : State) : Prop where
  settings : u.settings = s.settings
  power : u.traction.powerLimit = s.cfg Setting.powerLimit
  brake : u.traction.brakeLimit = s.cfg Setting.brakeLimit

theorem limitsTaken_walk (s : State) : OpenWalk (LimitsTaken s) where
  leave := fun _ _ h => { h with }
  start := fun _ h => { h with }
  spend := fun h => { h with }
  limits := fun {u} h => ⟨h.settings, by unfold State.cfg; rw [← h.settings]; rfl, by unfold State.cfg; rw [← h.settings]; rfl⟩
  turn := fun h => { h with }
  sense := fun h => { h with }
  inhibit := fun {u} h => by
    have same := enterInhibited_setup u
    rw [enterInhibited_eq]
    refine ⟨h.settings, ?_, ?_⟩ <;> rw [State.setTraction_traction, same]
    exacts [h.power, h.brake]
  refuse := fun {u p} h => by
    refine ⟨h.settings, ?_, ?_⟩ <;> rw [raise_traction]
    exacts [h.power, h.brake]

theorem passOpened_limits (s : State) : LimitsTaken s (passOpened s) :=
  judgeExit_exit (limitsTaken_walk s).toExitWalk (judgeDirection_open (limitsTaken_walk s) ⟨rfl, rfl, rfl⟩)

/-- The overspeed flag, INV_DIR and the lines that are driven outlive the opening and stage 1. -/
structure FirstKept (s u : State) : Prop where
  overspeed : u.traction.overspeed = s.traction.overspeed
  invDir : u.traction.invDir = s.traction.invDir
  lines : u.lines = { s.lines with
    halting := u.lines.halting, retained := u.lines.retained, emission := u.lines.emission
    previousDemand := u.lines.previousDemand }

theorem FirstKept.caused (h : FirstKept s u) (setup : u.traction.SameSetup t.traction) (wires : u.lines.SameWires t.lines) :
    FirstKept s t :=
  ⟨by rw [setup]; exact h.overspeed, by rw [setup]; exact h.invDir, by rw [wires, h.lines]⟩

theorem FirstKept.same (h : FirstKept s u) (traction : t.traction = u.traction) (lines : t.lines = u.lines) : FirstKept s t :=
  h.caused (traction ▸ .refl _) (by rw [lines]; rfl)

theorem firstKept_walk (s : State) : StageWalk (FirstKept s) where
  note := fun _ h => h.same (by simp) (by simp)
  sounding := fun h => h.same (by simp) (by simp)
  sound := fun _ h => { h with }
  raise := fun _ _ h => h.same (by simp) (by simp)
  start := fun _ h => { h with }
  ack := fun h => { h with }
  release := fun _ _ h => { h with }
  pulse := fun {u _ _ _} h => { h with lines := by rw [State.setLines_lines, h.lines] }
  read := fun h => { h with }
  lose := fun h => h.caused (addCauses_setup _ _) (addCauses_wires _ _)
  remove := fun h => h.caused (removeCauses_setup _ _) (removeCauses_wires _ _)

theorem passOpened_first (s : State) : FirstKept s (passOpened s) := by
  have opened := passOpened_frame s
  refine ⟨?_, ?_, ?_⟩
  · rw [opened.traction]
  · rw [opened.traction]
  · rw [opened.lines]

theorem passFirst_kept (s : State) : FirstKept s (passFirst s) := stageOne_stage (firstKept_walk s) (passOpened_first s)

/-- The previous demand takes H (R76). -/
theorem effortPass_previousDemand (s : State) : (effortPass s).lines.previousDemand = passDemand s :=
  (effortPass_of (linesKept_walk (passFirst s)) (passThird_of (linesKept_walk (passFirst s)) ⟨rfl, rfl⟩)).previousDemand

/-! ### Stage 3 -/

/-- The overspeed flag by the ceiling and the margin (R35). -/
def overspeedJudged (st : SettingsStore) (s : State) : Bool :=
  if s.traction.overspeed then decide (s.route.ceiling < s.axle.refSpeed)
  else decide (s.route.ceiling + st.value Setting.overspeedMargin ≤ s.axle.refSpeed)

/-- The traction unit an overspeed judgement leaves: the gate of a RUNNING unit closes as the flag is set (R20, R35, R38). -/
theorem judgeOverspeed_traction (st : SettingsStore) (s : State) : (judgeOverspeed st s).traction =
    let judged := { s.traction with ceilingInUse := s.route.ceiling, overspeed := overspeedJudged st s }
    if s.traction.overspeed = false ∧ judged.overspeed = true ∧ s.traction.state = .running then closeGate judged else judged := by
  unfold judgeOverspeed overspeedJudged
  dsimp only
  by_cases flagged : s.traction.overspeed = true
  · simp [flagged]
  · by_cases exceeds : s.route.ceiling + st.value Setting.overspeedMargin ≤ s.axle.refSpeed
    · simp [flagged, exceeds]
    · have still : s.traction.overspeed = false := by simpa using flagged
      simp only [still, exceeds, decide_false, if_false, Bool.false_eq_true, false_and, and_false]
      rw [← still]
      rfl

theorem judgeOverspeed_judged (st : SettingsStore) (s : State) :
    (judgeOverspeed st s).traction.state = s.traction.state ∧
    (judgeOverspeed st s).traction.overspeed = overspeedJudged st s ∧
    (judgeOverspeed st s).traction.ceilingInUse = s.route.ceiling := by
  rw [judgeOverspeed_traction]
  dsimp only
  split
  · rw [closeGate_setup]
    exact ⟨(closeGate_cases _).1, rfl, rfl⟩
  · exact ⟨rfl, rfl, rfl⟩

/-- Rollback holds: a direction is held and the tram runs against it faster than the limit (R37). -/
def rollsBack (st : SettingsStore) (s : State) : Prop :=
  s.traction.direction ≠ .neutral ∧ s.axle.refSpeed < -st.value Setting.rollbackLimit

theorem judgeRollback_judged (st : SettingsStore) (s : State) : LatchJudged s (judgeRollback st s) := by
  unfold judgeRollback
  split
  · exact addCauses_judged (by decide) (by decide)
  · exact .inl (.refl s)

theorem judgeRollback_setup (st : SettingsStore) (s : State) : s.traction.SameSetup (judgeRollback st s).traction := by
  unfold judgeRollback
  split
  · exact addCauses_setup _ _
  · exact .refl _

/-- The state of stage 3 before rollback is judged. -/
def passJudged (s : State) : State := judgeOverspeed s.settings (passFirst s)

theorem passThird_eq (s : State) : passThird s = judgeRollback s.settings (passJudged s) := by unfold passThird passJudged; rfl

theorem passJudged_eq (s : State) : passJudged s = (passFirst s).setTraction (passJudged s).traction := judgeOverspeed_eq _ _

theorem LatchJudged.state (h : LatchJudged s t) : t.traction.state = s.traction.state ∨ t.traction.state = .halted := by
  rcases h with stays | sets
  · exact .inl stays.state
  · obtain ⟨first, latches⟩ := sets.latches
    exact .inr latches.state

/-- Stage 3 leaves the traction state, or halts (R37). -/
theorem passThird_state (s : State) :
    (passThird s).traction.state = (passFirst s).traction.state ∨ (passThird s).traction.state = .halted := by
  rw [passThird_eq]
  refine (judgeRollback_judged s.settings (passJudged s)).state.imp_left fun same => same.trans ?_
  exact (judgeOverspeed_judged s.settings (passFirst s)).1

/-- The flag and the ceiling in use stage 3 leaves (R35, R38). -/
theorem passThird_overspeed (s : State) :
    (passThird s).traction.overspeed = overspeedJudged s.settings s ∧ (passThird s).traction.ceilingInUse = s.route.ceiling := by
  have frame := passFirst_frame s
  obtain ⟨-, flag, ceiling⟩ := judgeOverspeed_judged s.settings (passFirst s)
  rw [passThird_eq, judgeRollback_setup s.settings (passJudged s)]
  refine ⟨flag.trans ?_, ceiling.trans (by rw [frame.route])⟩
  unfold overspeedJudged
  rw [(passFirst_kept s).overspeed, frame.route, frame.axle]

theorem passThird_kept (s : State) : (passThird s).traction.invDir = s.traction.invDir ∧
    (passThird s).lines = { s.lines with
      halting := (passThird s).lines.halting, retained := (passThird s).lines.retained
      emission := (passThird s).lines.emission, previousDemand := (passThird s).lines.previousDemand } := by
  have first := passFirst_kept s
  have judged : FirstKept { s with traction := { s.traction with overspeed := (passJudged s).traction.overspeed } } (passJudged s) := by
    obtain ⟨b, setup⟩ := judgeOverspeed_setup s.settings (passFirst s)
    refine ⟨rfl, ?_, ?_⟩
    · show (judgeOverspeed s.settings (passFirst s)).traction.invDir = _
      rw [setup]; exact first.invDir
    · rw [passJudged_eq]; exact first.lines
  have third : FirstKept { s with traction := { s.traction with overspeed := (passJudged s).traction.overspeed } } (passThird s) := by
    rw [passThird_eq]
    exact ite_at (P := FirstKept _) (fun _ => judged.caused (addCauses_setup _ _) (addCauses_wires _ _)) fun _ => judged
  exact ⟨third.invDir, third.lines⟩

end Sys2Proof.Machine
end

section
/-! What a pass writes (R42 to R46). -/

namespace Sys2Proof.Machine

variable {s : State}

/-- The direction, the settle timer, the limits and the axle unit a pass has opened with are those it ends with. -/
theorem effortPass_direction (s : State) : DirectionKept (passOpened s) (effortPass s) := by
  have first : DirectionKept (passOpened s) (passFirst s) := stageOne_stage (directionKept_walk _).toStageWalk ⟨rfl, rfl, rfl, rfl, rfl, rfl⟩
  exact effortPass_of (directionKept_walk _).toLateWalk (passThird_of (directionKept_walk _).toLateWalk first)

theorem passThird_direction (s : State) : DirectionKept (passOpened s) (passThird s) := by
  have first : DirectionKept (passOpened s) (passFirst s) := stageOne_stage (directionKept_walk _).toStageWalk ⟨rfl, rfl, rfl, rfl, rfl, rfl⟩
  exact passThird_of (directionKept_walk _).toLateWalk first

/-- The bogie efforts of a pass (R42, R43). -/
theorem effortPass_bogieEfforts (s : State) :
    let done := effortPass s
    done.traction.effortA = bogieEffort done.traction.effort done.adhesion.a.k (s.cfg Setting.powerLimit) (s.cfg Setting.brakeLimit) ∧
    done.traction.effortB = bogieEffort done.traction.effort done.adhesion.b.k (s.cfg Setting.powerLimit) (s.cfg Setting.brakeLimit) := by
  have limits := passOpened_limits s
  have kept := passThird_direction s
  rw [← limits.power, ← limits.brake, ← kept.powerLimit, ← kept.brakeLimit]
  dsimp only
  rw [effortPass_adhesion, effortPass_traction, writeLines_eq]
  simp only [shareEffort, State.setTraction_traction, passStepped_traction, and_self]

theorem writeLines_low {x : Traction} (rest : x.state = .inhibited ∧ x.effort = 0) :
    (writeLines x).lineA = .low ∧ (writeLines x).lineB = .low := by
  unfold writeLines; rw [if_pos rest]; exact ⟨rfl, rfl⟩

theorem writeLines_duty {x : Traction} (moves : ¬(x.state = .inhibited ∧ x.effort = 0)) :
    (writeLines x).lineA = .duty (dutyOf x.effortA) ∧ (writeLines x).lineB = .duty (dutyOf x.effortB) := by
  unfold writeLines; rw [if_neg moves]; exact ⟨rfl, rfl⟩

/-- The effort lines of a pass (R44). -/
theorem effortPass_effortLines (s : State) :
    let done := (effortPass s).traction
    (done.state = .inhibited ∧ done.effort = 0 → done.lineA = .low ∧ done.lineB = .low) ∧
    (¬(done.state = .inhibited ∧ done.effort = 0) →
      done.lineA = .duty (dutyOf done.effortA) ∧ done.lineB = .duty (dutyOf done.effortB)) := by
  have eq := writeLines_eq (shareEffort (passStepped s)).traction
  rw [effortPass_traction]
  generalize (shareEffort (passStepped s)).traction = x at eq
  dsimp only
  have state : (writeLines x).state = x.state := by rw [eq]
  have effort : (writeLines x).effort = x.effort := by rw [eq]
  have effortA : (writeLines x).effortA = x.effortA := by rw [eq]
  have effortB : (writeLines x).effortB = x.effortB := by rw [eq]
  rw [state, effort, effortA, effortB]
  exact ⟨writeLines_low, writeLines_duty⟩

theorem effortPass_gate (s : State) : gateOpen (effortPass s) = gateOpen (passThird s) := by
  obtain ⟨state, flag, -⟩ := effortPass_setup s
  unfold gateOpen; rw [state, flag]

theorem gateDemand_open {h : Int} (isOpen : gateOpen s = true) : gateDemand h s = h := if_neg (by simp [isOpen])

theorem gateDemand_brake {h : Int} (brake : h ≤ 0) : gateDemand h s = h := if_neg (by omega)

/-- A gate open after stage 3 was open after stage 1, where no overspeed stood (R34, R45). -/
theorem passFirst_gate (still : s.traction.overspeed = false) (isOpen : gateOpen (passThird s) = true) :
    gateOpen (passFirst s) = true := by
  rw [gateOpen_iff] at isOpen ⊢
  have state := (passThird_state s).resolve_right (by rw [isOpen.1]; decide)
  exact ⟨state ▸ isOpen.1, (passFirst_kept s).overspeed.trans still⟩

/-- The demand a lead puts out (R34, R45). -/
theorem passGated_out (s : State) :
    (passDemand s ≤ 0 → demandOut (passGated s) (passThird s) = passDemand s) ∧
    (gateOpen (passThird s) = false → 0 < passDemand s → demandOut (passGated s) (passThird s) = 0) ∧
    (gateOpen (passThird s) = true → s.traction.overspeed = false → demandOut (passGated s) (passThird s) = passDemand s) := by
  unfold demandOut passGated
  refine ⟨fun brake => ?_, fun closed power => ?_, fun isOpen still => ?_⟩
  · rw [gateDemand_brake (h := passDemand s) brake, gateDemand_brake brake]
  · by_cases first : gateOpen (passFirst s) = true
    · rw [gateDemand_open first]; exact if_pos ⟨power, closed⟩
    · rw [show gateDemand (passDemand s) (passFirst s) = 0 from if_pos ⟨power, by simpa using first⟩]
      exact gateDemand_brake le_rfl
  · rw [gateDemand_open (passFirst_gate still isOpen), gateDemand_open isOpen]

/-- What a lead drives (R45). -/
theorem effortPass_leadLines (lead : s.lines.role = .lead) :
    (effortPass s).lines.demandDrive = some (dutyOf (demandOut (passGated s) (passThird s))) ∧
    ((effortPass s).lines.tlFwdDrive = true ↔ (effortPass s).traction.direction = .forward) ∧
    ((effortPass s).lines.tlRevDrive = true ↔ (effortPass s).traction.direction = .reverse) := by
  have role : (passThird s).lines.role = .lead := (passThird_frame s).role.trans lead
  rw [effortPass_lines, (effortPass_direction s).direction, ← (passThird_direction s).direction, driveTrainLines, if_pos role]
  simp

/-- The other roles drive nothing (R45). -/
theorem effortPass_otherLines (other : s.lines.role ≠ .lead) :
    (effortPass s).lines.demandDrive = s.lines.demandDrive ∧ (effortPass s).lines.tlFwdDrive = s.lines.tlFwdDrive ∧
    (effortPass s).lines.tlRevDrive = s.lines.tlRevDrive := by
  have role : (passThird s).lines.role ≠ .lead := by rw [(passThird_frame s).role]; exact other
  rw [effortPass_lines, driveTrainLines, if_neg role, (passThird_kept s).2]
  exact ⟨rfl, rfl, rfl⟩

/-- The state in which a pass judges: its time come, its inputs taken. -/
def passStart (inputs : PassInputs) (s : State) : State := takeInputs inputs (s.reach s.traction.passDue)

theorem exec_controlPeriod (inputs : PassInputs) (s : State) :
    exec (.controlPeriod inputs) s = .next (effortPass (passStart inputs s)) := by
  unfold passStart; rfl

theorem exec_controlPeriod_next {inputs : PassInputs} {s t : State} (next : exec (.controlPeriod inputs) s = .next t) :
    t = effortPass (passStart inputs s) := by
  rw [exec_controlPeriod] at next
  exact (Host.Outcome.next.inj next).symm

/-- Settles O33: the outputs as the last stages write them; the rest by the frame of a pass. -/
theorem passWritesOutputs : Obligations.PassWritesOutputs := by
  intro inputs s t next
  have done := exec_controlPeriod_next next
  clear next
  obtain ⟨effortA, effortB⟩ := effortPass_bogieEfforts (passStart inputs s)
  obtain ⟨low, duty⟩ := effortPass_effortLines (passStart inputs s)
  obtain ⟨brakes, shut, drives⟩ := passGated_out (passStart inputs s)
  have kept := effortPass_direction (passStart inputs s)
  have limits := passOpened_limits (passStart inputs s)
  have frame := effortPass_frame (passStart inputs s)
  have previous := effortPass_previousDemand (passStart inputs s)
  have gate := effortPass_gate (passStart inputs s)
  obtain ⟨-, -, -, -, -, due, -⟩ := effortPass_setup (passStart inputs s)
  have other := effortPass_otherLines (s := passStart inputs s)
  have leads := effortPass_leadLines (s := passStart inputs s)
  rw [← done] at effortA effortB low duty kept frame previous gate due other leads
  clear done
  refine ⟨effortA, effortB, kept.powerLimit.trans limits.power, kept.brakeLimit.trans limits.brake, fun rest still => low ⟨rest, still⟩,
    fun moves => duty fun rest => moves.elim (fun other => other rest.1) fun other => other rest.2, fun lead => ?_, other, due, frame.axle,
    frame.role, frame.coupled, frame.demandU, frame.vigilance, frame.route, frame.junction, frame.stop, frame.loaded, frame.frozen,
    frame.now, frame.host⟩
  obtain ⟨demand, fwd, rev⟩ := leads lead
  rw [previous, gate]
  refine ⟨fun brake => ?_, fun power closed => ?_, fun power isOpen still => ?_, fwd, rev⟩
  · rw [demand, brakes brake]; rfl
  · rw [demand, shut closed power]; rfl
  · rw [demand, drives isOpen still]; rfl

end Sys2Proof.Machine
end

section
/-! The opening of a pass: the direction judged, and the exit from INHIBITED (R21, R22, R26 to R29, R79). -/

namespace Sys2Proof.Machine

variable {s t u : State}

theorem positionOf_selected (a b : Bool) : positionOf a b = selected a b := by cases a <;> cases b <;> rfl

/-- The pass takes a NEUTRAL that was ignored: the one case of R79 that is left free (log entry 41). -/
def retakes (s : State) : Prop := trailNeutralAtRest (selectorPosition s) s = true ∧ Config.takesIgnoredNeutral = true

/-- What the direction selector makes of a state: held, left ignored, taken or refused (R26, R27, R79). -/
inductive DirectionJudged (st : SettingsStore) (s : State) : State → Prop
  | held (same : selectorPosition s = s.traction.direction) :
    DirectionJudged st s (s.setTraction { s.traction with ignored := none })
  | left (other : selectorPosition s ≠ s.traction.direction) (ignored : s.traction.ignored = some (selectorPosition s))
    (stays : ¬retakes s) : DirectionJudged st s s
  | taken (other : selectorPosition s ≠ s.traction.direction)
    (fresh : s.traction.ignored ≠ some (selectorPosition s) ∨ retakes s) (rest : s.axle.standstill = true) :
    DirectionJudged st s (takeDirection st (selectorPosition s) s)
  | refused (other : selectorPosition s ≠ s.traction.direction) (fresh : s.traction.ignored ≠ some (selectorPosition s))
    (moves : s.axle.standstill = false) : DirectionJudged st s (ignoreDirection (selectorPosition s) s)

theorem retakes_rest (h : retakes s) : s.axle.standstill = true := by
  have trail := h.1
  simp only [trailNeutralAtRest, Bool.and_eq_true] at trail
  exact trail.2

theorem judgeDirection_judged (st : SettingsStore) (s : State) : DirectionJudged st s (judgeDirection st s) := by
  have left : (s.traction.ignored = some (selectorPosition s) ∧
      (trailNeutralAtRest (selectorPosition s) s && Config.takesIgnoredNeutral) = false) ↔
      s.traction.ignored = some (selectorPosition s) ∧ ¬retakes s := by simp [retakes]
  unfold judgeDirection judgeDirectionBy
  dsimp only
  split
  next same => exact .held same
  next other =>
    split
    next ignored => exact .left other ignored.1 (left.1 ignored).2
    next fresh =>
      rw [left] at fresh
      have new : s.traction.ignored ≠ some (selectorPosition s) ∨ retakes s := by
        by_cases ignored : s.traction.ignored = some (selectorPosition s)
        · exact .inr (not_not.1 fun stays => fresh ⟨ignored, stays⟩)
        · exact .inl ignored
      split
      next rest => exact .taken other new rest
      next moves =>
        have still : s.axle.standstill = false := by simpa using moves
        exact .refused other (new.resolve_right fun h => moves (retakes_rest h)) still

/-- What the opening reads of the selector and of the state before it is not changed by the limits. -/
theorem takeLimits_reads (s : State) : selectorPosition (takeLimits s) = selectorPosition s ∧
    (takeLimits s).traction.direction = s.traction.direction ∧ (takeLimits s).traction.ignored = s.traction.ignored ∧
    (takeLimits s).traction.settle = s.traction.settle ∧ (takeLimits s).axle = s.axle ∧ (retakes (takeLimits s) ↔ retakes s) :=
  ⟨rfl, rfl, rfl, rfl, rfl, Iff.rfl⟩

/-! ### The exit from INHIBITED -/

/-- What the exit from INHIBITED leaves: it writes the traction state and a retained pulse alone. -/
structure ExitFrame (s u : State) : Prop where
  axle : u.axle = s.axle
  host : u.host = s.host
  pins : u.pins = s.pins
  traction : u.traction = { s.traction with state := u.traction.state }
  lines : u.lines = { s.lines with retained := u.lines.retained }

theorem exitFrame_walk (s : State) : ExitWalk (ExitFrame s) where
  leave := fun {u _} _ _ h => { h with traction := by rw [State.setTraction_traction, h.traction] }
  start := fun {u} _ h => { h with traction := by rw [State.setTraction_traction, h.traction] }
  spend := fun {u} h => { h with lines := by rw [State.setLines_lines, h.lines] }

theorem judgeExit_frame (s : State) : ExitFrame s (judgeExit s) := judgeExit_exit (exitFrame_walk s) ⟨rfl, rfl, rfl, rfl, rfl⟩

/-- An inhibit reason is as the direction, the door, the role and the settle timer give it (R21). -/
theorem inhibitReason_iff (s : State) : inhibitReason s = true ↔
    s.traction.direction = .neutral ∨ s.pins.doorRelease = true ∨ s.lines.role = .conflict ∨ s.lines.role = .noCab ∨
    s.traction.settle ≠ none := by
  simp [inhibitReason, or_assoc, Option.isSome_iff_ne_none]

theorem ExitFrame.reason (h : ExitFrame s u) : inhibitReason u = inhibitReason s := by
  unfold inhibitReason; rw [h.traction, h.lines, h.pins]

theorem judgeExit_stays (held : s.traction.state ≠ .inhibited ∨ inhibitReason s = true) : judgeExit s = s := by
  unfold judgeExit
  refine if_neg fun free => ?_
  rcases held with other | reason
  · exact other free.1
  · rw [reason] at free; exact absurd free.2 (by decide)

/-- A unit that leaves INHIBITED is RUNNING, or coupled and START_HELD (R22). -/
theorem judgeExit_leaves (inhibited : s.traction.state = .inhibited) (free : inhibitReason s = false) :
    (judgeExit s).traction.state = .running ∨ s.lines.coupled = true ∧ (judgeExit s).traction.state = .startHeld := by
  unfold judgeExit
  rw [if_pos ⟨inhibited, free⟩]
  split
  next coupled =>
    unfold enterStartHeld deliverStart
    dsimp only
    split
    · exact .inr ⟨coupled, rfl⟩
    · split
      · exact .inl rfl
      · exact .inr ⟨coupled, rfl⟩
  · exact .inl rfl

/-! ### The event of a refused direction -/

/-- Of the event set a pass changes no record of DIRECTION CHANGE IGNORED once it is opened (R27). -/
theorem OutputWalk.events {P : State → Prop} (only : ∀ s u, u.host = s.host → P s → P u)
    (raises : ∀ {s : State} {k j : Nat} {v : Int}, k ≠ 9 → P s → P (Machine.raise k j v s)) : OutputWalk P := {
  ToneWalk.events only (fun tone => raises (by omega)) with
  raise := fun other _ h => raises other h
  start := fun {s} _ h => only s _ rfl h
  ack := fun {s _} h => only s _ rfl h
  release := fun {s} _ _ h => only s _ rfl h
  pulse := fun {s _ _ _} h => only s _ rfl h
  read := fun {s _ _ _ _ _ _} h => only s _ rfl h
  lose := fun h => judgeDrive_events only (fun tone => raises (by omega)) (joinCauses_events only (fun tone => raises (by omega)) h)
  roll := fun h => judgeDrive_events only (fun tone => raises (by omega)) (joinCauses_events only (fun tone => raises (by omega)) h)
  remove := fun {s} h => judgeDrive_events only (fun tone => raises (by omega)) (only s _ rfl h)
  overspeed := fun {s _} h => only s _ (by rw [judgeOverspeed_eq]; rfl) h
  effort := fun {s _} h => only s _ rfl h
  effortHeld := fun {s _} h => judgeLock_events (P := P) (fun {s _} h => only s _ rfl h) (raises (by decide)) (only s _ rfl h)
  adhesion := fun {s _} h => only s _ rfl h
  free := fun {s _} h => only s _ rfl h
  outputs := fun {s _ _ _ _ _} h => only s _ rfl h
  drives := fun {s _ _ _ _} h => only s _ rfl h
  stamp := fun {s _} h => only s _ rfl h }

theorem recorded_output (j : Nat) (v : Int) : OutputWalk (Recorded 9 j v) :=
  .events (fun s u same h => by unfold Recorded at *; rwa [same]) fun other h => h.raise other

theorem unrecorded_output (j : Nat) : OutputWalk (Unrecorded 9 j) :=
  .events (fun s u same h => by unfold Unrecorded at *; rwa [same]) fun other h => h.raise other

theorem effortPass_output {P : State → Prop} (W : OutputWalk P) (h : P (passOpened s)) : P (effortPass s) :=
  effortPass_of W.toLateWalk (passThird_of W.toLateWalk (stageOne_stage W.toStageWalk h))

/-! ### A unit shut in -/

/-- Once the exit is judged a unit INHIBITED or HALTED stays so through the pass (R22, R24). -/
theorem shut_walk : OutputWalk fun u => u.traction.state = .inhibited ∨ u.traction.state = .halted where
  note := fun _ h => by rw [At, raise_traction]; exact h
  sounding := fun h => by rw [At, judgeLock_traction]; exact h
  sound := fun _ h => h
  raise := fun _ _ h => by rw [At, raise_traction]; exact h
  start := fun held h => absurd h (by rw [At, held]; decide)
  ack := fun h => h
  release := fun _ _ _ => .inl rfl
  pulse := fun h => h
  read := fun h => h
  lose := fun {s} h => (addCauses_judged (s := s) (by decide) (by decide)).state.elim (fun same => by rw [At, same]; exact h) .inr
  roll := fun {s} h => (addCauses_judged (s := s) (by decide) (by decide)).state.elim (fun same => by rw [At, same]; exact h) .inr
  remove := fun {s} h => (removeCauses_judged _ s).state.elim (fun same => by rw [At, same]; exact h) .inr
  overspeed := fun {s st} h => by rw [At, (judgeOverspeed_judged st s).1]; exact h
  effort := fun h => h
  effortHeld := fun h => by rw [At, judgeLock_traction]; exact h
  adhesion := fun h => h
  free := fun h => h
  outputs := fun h => h
  drives := fun h => h
  stamp := fun h => h

/-- A direction taken inhibits the unit unless it is HALTED, and a reason then holds (R21, R28). -/
theorem takeDirection_shut {st : SettingsStore} {p : Position} (reason : p = .neutral ∨ st.nat Setting.settleTime ≠ 0) :
    inhibitReason (takeDirection st p s) = true ∧
    ((takeDirection st p s).traction.state = .inhibited ∨ (takeDirection st p s).traction.state = .halted) := by
  have shut : ∀ u : State, (enterInhibited u).traction.state = .inhibited ∨ (enterInhibited u).traction.state = .halted := fun u => by
    unfold enterInhibited
    split
    · exact .inl (closeGate_cases _).1
    · exact .inl rfl
    · cases h : u.traction.state <;> simp_all
  unfold takeDirection
  dsimp only
  rw [if_pos reason]
  refine ⟨?_, shut _⟩
  rw [inhibitReason_iff, enterInhibited_setup]
  rcases reason with neutral | settles
  · exact .inl neutral
  · refine .inr (.inr (.inr (.inr ?_)))
    show (if st.nat Setting.settleTime = 0 then s.traction.settle else some (s.now + st.nat Setting.settleTime)) ≠ none
    rw [if_neg settles]
    exact Option.some_ne_none _

end Sys2Proof.Machine
end

section
/-! The direction a pass takes, ignores or holds (R26 to R29, R79). -/

namespace Sys2Proof.Machine

variable {s t d : State}

/-- What a pass carries on from the direction it has judged. -/
structure DirectionCarried (d t : State) : Prop where
  axle : t.axle = d.axle
  direction : t.traction.direction = d.traction.direction
  ignored : t.traction.ignored = d.traction.ignored
  settle : t.traction.settle = d.traction.settle
  told : ∀ j v, Recorded 9 j v d → Recorded 9 j v t
  untold : ∀ j, Unrecorded 9 j d → Unrecorded 9 j t
  shut : inhibitReason d = true → d.traction.state = .inhibited ∨ d.traction.state = .halted →
    t.traction.state = .inhibited ∨ t.traction.state = .halted

theorem effortPass_carried (s : State) : DirectionCarried (judgeDirection s.settings (takeLimits s)) (effortPass s) := by
  have frame := judgeExit_frame (judgeDirection s.settings (takeLimits s))
  have kept := effortPass_direction s
  have opened : judgeExit (judgeDirection s.settings (takeLimits s)) = passOpened s := rfl
  have told := fun j v => effortPass_output (s := s) (recorded_output j v)
  have untold := fun j => effortPass_output (s := s) (unrecorded_output j)
  have shut := effortPass_output (s := s) shut_walk
  generalize effortPass s = t at kept told untold shut ⊢
  generalize judgeDirection s.settings (takeLimits s) = d at frame opened ⊢
  rw [← opened] at kept told untold shut
  refine ⟨kept.axle.trans frame.axle, kept.direction.trans ?_, kept.ignored.trans ?_, kept.settle.trans ?_,
    fun j v record => told j v ?_, fun j none => untold j ?_, fun reason state => shut ?_⟩
  · rw [frame.traction]
  · rw [frame.traction]
  · rw [frame.traction]
  · unfold Recorded at *; rw [frame.host]; exact record
  · unfold Unrecorded at *; rw [frame.host]; exact none
  · rw [judgeExit_stays (.inr reason)]; exact state

/-- INV_DIR follows the direction held (R29). -/
theorem effortPass_invDir (s : State) :
    (effortPass s).traction.invDir = invDirUnder (effortPass s).traction.direction s.traction.invDir := by
  obtain ⟨-, -, -, -, invDir, -⟩ := effortPass_setup s
  rw [invDir, (effortPass_direction s).direction, ← (passThird_direction s).direction, (passThird_kept s).1]

/-- What the direction unit takes, ignores or holds at the pass that ends in `t` (R26 to R28, R79). -/
structure DirectionSettled (s t : State) (p : Position) (retaken : Prop) : Prop where
  held : p = s.traction.direction →
    t.traction.direction = p ∧ t.traction.ignored = none ∧ t.traction.settle = s.traction.settle
  ignored : p ≠ s.traction.direction → s.traction.ignored = some p ∧ ¬retaken ∨ s.axle.standstill = false →
    t.traction.direction = s.traction.direction ∧ t.traction.ignored = some p ∧ t.traction.settle = s.traction.settle ∧
    t.axle.sense = s.axle.sense
  taken : p ≠ s.traction.direction → s.traction.ignored ≠ some p ∨ retaken → s.axle.standstill = true →
    t.traction.direction = p ∧ t.traction.ignored = none ∧
    t.traction.settle = (if s.cfgN Setting.settleTime = 0 then s.traction.settle else some (s.now + s.cfgN Setting.settleTime)) ∧
    t.axle.sense = senseUnder p s.axle.sense ∧
    (p = .neutral ∨ s.cfgN Setting.settleTime ≠ 0 → t.traction.state = .inhibited ∨ t.traction.state = .halted)
  told : p ≠ s.traction.direction ∧ s.traction.ignored ≠ some p ∧ s.axle.standstill = false → Told s t 9 p.code s.axle.refSpeed
  untold : ¬(p ≠ s.traction.direction ∧ s.traction.ignored ≠ some p ∧ s.axle.standstill = false) → ∀ n, Untold s t 9 n

/-- A direction taken as the pass carries it on (R28). -/
theorem takeDirection_carried {p : Position} (carried : DirectionCarried (takeDirection s.settings p (takeLimits s)) t) :
    t.traction.direction = p ∧ t.traction.ignored = none ∧
    t.traction.settle = (if s.cfgN Setting.settleTime = 0 then s.traction.settle else some (s.now + s.cfgN Setting.settleTime)) ∧
    t.axle.sense = senseUnder p s.axle.sense := by
  rw [carried.direction, carried.ignored, carried.settle, carried.axle]
  unfold takeDirection
  dsimp only
  split
  · rw [enterInhibited_setup, enterInhibited_eq]
    exact ⟨rfl, rfl, rfl, rfl⟩
  · exact ⟨rfl, rfl, rfl, rfl⟩

theorem takeDirection_host (st : SettingsStore) (p : Position) (s : State) : (takeDirection st p s).host = s.host := by
  unfold takeDirection
  dsimp only
  split
  · rw [enterInhibited_eq]; rfl
  · rfl

/-- A set empty before the pass has no record of an ignored direction after one that refuses none. -/
theorem DirectionCarried.quiet (carried : DirectionCarried d t) (host : d.host = s.host) (n : Nat) : Untold s t 9 n := fun empty =>
  carried.untold n fun x inside => by rw [host, empty] at inside; cases inside

theorem effortPass_settled (s : State) : DirectionSettled s (effortPass s) (selectorPosition s) (retakes s) := by
  have carried := effortPass_carried s
  have judged := judgeDirection_judged s.settings (takeLimits s)
  generalize effortPass s = t at carried ⊢
  generalize judgeDirection s.settings (takeLimits s) = d at carried judged
  cases judged with
  | held same =>
    exact {
      held := fun _ => ⟨carried.direction.trans same.symm, carried.ignored, carried.settle⟩
      ignored := fun other => absurd same other
      taken := fun other => absurd same other
      told := fun refused => absurd same refused.1
      untold := fun _ => carried.quiet rfl }
  | left other ignored stays =>
    exact {
      held := fun same => absurd same other
      ignored := fun _ _ => ⟨carried.direction, carried.ignored.trans ignored, carried.settle, congrArg _ carried.axle⟩
      taken := fun _ fresh _ => fresh.elim (fun new => absurd ignored new) fun retaken => absurd retaken stays
      told := fun refused => absurd ignored refused.2.1
      untold := fun _ => carried.quiet rfl }
  | taken other fresh rest =>
    obtain ⟨direction, ignored, settle, sense⟩ := takeDirection_carried carried
    have moves : ¬s.axle.standstill = false := by rw [show s.axle.standstill = true from rest]; decide
    exact {
      held := fun same => absurd same other
      ignored := fun _ left => left.elim (fun left => (fresh.elim (fun new => absurd left.1 new) fun retaken => absurd retaken left.2))
        fun still => absurd still moves
      taken := fun _ _ _ => ⟨direction, ignored, settle, sense, fun reason =>
        have shut := takeDirection_shut (st := s.settings) (s := takeLimits s) reason
        carried.shut shut.1 shut.2⟩
      told := fun refused => absurd refused.2.2 moves
      untold := fun _ => carried.quiet (takeDirection_host _ _ _) }
  | refused other fresh moves =>
    exact {
      held := fun same => absurd same other
      ignored := fun _ _ => ⟨by rw [carried.direction, ignoreDirection, raise_traction]; rfl,
        by rw [carried.ignored, ignoreDirection, raise_traction]; rfl, by rw [carried.settle, ignoreDirection, raise_traction]; rfl,
        by rw [carried.axle, ignoreDirection, raise_axle]; rfl⟩
      taken := fun _ _ rest => absurd (rest.symm.trans moves) (by decide)
      told := fun _ => (carried.told _ _ (raise_recorded _ _ _ _)).told
      untold := fun none => absurd ⟨other, fresh, moves⟩ none }

/-- The position the selector gives at a pass (R26, R79). -/
theorem selectorPosition_start (inputs : PassInputs) (s : State) : selectorPosition (passStart inputs s) =
    if s.lines.role = .trail then selected inputs.tlFwd inputs.tlRev else selected inputs.dirF inputs.dirR := by
  rw [← positionOf_selected, ← positionOf_selected]; rfl

/-- Settles O29: the selector judged once, and what a pass carries on from it. -/
theorem directionTakenAtStandstill : Obligations.DirectionTakenAtStandstill := by
  intro inputs s t next
  have settled := effortPass_settled (passStart inputs s)
  have invDir := effortPass_invDir (passStart inputs s)
  rw [← exec_controlPeriod_next next] at settled invDir
  have free : s.axle.standstill = true → (retakes (passStart inputs s) ↔ s.lines.role = .trail ∧
      selectorPosition (passStart inputs s) = .neutral ∧ Config.takesIgnoredNeutral = true) := fun rest => by
    simp only [retakes, trailNeutralAtRest, Bool.and_eq_true, beq_iff_eq, and_assoc]
    exact and_congr_right fun _ => and_congr_right fun _ => and_iff_right rest
  rw [selectorPosition_start] at settled free
  intro now p settle retaken
  refine ⟨settled.held, fun other left => settled.ignored other ?_, fun other fresh rest => settled.taken other ?_ rest,
    ⟨settled.told, settled.untold⟩, invDir⟩
  · by_cases rest : s.axle.standstill = true
    · exact left.imp_left fun ignored => ⟨ignored.1, fun h => ignored.2 ((free rest).1 h)⟩
    · exact .inr (Bool.eq_false_of_not_eq_true rest)
  · exact fresh.imp_right (free rest).2

end Sys2Proof.Machine
end

section
/-! The demand a pass reads (R30 to R33), and the emergency brake it leaves. -/

namespace Sys2Proof.Machine

variable {s t : State}

/-! ### Stage 1, role by role -/

/-- The table of the HANDLE codes (R30). -/
theorem handleDemand_table (c : Nat) :
    (c ≤ 7 → handleDemand c = some (-1000, true)) ∧
    (8 ≤ c → c ≤ 103 → handleDemand c = some (-(((104 - c) * 1000 / 96 : Nat) : Int), false)) ∧
    (104 ≤ c → c ≤ 151 → handleDemand c = some (0, false)) ∧
    (152 ≤ c → c ≤ 247 → handleDemand c = some ((((c - 151) * 1000 / 96 : Nat) : Int), false)) ∧
    (247 < c → handleDemand c = none) := by
  unfold handleDemand
  refine ⟨fun h => if_pos h, fun low high => ?_, fun low high => ?_, fun low high => ?_, fun low => ?_⟩
  · rw [if_neg (by omega), if_pos high]
  · rw [if_neg (by omega), if_neg (by omega), if_pos high]
  · rw [if_neg (by omega), if_neg (by omega), if_neg (by omega), if_pos high]
  · rw [if_neg (by omega), if_neg (by omega), if_neg (by omega), if_neg (by omega)]

theorem handleDemand_valid {c : Nat} (valid : c ≤ 247) : ∃ h e, handleDemand c = some (h, e) := by
  obtain ⟨full, brake, off, power, -⟩ := handleDemand_table c
  by_cases first : c ≤ 7
  · exact ⟨_, _, full first⟩
  · by_cases second : c ≤ 103
    · exact ⟨_, _, brake (by omega) second⟩
    · by_cases third : c ≤ 151
      · exact ⟨_, _, off (by omega) third⟩
      · exact ⟨_, _, power (by omega) valid⟩

theorem readHandle_valid {h : Int} {e : Bool} (valid : handleDemand s.pins.handle = some (h, e)) :
    readHandle s = (s.setTraction { s.traction with
      lastH := h, lastHEmergency := e, invalidRun := none, handleFaultMark := false, inEmergency := e }, h) := by
  unfold readHandle; rw [valid]

/-- What a pass that reads an invalid code leaves (R31). -/
theorem readHandle_invalid (invalid : handleDemand s.pins.handle = none) :
    let start := s.traction.invalidRun.getD s.now
    let held := s.now < start + 200
    (readHandle s).2 = (if held then s.traction.lastH else 0) ∧ (readHandle s).1.halt = s.halt ∧
    (readHandle s).1.traction.invalidRun = some start ∧
    (readHandle s).1.traction.inEmergency = (decide held && s.traction.lastHEmergency) ∧
    (start + 1000 ≤ s.now → (readHandle s).1.traction.handleFaultMark = true) := by
  unfold readHandle
  rw [invalid]
  unfold readInvalid raiseHandleFault
  dsimp only
  refine ⟨by simp, ?_, ?_, ?_, fun long => ?_⟩
  · split
    · rw [raise_halt]; rfl
    · rfl
  · split
    · rw [raise_traction]; rfl
    · rfl
  · split
    · rw [raise_traction]; rfl
    · rfl
  · split
    · rw [raise_traction]; rfl
    next marked => simpa [long] using marked

/-- What a pass of a TRAIL reads of DEMAND (R32). -/
theorem readDemand_valid (valid : 30 ≤ s.lines.demandU ∧ s.lines.demandU ≤ 970) : readDemand s =
    (removeCauses [.demandLost] (s.setTraction { s.traction with demandLoss := none }), demandOf s.lines.demandU) := by
  unfold readDemand; exact if_pos (by simp [demandValid, valid])

theorem readDemand_invalid (invalid : ¬(30 ≤ s.lines.demandU ∧ s.lines.demandU ≤ 970)) :
    let start := s.traction.demandLoss.getD s.now
    let run := s.setTraction { s.traction with demandLoss := some start }
    readDemand s = (if start + 100 ≤ s.now ∧ s.halt.causes.demandLost = false then loseDemand run else run, 0) := by
  unfold readDemand; exact if_neg (by simpa [demandValid] using invalid)

theorem loseDemand_setup (s : State) : s.traction.SameSetup (loseDemand s).traction := by
  unfold loseDemand; rw [raise_traction]; exact addCauses_setup _ _

theorem loseDemand_has {y : Cause} (other : y ≠ .trainline) :
    (loseDemand s).halt.causes.has y = if y = .demandLost then true else s.halt.causes.has y := by
  unfold loseDemand; rw [raise_halt, addCauses_has other]; simp

/-- The causes the reading of a demand leaves: DEMAND LOST by the duty of a TRAIL, the others but TRAINLINE as they were (R32). -/
theorem readDemandOf_causes (s : State) :
    (∀ y, y ≠ .trainline → y ≠ .demandLost → (readDemandOf s).1.halt.causes.has y = s.halt.causes.has y) ∧
    (readDemandOf s).1.halt.causes.demandLost =
      (if s.lines.role ≠ .trail then s.halt.causes.demandLost
      else if 30 ≤ s.lines.demandU ∧ s.lines.demandU ≤ 970 then false
      else s.halt.causes.demandLost || decide (s.traction.demandLoss.getD s.now + 100 ≤ s.now)) := by
  have others : ∀ u : State, u.halt.causes = s.halt.causes →
      (∀ y, y ≠ .trainline → y ≠ .demandLost → u.halt.causes.has y = s.halt.causes.has y) := fun u same y _ _ => by rw [same]
  unfold readDemandOf
  cases role : s.lines.role with
  | lead =>
    have same : (readHandle s).1.halt = s.halt := by
      cases valid : handleDemand s.pins.handle with
      | none => exact (readHandle_invalid valid).2.1
      | some h => rw [readHandle_valid (h := h.1) (e := h.2) valid]; rfl
    dsimp only
    rw [same]
    exact ⟨fun _ _ _ => rfl, by simp⟩
  | noCab => exact ⟨others (noEmergency s) rfl, by simp [noEmergency]⟩
  | conflict => exact ⟨others (noEmergency s) rfl, by simp [noEmergency]⟩
  | trail =>
    have own : ¬(Role.trail ≠ Role.trail) := by simp
    dsimp only
    rw [if_neg own]
    by_cases valid : 30 ≤ s.lines.demandU ∧ s.lines.demandU ≤ 970
    · rw [readDemand_valid (s := noEmergency s) valid]
      refine ⟨fun y line lost => ?_, ?_⟩
      · rw [removeCauses_has line, if_neg (by simpa using lost)]; rfl
      · rw [if_pos valid]
        exact removeCauses_has (y := .demandLost) (by decide) _ _
    · rw [readDemand_invalid (s := noEmergency s) valid, if_neg valid]
      dsimp only
      split
      next lost =>
        refine ⟨fun y line own => ?_, ?_⟩
        · rw [loseDemand_has line, if_neg own]; rfl
        · rw [decide_eq_true (p := s.traction.demandLoss.getD s.now + 100 ≤ s.now) lost.1, Bool.or_true]
          exact loseDemand_has (y := .demandLost) (by decide)
      next kept =>
        refine ⟨fun _ _ _ => rfl, ?_⟩
        show s.halt.causes.demandLost = _
        by_cases present : s.halt.causes.demandLost = true
        · rw [present]; rfl
        · have short : ¬s.traction.demandLoss.getD s.now + 100 ≤ s.now := fun long => kept ⟨long, Bool.eq_false_of_not_eq_true present⟩
          rw [decide_eq_false short, Bool.or_false]

/-- The run of an invalid duty, and the emergency a TRAIL or a unit with no demand does not count (R32, R33). -/
theorem readDemandOf_trail (trail : s.lines.role = .trail) :
    (readDemandOf s).1.traction.inEmergency = false ∧
    (30 ≤ s.lines.demandU ∧ s.lines.demandU ≤ 970 →
      (readDemandOf s).2 = demandOf s.lines.demandU ∧ (readDemandOf s).1.traction.demandLoss = none) ∧
    (¬(30 ≤ s.lines.demandU ∧ s.lines.demandU ≤ 970) →
      (readDemandOf s).2 = 0 ∧ (readDemandOf s).1.traction.demandLoss = some (s.traction.demandLoss.getD s.now)) := by
  unfold readDemandOf
  rw [trail]
  dsimp only
  by_cases valid : 30 ≤ s.lines.demandU ∧ s.lines.demandU ≤ 970
  · rw [readDemand_valid (s := noEmergency s) valid, removeCauses_setup]
    exact ⟨rfl, fun _ => ⟨rfl, rfl⟩, fun invalid => absurd valid invalid⟩
  · rw [readDemand_invalid (s := noEmergency s) valid]
    dsimp only
    split
    · rw [loseDemand_setup]
      exact ⟨rfl, fun h => absurd h valid, fun _ => ⟨rfl, rfl⟩⟩
    · exact ⟨rfl, fun h => absurd h valid, fun _ => ⟨rfl, rfl⟩⟩

theorem readDemandOf_idle (idle : s.lines.role = .noCab ∨ s.lines.role = .conflict) :
    (readDemandOf s).2 = 0 ∧ (readDemandOf s).1.traction.inEmergency = false := by
  unfold readDemandOf
  rcases idle with role | role <;> rw [role] <;> exact ⟨rfl, rfl⟩

theorem readDemandOf_lead (lead : s.lines.role = .lead) : readDemandOf s = readHandle s := by unfold readDemandOf; rw [lead]

/-! ### What a pass carries on -/

theorem effortPass_read (s : State) : ReadKept (passRead s) (effortPass s) := by
  have W := readKept_walk (passRead s)
  have first : ReadKept (passRead s) (passFirst s) := judgeEmission_stage W.toAckWalk (acknowledge_stage W.toAckWalk (ReadKept.refl _))
  exact effortPass_of W.toLateWalk (passThird_of W.toLateWalk first)

/-- What stage 1 reads at a pass is what stood before it, the pins and the time being those of the pass. -/
structure ReadsSame (s o : State) : Prop where
  pins : o.pins = s.pins
  now : o.now = s.now
  role : o.lines.role = s.lines.role
  demandU : o.lines.demandU = s.lines.demandU
  lastH : o.traction.lastH = s.traction.lastH
  lastHEmergency : o.traction.lastHEmergency = s.traction.lastHEmergency
  invalidRun : o.traction.invalidRun = s.traction.invalidRun
  demandLoss : o.traction.demandLoss = s.traction.demandLoss
  causes : o.halt.causes = s.halt.causes

theorem passOpened_reads (s : State) : ReadsSame s (passOpened s) := by
  have frame := passOpened_pass s
  have opened := passOpened_frame s
  refine ⟨frame.pins, frame.now, frame.role, frame.demandU, ?_, ?_, ?_, ?_, by rw [opened.halt]⟩ <;> rw [opened.traction]

/-- EB after a pass: BREACH, or a LEAD whose handle counts as in EMERGENCY (R33). -/
theorem effortPass_emergency (s : State) : ebAsserted (effortPass s) = true ↔
    s.halt.causes.breach = true ∨ s.lines.role = .lead ∧ (passRead s).traction.inEmergency = true := by
  have read := effortPass_read s
  have breach : (effortPass s).halt.causes.breach = s.halt.causes.breach :=
    (read.causes .breach (by decide) (by decide)).trans (((readDemandOf_causes (passOpened s)).1 .breach (by decide) (by decide)).trans
      (by rw [(passOpened_reads s).causes]; rfl))
  unfold ebAsserted fullBraking
  rw [breach, read.inEmergency, (effortPass_frame s).role]
  simp [or_comm]

/-- Stage 1 in a LEAD, as the pass leaves it (R30, R31, R33). -/
theorem effortPass_lead (lead : s.lines.role = .lead) :
    (∀ h e, handleDemand s.pins.handle = some (h, e) →
      passDemand s = h ∧ (effortPass s).traction.lastH = h ∧ (effortPass s).traction.invalidRun = none ∧
      (effortPass s).traction.handleFaultMark = false ∧ (passRead s).traction.inEmergency = e) ∧
    (handleDemand s.pins.handle = none →
      let start := s.traction.invalidRun.getD s.now
      passDemand s = (if s.now < start + 200 then s.traction.lastH else 0) ∧
      (effortPass s).traction.invalidRun = some start ∧
      (start + 1000 ≤ s.now → (effortPass s).traction.handleFaultMark = true) ∧
      (passRead s).traction.inEmergency = (decide (s.now < start + 200) && s.traction.lastHEmergency)) := by
  have reads := passOpened_reads s
  have role : (passOpened s).lines.role = .lead := reads.role.trans lead
  have read := effortPass_read s
  have taken : passRead s = (readHandle (passOpened s)).1 := by unfold passRead; rw [readDemandOf_lead role]
  have demand : passDemand s = (readHandle (passOpened s)).2 := by unfold passDemand; rw [readDemandOf_lead role]
  rw [read.lastH, read.invalidRun, read.handleFaultMark, taken, demand, ← reads.pins, ← reads.now, ← reads.invalidRun, ← reads.lastH,
    ← reads.lastHEmergency]
  refine ⟨fun h e valid => ?_, fun invalid => ?_⟩
  · rw [readHandle_valid valid]; exact ⟨rfl, rfl, rfl, rfl, rfl⟩
  · obtain ⟨h, -, run, emergency, mark⟩ := readHandle_invalid invalid
    exact ⟨h, run, mark, emergency⟩

/-- Stage 1 in a TRAIL, as the pass leaves it (R32, R33). -/
theorem effortPass_trail (trail : s.lines.role = .trail) :
    (passRead s).traction.inEmergency = false ∧
    (30 ≤ s.lines.demandU ∧ s.lines.demandU ≤ 970 →
      passDemand s = demandOf s.lines.demandU ∧ (effortPass s).traction.demandLoss = none) ∧
    (¬(30 ≤ s.lines.demandU ∧ s.lines.demandU ≤ 970) →
      passDemand s = 0 ∧ (effortPass s).traction.demandLoss = some (s.traction.demandLoss.getD s.now)) := by
  have reads := passOpened_reads s
  rw [(effortPass_read s).demandLoss, ← reads.now, ← reads.demandU, ← reads.demandLoss]
  exact readDemandOf_trail (reads.role.trans trail)

/-- DEMAND LOST after a pass (R32). -/
theorem effortPass_demandLost (s : State) : (effortPass s).halt.causes.demandLost =
    (if s.lines.role ≠ .trail then s.halt.causes.demandLost
    else if 30 ≤ s.lines.demandU ∧ s.lines.demandU ≤ 970 then false
    else s.halt.causes.demandLost || decide (s.traction.demandLoss.getD s.now + 100 ≤ s.now)) := by
  have reads := passOpened_reads s
  rw [← reads.role, ← reads.causes, ← reads.demandU, ← reads.demandLoss, ← reads.now]
  exact ((effortPass_read s).causes .demandLost (by decide) (by decide)).trans (readDemandOf_causes (passOpened s)).2

/-- The emergency brake of a LEAD, by the code on its HANDLE (R31, R33). -/
theorem effortPass_leadEmergency (lead : s.lines.role = .lead) : (passRead s).traction.inEmergency = true ↔
    s.pins.handle ≤ 7 ∨
      (247 < s.pins.handle ∧ s.now < s.traction.invalidRun.getD s.now + 200) ∧ s.traction.lastHEmergency = true := by
  obtain ⟨valid, invalid⟩ := effortPass_lead lead
  obtain ⟨full, brake, off, power, none⟩ := handleDemand_table s.pins.handle
  have calm : ∀ h, handleDemand s.pins.handle = some (h, false) → ¬s.pins.handle ≤ 7 → ¬247 < s.pins.handle →
      ((passRead s).traction.inEmergency = true ↔ s.pins.handle ≤ 7 ∨
        (247 < s.pins.handle ∧ s.now < s.traction.invalidRun.getD s.now + 200) ∧ s.traction.lastHEmergency = true) :=
    fun h code low high => by rw [(valid h _ code).2.2.2.2]; simp [low, high]
  by_cases low : s.pins.handle ≤ 7
  · rw [(valid _ _ (full low)).2.2.2.2]; simp [low]
  · by_cases high : 247 < s.pins.handle
    · rw [(invalid (none high)).2.2.2]; simp [low, high]
    · by_cases first : s.pins.handle ≤ 103
      · exact calm _ (brake (by omega) first) low high
      · by_cases second : s.pins.handle ≤ 151
        · exact calm _ (off (by omega) second) low high
        · exact calm _ (power (by omega) (by omega)) low high

/-- Settles O28: stage 1 role by role, as the pass leaves it. -/
theorem stageOneReadsDemand : Obligations.StageOneReadsDemand := by
  intro inputs s
  have previous := effortPass_previousDemand (passStart inputs s)
  have lead := effortPass_lead (s := passStart inputs s)
  have trail := effortPass_trail (s := passStart inputs s)
  have lost := effortPass_demandLost (passStart inputs s)
  have emergency := effortPass_emergency (passStart inputs s)
  have own := effortPass_leadEmergency (s := passStart inputs s)
  obtain ⟨full, brake, off, power, none⟩ := handleDemand_table inputs.handle
  refine ⟨_, exec_controlPeriod inputs s, ?_⟩
  generalize effortPass (passStart inputs s) = t at *
  intro now code h held
  refine ⟨fun role => ?_, fun role => ?_, fun role => ?_, ?_⟩
  · obtain ⟨valid, invalid⟩ := lead role
    refine ⟨fun low => ?_, fun low high => ?_, fun low high => ?_, fun low high => ?_, fun known => ?_, fun high => ?_⟩
    · exact previous.trans (valid _ _ (full low)).1
    · exact previous.trans (valid _ _ (brake low high)).1
    · exact previous.trans (valid _ _ (off low high)).1
    · exact previous.trans (valid _ _ (power low high)).1
    · obtain ⟨x, e, value⟩ := handleDemand_valid known
      obtain ⟨demand, last, run, mark, -⟩ := valid x e value
      exact ⟨last.trans (previous.trans demand).symm, run, mark⟩
    · obtain ⟨demand, run, mark, -⟩ := invalid (none high)
      exact ⟨previous.trans (demand.trans (if_congr (and_iff_right high).symm rfl rfl)), run, mark⟩
  · obtain ⟨-, valid, invalid⟩ := trail role
    rw [if_neg (not_not.2 (show (passStart inputs s).lines.role = .trail from role))] at lost
    refine ⟨fun low high => ?_, fun outside => ?_⟩
    · rw [if_pos (show 30 ≤ (passStart inputs s).lines.demandU ∧ (passStart inputs s).lines.demandU ≤ 970 from ⟨low, high⟩)] at lost
      obtain ⟨demand, loss⟩ := valid ⟨low, high⟩
      exact ⟨previous.trans demand, loss, lost⟩
    · have out : ¬(30 ≤ s.lines.demandU ∧ s.lines.demandU ≤ 970) := by omega
      obtain ⟨demand, loss⟩ := invalid out
      refine ⟨previous.trans demand, loss, fun long => ?_⟩
      rw [if_neg (show ¬(30 ≤ (passStart inputs s).lines.demandU ∧ (passStart inputs s).lines.demandU ≤ 970) from out),
        decide_eq_true (show (passStart inputs s).traction.demandLoss.getD (passStart inputs s).now + 100 ≤ (passStart inputs s).now
          from long), Bool.or_true] at lost
      exact lost
  · have reads := (passOpened_reads (passStart inputs s)).role
    exact previous.trans (readDemandOf_idle (s := passOpened (passStart inputs s)) (role.imp reads.trans reads.trans)).1
  · exact emergency.trans (or_congr_right (and_congr_right fun role => own role))

end Sys2Proof.Machine
end

section
/-! The traction state, E and the latch on their way through a pass (R19 to R24, R62, R66, R67, R76). -/

namespace Sys2Proof.Machine

variable {o s t u : State}

/-! ### The opening -/

/-- What the opening makes of the traction state and of E (R20 to R22, R28). -/
inductive Opening (s o : State) : Prop
  | stays (state : o.traction.state = s.traction.state) (effort : o.traction.effort = s.traction.effort)
    (reason : s.traction.state = .inhibited → inhibitReason o = true)
  | leaves (was : s.traction.state = .inhibited) (free : inhibitReason o = false) (effort : o.traction.effort = s.traction.effort)
    (state : o.traction.state = .running ∨ s.lines.coupled = true ∧ o.traction.state = .startHeld)
  | shuts (was : s.traction.state = .running ∨ s.traction.state = .startHeld) (state : o.traction.state = .inhibited)
    (reason : inhibitReason o = true) (effort : o.traction.effort = s.traction.halted.effort)
    (turned : selectorPosition s ≠ s.traction.direction)

theorem closeGate_effort (x : Traction) : (closeGate x).effort = if 0 < x.effort then 0 else x.effort := by
  split
  next power => rw [closeGate_power power, writeLines_eq]
  next still => rw [closeGate_still (not_lt.1 still)]

/-- An inhibit reason takes RUNNING and START_HELD to INHIBITED, with the power of RUNNING, and leaves the other states (R20, R21). -/
theorem enterInhibited_course (u : State) :
    (u.traction.state = .running ∨ u.traction.state = .startHeld) ∧ (enterInhibited u).traction.state = .inhibited ∧
      (enterInhibited u).traction.effort = u.traction.halted.effort ∨
    ((u.traction.state = .inhibited ∨ u.traction.state = .halted) ∧ enterInhibited u = u) := by
  rw [Traction.halted_effort_eq]
  unfold enterInhibited
  cases state : u.traction.state with
  | running =>
    refine .inl ⟨.inl rfl, (closeGate_cases _).1, (closeGate_effort _).trans ?_⟩
    exact if_congr (and_iff_right rfl).symm rfl rfl
  | startHeld => exact .inl ⟨.inr rfl, rfl, (if_neg (by simp)).symm⟩
  | inhibited => exact .inr ⟨.inl rfl, rfl⟩
  | halted => exact .inr ⟨.inr rfl, rfl⟩

/-- A direction judged leaves the traction state with E, or inhibits the unit for a reason that then holds (R28). -/
theorem judgeDirection_course (st : SettingsStore) (s : State) :
    let d := judgeDirection st s
    (d.traction.state = s.traction.state ∧ d.traction.effort = s.traction.effort) ∨
    inhibitReason d = true ∧ (s.traction.state = .running ∨ s.traction.state = .startHeld) ∧ d.traction.state = .inhibited ∧
      d.traction.effort = s.traction.halted.effort ∧ selectorPosition s ≠ s.traction.direction := by
  have judged := judgeDirection_judged st s
  dsimp only
  generalize judgeDirection st s = d at judged ⊢
  cases judged with
  | held same => exact .inl ⟨rfl, rfl⟩
  | left other ignored stays => exact .inl ⟨rfl, rfl⟩
  | refused other fresh moves => left; rw [ignoreDirection, raise_traction]; exact ⟨rfl, rfl⟩
  | taken other fresh rest =>
    by_cases reason : selectorPosition s = .neutral ∨ st.nat Setting.settleTime ≠ 0
    · have shut := (takeDirection_shut (s := s) reason).1
      unfold takeDirection at shut ⊢
      dsimp only at shut ⊢
      rw [if_pos reason] at shut ⊢
      rcases enterInhibited_course (((s.setTraction { s.traction with
          direction := selectorPosition s
          ignored := none
          settle := if st.nat Setting.settleTime = 0 then s.traction.settle else some (s.now + st.nat Setting.settleTime) }).setAxle
        { s.axle with sense := senseUnder (selectorPosition s) s.axle.sense })) with ⟨was, state, effort⟩ | ⟨-, same⟩
      · refine .inr ⟨shut, was, state, effort.trans ?_, other⟩
        rw [Traction.halted_effort_eq, Traction.halted_effort_eq]
        rfl
      · rw [same]; exact .inl ⟨rfl, rfl⟩
    · left
      unfold takeDirection
      dsimp only
      rw [if_neg reason]
      exact ⟨rfl, rfl⟩

theorem passOpened_course (s : State) : Opening s (passOpened s) := by
  have course := judgeDirection_course s.settings (takeLimits s)
  have coupled : (judgeDirection s.settings (takeLimits s)).lines.coupled = s.lines.coupled :=
    (judgeDirection_open (passFrame_walk s).toOpenWalk (s := takeLimits s) (P := PassFrame s) ⟨rfl, rfl, rfl, rfl, rfl, rfl, rfl, rfl, rfl, rfl, rfl, rfl, rfl⟩).coupled
  unfold passOpened
  dsimp only at course
  generalize judgeDirection s.settings (takeLimits s) = d at course coupled ⊢
  have frame := judgeExit_frame d
  have effort : (judgeExit d).traction.effort = d.traction.effort := by rw [frame.traction]
  rcases course with ⟨state, same⟩ | ⟨reason, was, state, closed, turned⟩
  · by_cases free : d.traction.state = .inhibited ∧ inhibitReason d = false
    · exact .leaves (state.symm.trans free.1) (frame.reason.trans free.2) (effort.trans same)
        ((judgeExit_leaves free.1 free.2).imp_right fun held => ⟨coupled.symm.trans held.1, held.2⟩)
    · have held : d.traction.state ≠ .inhibited ∨ inhibitReason d = true := by
        by_cases inhibited : d.traction.state = .inhibited
        · exact .inr (by simpa using fun off => free ⟨inhibited, off⟩)
        · exact .inl inhibited
      rw [judgeExit_stays held]
      exact .stays state same fun inhibited => held.resolve_left fun other => other (state.trans inhibited)
  · rw [judgeExit_stays (.inr reason)]
    exact .shuts was state reason (closed.trans (by rw [Traction.halted_effort_eq, Traction.halted_effort_eq]; rfl)) turned

/-! ### Stage 1 -/

theorem LatchJudged.raise {k j : Nat} {v : Int} (other : k ≠ 30) (h : LatchJudged s t) : LatchJudged s (raise k j v t) := by
  rcases h with ⟨latch, run, state, effort, sound⟩ | ⟨clear, ⟨first, latches⟩, any, effort⟩
  · exact .inl ⟨by rw [raise_halt]; exact latch, by rw [raise_halt]; exact run, by rw [raise_traction]; exact state,
      by rw [raise_traction]; exact effort, by rw [raise_sound]; exact sound⟩
  · exact .inr ⟨clear, ⟨first, latches.raise other⟩, by rw [raise_halt]; exact any, by rw [raise_traction]; exact effort⟩

/-- The reading of a demand makes of the latch what DEMAND LOST makes of it (R32). -/
theorem readDemandOf_judged (s : State) : LatchJudged s (readDemandOf s).1 := by
  have same : ∀ x : Traction, x.state = s.traction.state → x.effort = s.traction.effort → LatchAlike s (s.setTraction x) :=
    fun x state effort => ⟨rfl, rfl, rfl, rfl, rfl, rfl, state, effort, rfl⟩
  have stays : ∀ x : Traction, x.state = s.traction.state → x.effort = s.traction.effort → LatchJudged s (s.setTraction x) :=
    fun x state effort => .inl ⟨rfl, rfl, state, effort, rfl⟩
  unfold readDemandOf
  split
  · unfold readHandle
    split
    · exact stays _ rfl rfl
    · unfold readInvalid raiseHandleFault
      dsimp only
      split
      · exact (stays { s.traction with invalidRun := _, inEmergency := _, handleFaultMark := true } rfl rfl).raise (by decide)
      · exact stays _ rfl rfl
  · unfold readDemand noEmergency
    split
    · exact (removeCauses_judged _ _).alike (same { s.traction with inEmergency := false, demandLoss := none } rfl rfl)
    · dsimp only
      split
      · exact ((addCauses_judged (by decide) (by decide)).alike
          (same { s.traction with inEmergency := false, demandLoss := _ } rfl rfl)).raise (by decide)
      · exact stays { s.traction with inEmergency := false, demandLoss := _ } rfl rfl
  · exact stays _ rfl rfl

/-- What the acknowledgement makes of a state: the run alone, or the latch is released (R66, R67). -/
inductive Acknowledged (h : Int) (s t : State) : Prop
  | runs (traction : t.traction = s.traction) (latch : t.halt.latch = s.halt.latch) (sound : t.sound = s.sound) (host : t.host = s.host)
  | releases (full : h ≤ -900) (free : s.halt.causes.any = false) (set : s.halt.latch ≠ none)
    (traction : t.traction = { s.traction with state := .inhibited }) (latch : t.halt.latch = none)

theorem acknowledge_judged (h : Int) (s : State) : Acknowledged h s (acknowledge h s) ∧
    (acknowledge h s).halt.causes = s.halt.causes ∧ (acknowledge h s).lines = s.lines := by
  unfold acknowledge
  split
  next held =>
    simp only [Bool.and_eq_true, decide_eq_true_eq, Bool.not_eq_true'] at held
    dsimp only
    split
    · unfold releaseLatch
      split
      next none => rw [none] at held; exact absurd held.1.1 (by simp)
      next r set =>
        refine ⟨.releases held.2 held.1.2 (by simp [set]) ?_ ?_, ?_, ?_⟩ <;> simp
    · exact ⟨.runs rfl rfl rfl rfl, rfl, rfl⟩
  · exact ⟨.runs rfl rfl rfl rfl, rfl, rfl⟩

theorem haltLineReleased_iff (s : State) : haltLineReleased s = true ↔ s.lines.halting = false ∧ s.pins.haltLine = false := by
  simp [haltLineReleased]

/-- A start pulse takes a held unit to RUNNING where the HALT line is released, and does no more to the traction unit (R23). -/
theorem deliverStart_traction (s : State) : (deliverStart s).traction =
    if s.traction.state = .startHeld ∧ haltLineReleased s = true then { s.traction with state := .running } else s.traction := by
  unfold deliverStart; split <;> rfl

theorem deliverStart_rest (s : State) :
    (deliverStart s).halt = s.halt ∧ (deliverStart s).sound = s.sound ∧ (deliverStart s).lines = s.lines ∧
    (deliverStart s).settings = s.settings ∧ (deliverStart s).now = s.now ∧ (deliverStart s).host = s.host := by
  unfold deliverStart; split <;> exact ⟨rfl, rfl, rfl, rfl, rfl, rfl⟩

theorem startPulse_rest (s : State) :
    (startPulse s).traction = (deliverStart s).traction ∧ (startPulse s).halt = s.halt ∧ (startPulse s).sound = s.sound ∧
    (startPulse s).host = s.host ∧ (startPulse s).lines = { s.lines with
      retained := if s.cfgN Setting.startRetention = 0 then s.lines.retained
        else some (s.now + s.cfgN Setting.startRetention) } := by
  obtain ⟨halt, sound, lines, settings, now, host⟩ := deliverStart_rest s
  have kept : (deliverStart s).cfgN Setting.startRetention = s.cfgN Setting.startRetention := by
    unfold State.cfgN SettingsStore.nat; rw [settings]
  unfold startPulse
  dsimp only
  rw [kept]
  split
  · exact ⟨rfl, halt, sound, host, lines⟩
  · refine ⟨rfl, halt, sound, host, ?_⟩
    rw [State.setLines_lines, lines, now]

/-- What the start emission leaves of each block (R76). -/
theorem judgeEmission_rest (h : Int) (s : State) :
    (judgeEmission h s).traction = (if emits h s = true ∧ s.traction.state = .startHeld then { s.traction with state := .running }
      else s.traction) ∧
    (judgeEmission h s).halt = s.halt ∧ (judgeEmission h s).sound = s.sound ∧ (judgeEmission h s).host = s.host ∧
    (judgeEmission h s).lines = { s.lines with
      previousDemand := h
      emission := if emits h s then some (s.now + 50) else s.lines.emission
      retained := if emits h s = true ∧ s.cfgN Setting.startRetention ≠ 0 then some (s.now + s.cfgN Setting.startRetention)
        else s.lines.retained } := by
  unfold judgeEmission
  by_cases emitted : emits h s = true
  · have released : haltLineReleased s = true := by
      simp only [emits, Bool.and_eq_true] at emitted
      exact emitted.1.2
    obtain ⟨traction, halt, sound, host, lines⟩ := startPulse_rest (s.setLines { s.lines with emission := some (s.now + 50) })
    have still : haltLineReleased (s.setLines { s.lines with emission := some (s.now + 50) }) = true := released
    rw [deliverStart_traction, still] at traction
    dsimp only
    rw [if_pos emitted, if_pos emitted]
    refine ⟨?_, halt, sound, host, ?_⟩
    · show (startPulse _).traction = _
      rw [traction]; simp [emitted]
    · rw [State.setLines_lines, lines]
      simp only [emitted, true_and, State.setLines_lines, ne_eq, ite_not]
      rfl
  · dsimp only
    rw [if_neg emitted, if_neg (fun both => emitted both.1), if_neg emitted, if_neg (fun both => emitted both.1)]
    exact ⟨rfl, rfl, rfl, rfl, rfl⟩

end Sys2Proof.Machine
end

section
/-! Where the traction state, E and the latch stand after each stage of a pass; the exit from INHIBITED over a pass (R20 to R24). -/

namespace Sys2Proof.Machine

variable {s t u : State}

/-- What stage 1 makes of the traction state and of the latch once its demand is read (R23, R66, R67, R76). -/
inductive FirstCourse (h : Int) (r f : State) : Prop
  | stays (state : f.traction.state = r.traction.state) (latch : f.halt.latch = r.halt.latch) (sound : f.sound = r.sound)
    (host : f.host = r.host)
  | starts (held : r.traction.state = .startHeld) (state : f.traction.state = .running) (latch : f.halt.latch = r.halt.latch)
    (sound : f.sound = r.sound) (host : f.host = r.host)
  | releases (full : h ≤ -900) (free : r.halt.causes.any = false) (set : r.halt.latch ≠ none) (state : f.traction.state = .inhibited)
    (latch : f.halt.latch = none)

theorem passFirst_course (s : State) :
    FirstCourse (passDemand s) (passRead s) (passFirst s) ∧ (passFirst s).traction.effort = (passRead s).traction.effort ∧
    (passFirst s).halt.causes = (passRead s).halt.causes := by
  unfold passFirst
  generalize passRead s = r
  generalize passDemand s = h
  obtain ⟨acknowledged, causes, -⟩ := acknowledge_judged h r
  obtain ⟨traction, halt, sound, host, -⟩ := judgeEmission_rest h (acknowledge h r)
  generalize acknowledge h r = a at acknowledged causes traction halt sound host ⊢
  generalize judgeEmission h a = f at traction halt sound host ⊢
  have effort : f.traction.effort = a.traction.effort := by rw [traction]; split <;> rfl
  have state : f.traction.state = a.traction.state ∨ a.traction.state = .startHeld ∧ f.traction.state = .running := by
    rw [traction]
    split
    next started => exact .inr ⟨started.2, rfl⟩
    · exact .inl rfl
  have same : f.halt.causes = r.halt.causes := by rw [halt, causes]
  cases acknowledged with
  | runs ownTraction latch ownSound ownHost =>
    refine ⟨?_, by rw [effort, ownTraction], same⟩
    rw [ownTraction] at state
    rcases state with stays | ⟨held, starts⟩
    · exact .stays stays (by rw [halt, latch]) (sound.trans ownSound) (host.trans ownHost)
    · exact .starts held starts (by rw [halt, latch]) (sound.trans ownSound) (host.trans ownHost)
  | releases full free set ownTraction latch =>
    refine ⟨?_, by rw [effort, ownTraction], same⟩
    rw [ownTraction] at state
    exact .releases full free set (state.elim id fun held => absurd (show TractionState.inhibited = .startHeld from held.1) (by decide)) (by rw [halt, latch])

theorem passRead_judged (s : State) : LatchJudged (passOpened s) (passRead s) := readDemandOf_judged _

theorem passThird_judged (s : State) : LatchJudged (passJudged s) (passThird s) := by rw [passThird_eq]; exact judgeRollback_judged _ _

/-- A unit shut in once the exit is judged is shut in after stage 3 and after the pass. -/
theorem passThird_shut (shut : (passOpened s).traction.state = .inhibited ∨ (passOpened s).traction.state = .halted) :
    (passThird s).traction.state = .inhibited ∨ (passThird s).traction.state = .halted :=
  passThird_of shut_walk.toLateWalk (stageOne_stage shut_walk.toStageWalk shut)

/-! ### A unit that leaves INHIBITED or stays out of it -/

/-- The unit moves on with a clear latch, or has been halted, a cause still present. -/
def MovesOn (free : TractionState → Prop) (u : State) : Prop :=
  u.halt.latch = none ∧ free u.traction.state ∨ u.traction.state = .halted ∧ u.halt.causes.any = true

variable {free : TractionState → Prop}

theorem MovesOn.judged (h : MovesOn free s) (judged : LatchJudged s t)
    (present : s.halt.causes.any = true → t.halt.causes.any = true) : MovesOn free t := by
  rcases judged with stays | ⟨clear, ⟨first, latches⟩, any, -⟩
  · exact h.imp (fun on => ⟨stays.latch.trans on.1, stays.state ▸ on.2⟩) fun halted => ⟨stays.state.trans halted.1, present halted.2⟩
  · exact .inr ⟨latches.state, any⟩

theorem MovesOn.same (h : MovesOn free s) (traction : t.traction.state = s.traction.state) (halt : t.halt = s.halt) : MovesOn free t := by
  unfold MovesOn at *; rw [traction, halt]; exact h

/-- Once the demand is read a pass with a clear latch leaves a moving unit or a halted one (R22, R23, R62). -/
theorem movesOn_walk (start : free .startHeld → free .running) : TailWalk (MovesOn free) where
  note := fun _ h => h.same (by simp) (by simp)
  sounding := fun h => h.same (by simp) (by simp)
  sound := fun _ h => h
  raise := fun _ _ h => h.same (by simp) (by simp)
  start := fun {u} held h => h.elim (fun on => .inl ⟨on.1, start (held ▸ on.2)⟩) fun halted => absurd (halted.1.symm.trans held) (by decide)
  ack := fun h => h
  release := fun {u} off set h => h.elim (fun on => by rw [on.1] at set; cases set) fun halted => by rw [halted.2] at off; cases off
  pulse := fun h => h
  roll := fun h => MovesOn.judged h (addCauses_judged (by decide) (by decide)) fun _ =>
    Causes.any_of_has (x := .rollback) (by rw [addCauses_has (by decide)]; rfl)
  overspeed := fun {u st} h => h.same (judgeOverspeed_judged st u).1 (by rw [judgeOverspeed_eq]; rfl)
  effort := fun h => h
  effortHeld := fun {u b} h => MovesOn.same (s := u) h (by simp) (by simp)
  adhesion := fun h => h
  free := fun h => h
  outputs := fun h => h
  drives := fun h => h
  stamp := fun h => h

theorem effortPass_movesOn (start : free .startHeld → free .running) (clear : s.halt.latch = none)
    (opened : free (passOpened s).traction.state) : MovesOn free (effortPass s) := by
  have W := movesOn_walk start
  have before : (passOpened s).halt.latch = none := by rw [(passOpened_frame s).halt]; exact clear
  have read : MovesOn free (passRead s) := by
    rcases passRead_judged s with stays | ⟨-, ⟨first, latches⟩, any, -⟩
    · exact .inl ⟨stays.latch.trans before, stays.state ▸ opened⟩
    · exact .inr ⟨latches.state, any⟩
  exact effortPass_of W.toLateWalk (passThird_of W.toLateWalk (judgeEmission_stage W.toAckWalk (acknowledge_stage W.toAckWalk read)))

/-- An inhibit reason of the state a pass leaves is one its opening has judged (R21). -/
theorem effortPass_reason (s : State) : inhibitReason (passOpened s) = true ↔
    (effortPass s).traction.direction = .neutral ∨ s.pins.doorRelease = true ∨ s.lines.role = .conflict ∨ s.lines.role = .noCab ∨
    (effortPass s).traction.settle ≠ none := by
  have kept := effortPass_direction s
  have frame := passOpened_pass s
  rw [inhibitReason_iff, kept.direction, kept.settle, frame.pins, frame.role]

/-- Settles O30: the exit from INHIBITED as the opening judges it, and what the stages leave of it. -/
theorem inhibitReasonsHoldUnit : Obligations.InhibitReasonsHoldUnit := by
  intro inputs s t law next inhibited reason moving
  have same := effortPass_reason (passStart inputs s)
  have clear : s.halt.latch = none := by simpa using law.clear (by rw [inhibited]; decide)
  have shut := effortPass_output (s := passStart inputs s) shut_walk
  have runs := effortPass_movesOn (free := (· = .running)) (s := passStart inputs s) (by simp) clear
  have moves := effortPass_movesOn (free := fun st => st = .startHeld ∨ st = .running) (s := passStart inputs s)
    (fun _ => .inr rfl) clear
  have opening := passOpened_course (passStart inputs s)
  rw [← exec_controlPeriod_next next] at same shut runs moves
  have holds : inhibitReason (passOpened (passStart inputs s)) = true ↔ reason := same
  clear next same
  generalize passOpened (passStart inputs s) = o at *
  cases opening with
  | stays state effort held =>
    have reasoned := holds.1 (held inhibited)
    exact ⟨fun _ => (shut (.inl (state.trans inhibited))).resolve_right moving, fun none => absurd reasoned none,
      fun none => absurd reasoned none⟩
  | shuts was => exact absurd was (by rw [show (passStart inputs s).traction.state = .inhibited from inhibited]; decide)
  | leaves was off effort state =>
    have unreasoned : ¬reason := fun on => by rw [holds.2 on] at off; cases off
    refine ⟨fun on => absurd on unreasoned, fun _ single => ?_, fun _ _ => ?_⟩
    · have running := state.resolve_right fun held => absurd (single.symm.trans held.1) (by decide)
      exact ((runs running).resolve_right fun halted => moving halted.1).2
    · exact ((moves (state.elim .inr fun held => .inl held.2)).resolve_right fun halted => moving halted.1).2

end Sys2Proof.Machine
end

section
/-! E on its way through a pass, and the ramp (R20, R34 to R41). -/

namespace Sys2Proof.Machine

variable {s t u : State}

/-! ### E up to stage 4 -/

/-- E stays, or a positive one is taken (R20). -/
def Spent (x y : Int) : Prop := y = x ∨ 0 < x ∧ y = 0

theorem Spent.trans {x y z : Int} (xy : Spent x y) (yz : Spent y z) : Spent x z := by unfold Spent at *; omega

theorem Traction.halted_spent (x : Traction) : Spent x.effort x.halted.effort := by
  rw [Traction.halted_effort_eq]; unfold Spent; split <;> omega

theorem LatchJudged.spent (h : LatchJudged s t) : Spent s.traction.effort t.traction.effort := by
  rcases h with stays | sets
  · exact .inl stays.effort
  · rw [sets.effort]; exact Traction.halted_spent _

theorem Opening.spent (h : Opening s t) : Spent s.traction.effort t.traction.effort := by
  cases h with
  | stays state effort reason => exact .inl effort
  | leaves was free effort state => exact .inl effort
  | shuts was state reason effort turned => rw [effort]; exact Traction.halted_spent _

/-- E before rollback is judged: it is taken where overspeed begins in a RUNNING unit (R20, R35). -/
theorem passJudged_effort (s : State) : (passJudged s).traction.effort =
    if (s.traction.overspeed = false ∧ (passThird s).traction.overspeed = true ∧ (passFirst s).traction.state = .running) ∧
      0 < (passFirst s).traction.effort then 0 else (passFirst s).traction.effort := by
  have traction := judgeOverspeed_traction s.settings (passFirst s)
  have flag : (passThird s).traction.overspeed = overspeedJudged s.settings (passFirst s) := by
    rw [passThird_eq, judgeRollback_setup s.settings (passJudged s)]
    exact (judgeOverspeed_judged s.settings (passFirst s)).2.1
  rw [(passFirst_kept s).overspeed] at traction
  unfold passJudged
  rw [traction, flag]
  dsimp only
  split
  next closes => rw [closeGate_effort]; exact if_congr (and_iff_right closes).symm rfl rfl
  next same => rw [if_neg fun both => same both.1]

theorem passJudged_spent (s : State) : Spent (passFirst s).traction.effort (passJudged s).traction.effort := by
  rw [passJudged_effort]; unfold Spent; split <;> omega

theorem passJudged_state (s : State) : (passJudged s).traction.state = (passFirst s).traction.state :=
  (judgeOverspeed_judged s.settings (passFirst s)).1

/-- Once taken, E is 0 at stage 4. -/
theorem passThird_taken (taken : (passRead s).traction.effort = 0) : (passThird s).traction.effort = 0 := by
  have first := (passFirst_course s).2.1
  have later := (passJudged_spent s).trans (passThird_judged s).spent
  rw [first, taken] at later
  exact later.elim id fun power => power.2

/-- E that stage 1 leaves in a unit that is not RUNNING stays (R20). -/
theorem passThird_idle (idle : (passFirst s).traction.state ≠ .running) :
    (passThird s).traction.effort = (passRead s).traction.effort := by
  have judged : (passJudged s).traction.effort = (passRead s).traction.effort := by
    rw [passJudged_effort, if_neg fun closes => idle closes.1.2.2, (passFirst_course s).2.1]
  rcases passThird_judged s with stays | sets
  · exact stays.effort.trans judged
  · rw [sets.effort, Traction.halted_effort_eq, if_neg fun power => idle (passJudged_state s ▸ power.1)]
    exact judged

/-- E of a unit that is RUNNING after stage 1 is taken where overspeed begins or where it is halted (R20). -/
theorem passThird_running (running : (passFirst s).traction.state = .running) :
    (passThird s).traction.effort =
      if 0 < (passRead s).traction.effort ∧ ((passThird s).traction.state ≠ .running ∨
        s.traction.overspeed = false ∧ (passThird s).traction.overspeed = true) then 0 else (passRead s).traction.effort := by
  have judged := passJudged_effort s
  have state := (passJudged_state s).trans running
  rw [(passFirst_course s).2.1] at judged
  rcases passThird_judged s with stays | sets
  · rw [stays.effort, judged, stays.state, state]
    refine if_congr ?_ rfl rfl
    simp only [running, and_true, ne_eq, not_true_eq_false, false_or]
    exact and_comm
  · obtain ⟨first, latches⟩ := sets.latches
    have spent := passJudged_spent s
    have halts : (passThird s).traction.state ≠ .running := by rw [latches.state]; decide
    rw [(passFirst_course s).2.1] at spent
    rw [sets.effort, Traction.halted_effort_eq, if_congr (and_iff_right state) rfl rfl, if_congr (and_iff_left (.inl halts)) rfl rfl]
    unfold Spent at spent
    split <;> split <;> omega

/-! ### E before stage 4, over the pass -/

/-- The gate of a RUNNING unit closes in the pass (R20). -/
abbrev closesGate (s : State) : Prop :=
  s.traction.state = .running ∧
    ((passThird s).traction.state ≠ .running ∨ s.traction.overspeed = false ∧ (passThird s).traction.overspeed = true)

/-- A unit INHIBITED or HALTED at stage 1 is not RUNNING after stage 3. -/
theorem passThird_notRunning (shut : (passFirst s).traction.state = .inhibited ∨ (passFirst s).traction.state = .halted) :
    (passThird s).traction.state ≠ .running := by
  rcases passThird_of (s := s) shut_walk.toLateWalk shut with state | state <;> (rw [state]; decide)

theorem passFirst_shut (shut : (passRead s).traction.state = .inhibited ∨ (passRead s).traction.state = .halted) :
    (passFirst s).traction.state = .inhibited ∨ (passFirst s).traction.state = .halted :=
  judgeEmission_stage (P := fun u => u.traction.state = .inhibited ∨ u.traction.state = .halted) shut_walk.toAckWalk
    (acknowledge_stage shut_walk.toAckWalk shut)

theorem passThird_spent (s : State) : Spent s.traction.effort (passThird s).traction.effort := by
  have first := (passJudged_spent s).trans (passThird_judged s).spent
  rw [(passFirst_course s).2.1] at first
  exact ((passOpened_course s).spent.trans (passRead_judged s).spent).trans first

/-- A unit that stays RUNNING through the pass, or is lawful and RUNNING, keeps E but for what the closing gate takes. -/
theorem passThird_power (running : s.traction.state = .running) (fits : s.halt.latch = none ∨ (passThird s).traction.state = .running) :
    (passThird s).traction.effort = if 0 < s.traction.effort ∧ closesGate s then 0 else s.traction.effort := by
  have spent := passThird_spent s
  have still : ¬0 < s.traction.effort → (passThird s).traction.effort = s.traction.effort := fun none =>
    spent.resolve_right fun power => none power.1
  by_cases power : 0 < s.traction.effort
  · have taken : (passRead s).traction.effort = 0 → (passThird s).traction.state ≠ .running →
        (passThird s).traction.effort = if 0 < s.traction.effort ∧ closesGate s then 0 else s.traction.effort := fun zero halts => by
      rw [if_pos ⟨power, running, .inl halts⟩]; exact passThird_taken zero
    cases passOpened_course s with
    | leaves was free effort state => exact absurd (running.symm.trans was) (by decide)
    | shuts was state reason effort turned =>
      have zero : (passOpened s).traction.effort = 0 := by rw [effort, Traction.halted_effort_eq, if_pos ⟨running, power⟩]
      have read := (passRead_judged s).spent
      rw [zero] at read
      refine taken (read.elim id And.right) ?_
      rcases passThird_shut (.inl state) with third | third <;> (rw [third]; decide)
    | stays state effort reason =>
      rcases passRead_judged s with stays | sets
      · have same : (passRead s).traction.effort = s.traction.effort := stays.effort.trans effort
        have moves := stays.state.trans (state.trans running)
        have latch : (passRead s).halt.latch = s.halt.latch := stays.latch.trans (by rw [(passOpened_frame s).halt])
        cases (passFirst_course s).1 with
        | stays first latch sound host =>
          rw [passThird_running (first.trans moves), same]
          exact if_congr (and_congr_right fun _ => (and_iff_right running).symm) rfl rfl
        | starts held first latch sound host => exact absurd (moves.symm.trans held) (by decide)
        | releases full free set first after =>
          exact absurd (fits.resolve_left fun clear => set (latch.trans clear)) (passThird_notRunning (.inl first))
      · obtain ⟨first, latches⟩ := sets.latches
        refine taken ?_ (passThird_notRunning (passFirst_shut (.inr latches.state)))
        rw [sets.effort, Traction.halted_effort_eq, if_pos ⟨state.trans running, effort ▸ power⟩]
  · rw [if_neg fun both => power both.1]; exact still power

/-- A unit that is not RUNNING, and that the pass leaves in its state, keeps E. -/
theorem passThird_same (other : s.traction.state ≠ .running) (same : (passThird s).traction.state = s.traction.state) :
    (passThird s).traction.effort = s.traction.effort := by
  obtain ⟨first, -, -⟩ := passFirst_course s
  have third := passThird_state s
  cases passOpened_course s with
  | shuts was state reason effort turned =>
    have held := was.resolve_left other
    rcases passThird_shut (.inl state) with shut | shut <;> (rw [shut, held] at same; cases same)
  | stays state effort reason =>
    have read : (passRead s).traction.effort = s.traction.effort := by
      rcases passRead_judged s with stays | sets
      · exact stays.effort.trans effort
      · rw [sets.effort, Traction.halted_effort_eq, if_neg fun power => other (state ▸ power.1)]; exact effort
    have idle : (passFirst s).traction.state ≠ .running := by
      intro moves
      rcases third with judged | halted
      · exact other (same.symm.trans (judged.trans moves))
      · have opened : (passOpened s).traction.state = .halted := state.trans (same.symm.trans halted)
        have shut : (passFirst s).traction.state = .inhibited ∨ (passFirst s).traction.state = .halted :=
          stageOne_stage (P := fun u => u.traction.state = .inhibited ∨ u.traction.state = .halted) shut_walk.toStageWalk (.inr opened)
        rw [moves] at shut
        exact absurd shut (by decide)
    exact (passThird_idle idle).trans read
  | leaves was free effort state =>
    have inhibited : (passFirst s).traction.state = .inhibited :=
      (third.resolve_right (by rw [same, was]; decide)).symm.trans (same.trans was)
    have read : (passRead s).traction.effort = (passOpened s).traction.effort := by
      rcases passRead_judged s with stays | sets
      · exact stays.effort
      · obtain ⟨cause, latches⟩ := sets.latches
        cases first with
        | stays after => exact absurd (inhibited.symm.trans (after.trans latches.state)) (by decide)
        | starts held after => exact absurd (inhibited.symm.trans after) (by decide)
        | releases full none => exact absurd (none.symm.trans sets.any) (by decide)
    exact (passThird_idle (by rw [inhibited]; decide)).trans (read.trans effort)

/-- E before stage 4: what it was, but that a positive E is taken where the gate of the RUNNING unit closes within the pass (R20). -/
theorem passThird_effort (fits : HaltLaw s ∧ GateLaw s.traction ∨ (passThird s).traction.state = s.traction.state) :
    (passThird s).traction.effort = if 0 < s.traction.effort ∧ closesGate s then 0 else s.traction.effort := by
  by_cases running : s.traction.state = .running
  · refine passThird_power running (fits.imp (fun law => ?_) fun same => same.trans running)
    simpa using law.1.clear (by rw [running]; decide)
  · rw [if_neg fun both => running both.2.1]
    rcases fits with law | same
    · exact (passThird_spent s).resolve_right fun power => running (law.2 power.1).1
    · exact passThird_same running same

/-! ### The ramp -/

/-- The ramp takes one step of its table (R40). -/
theorem rampEffort_step {rp rb rr : Int} (brake : 0 < rb) (release : 0 < rr) (e target : Int) :
    RampStep rp rb rr e target (rampEffort rp rb rr e target) := by
  unfold rampEffort
  constructor <;> intros <;> split_ifs <;> omega

/-- The ramp moves toward its target and never past it, nor across zero (R40). -/
theorem rampEffort_between {rp rb rr : Int} (power : 0 < rp) (brake : 0 < rb) (release : 0 < rr) (e target : Int) :
    let e' := rampEffort rp rb rr e target
    (e ≤ target → e ≤ e' ∧ e' ≤ target) ∧ (target ≤ e → target ≤ e' ∧ e' ≤ e) ∧ (0 < e → 0 ≤ e') ∧ (e < 0 → e' ≤ 0) := by
  unfold rampEffort
  dsimp only
  split_ifs <;> omega

/-! ### Stage 4 -/

/-- The demand gated at stage 2 as the pass ends: the gate it found is the one the pass leaves, unless the unit is halted (R34). -/
theorem passGated_end (s : State) (moves : (effortPass s).traction.state ≠ .halted) : passGated s =
    if 0 < passDemand s ∧ ¬((effortPass s).traction.state = .running ∧ s.traction.overspeed = false) then 0 else passDemand s := by
  obtain ⟨state, -⟩ := effortPass_setup s
  rw [state] at moves ⊢
  have isOpen : gateOpen (passFirst s) = true ↔ (passThird s).traction.state = .running ∧ s.traction.overspeed = false := by
    rw [gateOpen_iff, (passThird_state s).resolve_right moves, (passFirst_kept s).overspeed]
  unfold passGated gateDemand
  exact if_congr (and_congr_right fun _ => by rw [← isOpen, Bool.not_eq_true]) rfl rfl

/-- EB as the pass ends is what stage 4 reads (R33, R41). -/
theorem effortPass_eb (s : State) : ebAsserted (effortPass s) = fullBraking (passThird s) := by
  obtain ⟨-, -, -, -, -, -, emergency⟩ := effortPass_setup s
  unfold ebAsserted fullBraking
  rw [effortPass_halt, emergency, (effortPass_frame s).role, (passThird_frame s).role]

/-- E after a pass that does not brake fully: one step of the ramp (R39, R40). -/
theorem effortPass_ramps (law : SettingsLaw s.settings)
    (fits : HaltLaw s ∧ GateLaw s.traction ∨ (effortPass s).traction.state = s.traction.state) (calm : ebAsserted (effortPass s) = false) :
    RampStep (s.cfg Setting.powerBuild) (s.cfg Setting.brakeBuild) (s.cfg Setting.release)
      (if 0 < s.traction.effort ∧ closesGate s then 0 else s.traction.effort)
      (effortTarget s.settings (passGated s) (passThird s)) (effortPass s).traction.effort := by
  obtain ⟨state, -, -, effort, -, -, -⟩ := effortPass_setup s
  have brake := law.value_fits (n := Setting.brakeBuild) rfl
  have release := law.value_fits (n := Setting.release) rfl
  rw [state] at fits
  rw [← passThird_effort fits, effort, passEffort, movedEffort, ← effortPass_eb, calm]
  exact rampEffort_step (lt_of_lt_of_le (by decide) brake.1)
    (lt_of_lt_of_le (by decide) release.1) _ _

/-- The target of stage 4 as the pass ends (R36, R39). -/
theorem effortTarget_end (s : State) : effortTarget s.settings (passGated s) (passThird s) =
    let done := (effortPass s).traction
    let limit := taperLimit s.route.ceiling s.axle.refSpeed (s.cfg Setting.taperBand)
    if done.state = .halted then -s.cfg Setting.haltBrake
    else if done.overspeed = true then min (passGated s) (s.cfg Setting.overspeedBrake)
    else if 0 < passGated s then min (passGated s) limit
    else passGated s := by
  obtain ⟨state, flag, -⟩ := effortPass_setup s
  have ceiling := (passThird_overspeed s).2
  have speed : (passThird s).axle.refSpeed = s.axle.refSpeed := by rw [(passThird_frame s).axle]
  dsimp only
  unfold effortTarget
  rw [state, flag, ceiling, speed]
  rfl

/-- Settles O32: the ramp by its table; E at stage 4 by what the closing gate has taken on the way to it. -/
theorem passMovesEffort : Obligations.PassMovesEffort := by
  refine ⟨fun rp rb rr e target power brake release => ?_, fun inputs s t next => ?_⟩
  · exact ⟨rampEffort_step brake release e target, rampEffort_between power brake release e target⟩
  · have full : ebAsserted (effortPass (passStart inputs s)) = true → (effortPass (passStart inputs s)).traction.effort = -1000 := by
      obtain ⟨-, -, -, effort, -, -, -⟩ := effortPass_setup (passStart inputs s)
      intro eb
      rw [effort, passEffort, movedEffort, ← effortPass_eb, eb]
      rfl
    have ramps := effortPass_ramps (s := passStart inputs s)
    have target := effortTarget_end (passStart inputs s)
    have gated := passGated_end (passStart inputs s)
    have previous := effortPass_previousDemand (passStart inputs s)
    obtain ⟨state, flag, -⟩ := effortPass_setup (passStart inputs s)
    have closed : closesGate (passStart inputs s) ↔ s.traction.state = .running ∧ ((effortPass (passStart inputs s)).traction.state ≠ .running ∨
        s.traction.overspeed = false ∧ (effortPass (passStart inputs s)).traction.overspeed = true) := by rw [state, flag]; exact Iff.rfl
    rw [← previous] at gated
    rw [target, if_congr (and_congr_right fun _ => closed) rfl rfl] at ramps
    rw [← exec_controlPeriod_next next] at full ramps gated
    clear next target previous state flag closed
    intro rp rb rr limit closes e open2 h2 aim
    refine ⟨full, fun law fits calm => ?_⟩
    have same : aim = if t.traction.state = .halted then -s.cfg Setting.haltBrake
        else if t.traction.overspeed = true then min (passGated (passStart inputs s)) (s.cfg Setting.overspeedBrake)
        else if 0 < passGated (passStart inputs s) then min (passGated (passStart inputs s)) limit
        else passGated (passStart inputs s) := by
      by_cases halted : t.traction.state = .halted
      · exact (if_pos halted).trans (if_pos halted).symm
      · rw [gated halted]; rfl
    rw [same]
    exact ramps law (fits.imp_left fun ⟨halt, gate⟩ => ⟨⟨halt.halted, halt.latched⟩, gate⟩) calm

end Sys2Proof.Machine
end

section
/-! The causes and the latch a pass leaves (R32, R37, R61 to R63, R75). -/

namespace Sys2Proof.Machine

variable {s t u : State}

/-! ### TRAINLINE -/

/-- TRAINLINE stays where causes join and the unit does not drive the line, or drives it by its law (R74, R75). -/
theorem addCauses_trainline {cs : List Cause} (own : .trainline ∉ cs) (law : DriveLaw s ∨ s.lines.halting = false) :
    (addCauses cs s).halt.causes.trainline = s.halt.causes.trainline := by
  have joined : (joinCauses cs s).halt.causes.trainline = s.halt.causes.trainline :=
    (joinCauses_has cs s .trainline).trans (if_neg own)
  have halting : (joinCauses cs s).lines.halting = s.lines.halting := by rw [joinCauses_lines]
  unfold addCauses
  rcases judgeDrive_cases (joinCauses cs s) with ⟨-, e⟩ | ⟨-, -, e⟩ | ⟨still, driven, -⟩
  · rw [e]; exact joined
  · rw [e]; exact joined
  · rw [halting] at driven
    refine absurd ?_ still
    have drive := (law.resolve_right (by rw [driven]; decide)).1 driven
    obtain ⟨c, mem, counts⟩ := List.any_eq_true.1 drive.2
    simp only [Bool.and_eq_true, bne_iff_ne] at counts
    refine ⟨(joinCauses_haltOutput cs s).trans drive.1, List.any_eq_true.2 ⟨c, mem, ?_⟩⟩
    simp only [Bool.and_eq_true, bne_iff_ne, joinCauses_has, counts.2, ite_self, and_true]
    exact counts.1

/-- TRAINLINE stays or takes the level of the line, whatever causes join or end (R75). -/
theorem addCauses_line {cs : List Cause} (own : .trainline ∉ cs) :
    (addCauses cs s).halt.causes.trainline = s.halt.causes.trainline ∨ (addCauses cs s).halt.causes.trainline = s.pins.haltLine := by
  have joined : (joinCauses cs s).halt.causes.trainline = s.halt.causes.trainline :=
    (joinCauses_has cs s .trainline).trans (if_neg own)
  obtain ⟨-, -, either⟩ := judgeDrive_trainline (joinCauses cs s)
  rw [joined, joinCauses_pins] at either
  exact either

theorem removeCauses_line {cs : List Cause} (own : .trainline ∉ cs) :
    ((removeCauses cs s).halt.causes.trainline = s.halt.causes.trainline ∨
      (removeCauses cs s).halt.causes.trainline = s.pins.haltLine) ∧
    (s.lines.halting = false → (removeCauses cs s).halt.causes.trainline = s.halt.causes.trainline) := by
  have dropped : (dropCauses cs s).halt.causes.trainline = s.halt.causes.trainline :=
    (dropCauses_has cs s .trainline).trans (if_neg own)
  obtain ⟨quiet, -, either⟩ := judgeDrive_trainline (dropCauses cs s)
  rw [dropped] at quiet either
  exact ⟨either, quiet⟩

/-- The unit drives the HALT line by its law, or not at all. -/
def DrivesFairly (s : State) : Prop := DriveLaw s ∨ s.lines.halting = false

/-- TRAINLINE as the reading of a demand leaves it (R32, R75). -/
theorem readDemandOf_trainline (s : State) :
    ((readDemandOf s).1.halt.causes.trainline = s.halt.causes.trainline ∨
      (readDemandOf s).1.halt.causes.trainline = s.pins.haltLine) ∧
    (s.lines.halting = false ∨ s.lines.role ≠ .trail ∧ DriveLaw s →
      (readDemandOf s).1.halt.causes.trainline = s.halt.causes.trainline ∧ DrivesFairly (readDemandOf s).1) := by
  have quiet : ∀ u : State, u.halt = s.halt → u.lines = s.lines → u.cfg Setting.haltOutput = s.cfg Setting.haltOutput →
      (u.halt.causes.trainline = s.halt.causes.trainline ∨ u.halt.causes.trainline = s.pins.haltLine) ∧
      (s.lines.halting = false ∨ s.lines.role ≠ .trail ∧ DriveLaw s →
        u.halt.causes.trainline = s.halt.causes.trainline ∧ DrivesFairly u) := fun u halt lines output => by
    refine ⟨.inl (by rw [halt]), fun fair => ⟨by rw [halt], fair.elim (fun idle => .inr (by rw [lines]; exact idle)) fun law => .inl ?_⟩⟩
    exact law.2.transfer (by rw [lines]) output fun y _ => by rw [halt]
  unfold readDemandOf
  split
  · unfold readHandle
    split
    · exact quiet _ rfl rfl rfl
    · unfold readInvalid raiseHandleFault
      dsimp only
      split
      · exact quiet _ (by rw [raise_halt]; rfl) (by rw [raise_lines]; rfl) rfl
      · exact quiet _ rfl rfl rfl
  next trail =>
    have own : Cause.trainline ∉ [Cause.demandLost] := by decide
    unfold readDemand noEmergency
    split
    · obtain ⟨either, idle⟩ := removeCauses_line (s := (s.setTraction { s.traction with inEmergency := false, demandLoss := none })) own
      exact ⟨either, fun fair => ⟨idle (fair.resolve_right fun law => law.1 trail), .inl (removeCauses_law _ _)⟩⟩
    · dsimp only
      split
      · refine ⟨?_, fun fair => ⟨?_, .inl (raise_drive (addCauses_law _ _))⟩⟩
        · unfold loseDemand; rw [raise_halt]; exact addCauses_line own
        · unfold loseDemand; rw [raise_halt]
          exact addCauses_trainline own (.inr (fair.resolve_right fun law => law.1 trail))
      · exact quiet _ rfl rfl rfl
  · exact quiet _ rfl rfl rfl

theorem passJudged_halt (s : State) : (passJudged s).halt = (passFirst s).halt := by rw [passJudged_eq]; rfl

/-- Stage 1 leaves the HALT drive once the demand is read. -/
theorem passJudged_drives (fair : DrivesFairly (passRead s)) : DrivesFairly (passJudged s) := by
  refine fair.imp (fun law => ?_) fun idle => ?_
  · exact passWalk_drive.overspeed (s := passFirst s) (judgeEmission_stage passWalk_drive.toAckWalk
      (acknowledge_stage passWalk_drive.toAckWalk law))
  · obtain ⟨-, -, lines⟩ := acknowledge_judged (passDemand s) (passRead s)
    obtain ⟨-, -, -, -, emission⟩ := judgeEmission_rest (passDemand s) (acknowledge (passDemand s) (passRead s))
    rw [passJudged_eq]
    show (judgeEmission (passDemand s) (acknowledge (passDemand s) (passRead s))).lines.halting = false
    rw [emission, lines]
    exact idle

/-! ### The causes -/

/-- Stage 3 adds ROLLBACK where the tram runs against its direction (R37). -/
theorem passThird_rolls (s : State) : passThird s =
    if (effortPass s).traction.direction ≠ .neutral ∧ s.axle.refSpeed < -s.cfg Setting.rollbackLimit
      then addCauses [.rollback] (passJudged s) else passJudged s := by
  have direction : (passJudged s).traction.direction = (effortPass s).traction.direction := by
    rw [(effortPass_direction s).direction, ← (passThird_direction s).direction, passThird_eq,
      judgeRollback_setup s.settings (passJudged s)]
  have speed : (passJudged s).axle.refSpeed = s.axle.refSpeed := by
    rw [passJudged_eq]; show (passFirst s).axle.refSpeed = _; rw [(passFirst_frame s).axle]
  rw [passThird_eq, judgeRollback, direction, speed]
  rfl

theorem passJudged_causes (s : State) : (passJudged s).halt.causes = (passRead s).halt.causes := by
  rw [passJudged_halt, (passFirst_course s).2.2]

/-- The causes but TRAINLINE and DEMAND LOST as the demand is read. -/
theorem passRead_causes (s : State) {y : Cause} (line : y ≠ .trainline) (lost : y ≠ .demandLost) :
    (passRead s).halt.causes.has y = s.halt.causes.has y :=
  ((readDemandOf_causes (passOpened s)).1 y line lost).trans (by rw [(passOpened_reads s).causes])

/-- ROLLBACK after a pass (R37). -/
theorem effortPass_rollback (s : State) : (effortPass s).halt.causes.rollback = (s.halt.causes.rollback ||
    decide ((effortPass s).traction.direction ≠ .neutral ∧ s.axle.refSpeed < -s.cfg Setting.rollbackLimit)) := by
  have before : (passJudged s).halt.causes.rollback = s.halt.causes.rollback := by
    rw [passJudged_causes]; exact passRead_causes s (y := .rollback) (by decide) (by decide)
  rw [effortPass_halt, passThird_rolls]
  split
  next rolls =>
    rw [decide_eq_true rolls, Bool.or_true]
    exact (addCauses_has (y := .rollback) (by decide) _ _).trans (by simp)
  next still => rw [decide_eq_false still, Bool.or_false]; exact before

/-- Of the causes a pass changes ROLLBACK, DEMAND LOST and TRAINLINE alone (R32, R37, R61). -/
theorem effortPass_causes (s : State) : (effortPass s).halt.causes = { s.halt.causes with
    rollback := s.halt.causes.rollback ||
      decide ((effortPass s).traction.direction ≠ .neutral ∧ s.axle.refSpeed < -s.cfg Setting.rollbackLimit)
    demandLost := if s.lines.role ≠ .trail then s.halt.causes.demandLost
      else if 30 ≤ s.lines.demandU ∧ s.lines.demandU ≤ 970 then false
      else s.halt.causes.demandLost || decide (s.traction.demandLoss.getD s.now + 100 ≤ s.now)
    trainline := (effortPass s).halt.causes.trainline } := by
  have kept : ∀ y, y ≠ .trainline → y ≠ .demandLost → y ≠ .rollback → (effortPass s).halt.causes.has y = s.halt.causes.has y :=
    fun y line lost roll => ((effortPass_read s).causes y line roll).trans (passRead_causes s line lost)
  have lost := effortPass_demandLost s
  have roll := effortPass_rollback s
  generalize effortPass s = t at kept lost roll ⊢
  refine Causes.ext_has fun y => ?_
  cases y with
  | trainline => rfl
  | demandLost => exact lost
  | rollback => exact roll
  | host => exact kept .host (by decide) (by decide) (by decide)
  | vigilance => exact kept .vigilance (by decide) (by decide) (by decide)
  | junction => exact kept .junction (by decide) (by decide) (by decide)
  | referenceLost => exact kept .referenceLost (by decide) (by decide) (by decide)
  | breach => exact kept .breach (by decide) (by decide) (by decide)

/-- TRAINLINE after a pass (R75). -/
theorem effortPass_trainline (s : State) :
    (s.lines.halting = false ∨ s.lines.role ≠ .trail ∧ DriveLaw s →
      (effortPass s).halt.causes.trainline = s.halt.causes.trainline) ∧
    ((effortPass s).halt.causes.trainline = s.halt.causes.trainline ∨
      (effortPass s).halt.causes.trainline = s.pins.haltLine) := by
  have own : Cause.trainline ∉ [Cause.rollback] := by decide
  have opened := passOpened_frame s
  obtain ⟨either, fair⟩ := readDemandOf_trainline (passOpened s)
  have law : DriveLaw s → DriveLaw (passOpened s) := passOpened_open passWalk_drive.toOpenWalk
  rw [opened.halt, (passOpened_reads s).pins] at either
  rw [opened.halt, (passOpened_reads s).role] at fair
  have judged : (passJudged s).halt.causes.trainline = (passRead s).halt.causes.trainline := by rw [passJudged_causes]
  have pins : (passJudged s).pins = s.pins := by rw [passJudged_eq]; exact (passFirst_frame s).pins
  rw [effortPass_halt, passThird_rolls]
  refine ⟨fun driven => ?_, ?_⟩
  · obtain ⟨read, drives⟩ := fair (driven.imp (fun idle => by rw [opened.lines]; exact idle) fun other => ⟨other.1, law other.2⟩)
    split
    · exact (addCauses_trainline own (passJudged_drives drives)).trans (judged.trans read)
    · exact judged.trans read
  · split
    · exact (addCauses_line own).elim (fun same => either.imp (same.trans judged).trans (same.trans judged).trans)
        fun line => .inr (line.trans (by rw [pins]))
    · exact either.imp judged.trans judged.trans

end Sys2Proof.Machine
end

section
/-! The latch a pass leaves (R62, R63). -/

namespace Sys2Proof.Machine

variable {s t u : State}

/-- A record of the set, on a latch that is set. -/
structure LatchRecorded (k j : Nat) (v : Int) (u : State) : Prop where
  set : u.halt.latch.isSome = true
  record : Recorded k j v u

theorem LatchRecorded.same {k j : Nat} {v : Int} (h : LatchRecorded k j v s) (halt : t.halt = s.halt) (host : t.host = s.host) :
    LatchRecorded k j v t := ⟨by rw [halt]; exact h.set, by unfold Recorded at *; rw [host]; exact h.record⟩

/-- HALT LATCHED outlives the stages after it: on a set latch nothing raises it again (R62). -/
theorem latchRecorded_walk (j : Nat) (v : Int) : LateWalk (LatchRecorded 30 j v) where
  raise := fun _ other h => ⟨by rw [raise_halt]; exact h.set, h.record.raise other⟩
  roll := fun {u} h => addCauses_set (P := LatchRecorded 30 j v) h.set (fun h => ⟨h.set, h.record⟩) (fun _ h => ⟨h.set, h.record⟩)
    (fun breach => absurd breach (by decide)) h
  overspeed := fun {u st} h => h.same (by rw [judgeOverspeed_eq]; rfl) (by rw [judgeOverspeed_eq]; rfl)
  effort := fun h => ⟨h.set, h.record⟩
  effortHeld := fun {u b} h => ⟨by rw [judgeLock_halt]; exact h.set,
    judgeLock_events (P := Recorded 30 j v) (fun h => h) (fun h => h.raise (by decide)) (s := u.setSettings _) h.record⟩
  adhesion := fun h => ⟨h.set, h.record⟩
  free := fun h => ⟨h.set, h.record⟩
  outputs := fun h => ⟨h.set, h.record⟩
  drives := fun h => ⟨h.set, h.record⟩
  stamp := fun h => ⟨h.set, h.record⟩

/-- A latch that a pass has set: its record, its event, and its warning where the latch was clear before the pass (R62). -/
structure LatchFresh (s : State) (r : LatchRecord) (t : State) : Prop where
  record : r = ⟨r.first, s.now, s.route.distance, s.axle.refSpeed, s.axle.standstill⟩
  told : Recorded 30 r.first.code s.axle.refSpeed t
  warned : s.halt.latch = none → t.sound = (askFor 0 s).sound

/-- What a latch that set reads at a stage is what stood before the pass. -/
theorem Latches.fresh {first : Cause} {r : LatchRecord} (latches : Latches first u t) (frame : PassFrame s u)
    (set : t.halt.latch = some r) (sound : s.halt.latch = none → u.sound = s.sound) : LatchFresh s r t := by
  have axle := frame.axle
  have record : r = ⟨first, s.now, s.route.distance, s.axle.refSpeed, s.axle.standstill⟩ := by
    rw [← Option.some.inj (latches.latch.symm.trans set), frame.now, frame.route, axle]
  have recorded := latches.recorded
  rw [show u.axle.refSpeed = s.axle.refSpeed by rw [axle]] at recorded
  exact ⟨by rw [record], by rw [record]; exact recorded, fun clear => latches.sound.trans (askFor_sound (sound clear) frame.now 0)⟩

theorem passJudged_frame (s : State) : PassFrame s (passJudged s) := (passFrame_walk s).overspeed (passFirst_frame s)

theorem passJudged_rest (s : State) : (passJudged s).sound = (passFirst s).sound ∧ (passJudged s).host = (passFirst s).host := by
  rw [passJudged_eq]; exact ⟨rfl, rfl⟩

/-- A latch set when rollback is judged is that of before the pass, or a fresh one. -/
theorem passJudged_latch {r : LatchRecord} (set : (passJudged s).halt.latch = some r) :
    s.halt.latch = some r ∨ LatchFresh s r (passJudged s) := by
  have opened := passOpened_frame s
  obtain ⟨judgedSound, judgedHost⟩ := passJudged_rest s
  have kept : ∀ (latch : (passFirst s).halt.latch = (passRead s).halt.latch) (sound : (passFirst s).sound = (passRead s).sound)
      (host : (passFirst s).host = (passRead s).host), s.halt.latch = some r ∨ LatchFresh s r (passJudged s) := fun latch sound host => by
    rw [passJudged_halt, latch] at set
    rcases passRead_judged s with stays | ⟨-, ⟨first, latches⟩, -, -⟩
    · exact .inl (by rw [← opened.halt, ← stays.latch]; exact set)
    · have fresh := latches.fresh (passOpened_pass s) set fun _ => opened.sound
      refine .inr ⟨fresh.record, ?_, fun clear => judgedSound.trans (sound.trans (fresh.warned clear))⟩
      have told := fresh.told
      unfold Recorded at told ⊢
      rwa [judgedHost, host]
  cases (passFirst_course s).1 with
  | stays state latch sound host => exact kept latch sound host
  | starts held state latch sound host => exact kept latch sound host
  | releases full free was state latch => rw [passJudged_halt, latch] at set; cases set

/-- Where neither pass nor state before had the latch set, the sounds are as they were until rollback is judged. -/
theorem passJudged_quiet (before : s.halt.latch = none) (after : (passJudged s).halt.latch = none) : (passJudged s).sound = s.sound := by
  have opened := passOpened_frame s
  obtain ⟨judgedSound, -⟩ := passJudged_rest s
  have kept : ∀ (latch : (passFirst s).halt.latch = (passRead s).halt.latch) (sound : (passFirst s).sound = (passRead s).sound),
      (passJudged s).sound = s.sound := fun latch sound => by
    rw [passJudged_halt, latch] at after
    rcases passRead_judged s with stays | ⟨-, ⟨first, latches⟩, -, -⟩
    · exact judgedSound.trans (sound.trans (stays.sound.trans opened.sound))
    · exact absurd (after.symm.trans latches.latch) (by simp)
  cases (passFirst_course s).1 with
  | stays state latch sound host => exact kept latch sound
  | starts held state latch sound host => exact kept latch sound
  | releases full free was state latch =>
    rcases passRead_judged s with stays | ⟨-, -, any, -⟩
    · exact absurd (stays.latch.trans (by rw [opened.halt]; exact before)) was
    · exact absurd (free.symm.trans any) (by decide)

/-- A latch set after a pass is that of before it, or a fresh one (R62, R63). -/
theorem effortPass_latch {r : LatchRecord} (set : (effortPass s).halt.latch = some r) :
    s.halt.latch = some r ∨ LatchFresh s r (effortPass s) := by
  rw [effortPass_halt] at set
  have carry : LatchFresh s r (passThird s) → LatchFresh s r (effortPass s) := fun fresh =>
    ⟨fresh.record, (effortPass_of (latchRecorded_walk _ _) ⟨by rw [set]; rfl, fresh.told⟩).record,
      fun clear => (effortPass_sound s).trans (fresh.warned clear)⟩
  rcases passThird_judged s with stays | ⟨clear, ⟨first, latches⟩, -, -⟩
  · have before := stays.latch.symm.trans set
    refine (passJudged_latch before).imp_right fun fresh => carry ⟨fresh.record, ?_, fun none => stays.sound.trans (fresh.warned none)⟩
    have told : LatchRecorded 30 r.first.code s.axle.refSpeed (passJudged s) := ⟨by rw [before]; rfl, fresh.told⟩
    rw [passThird_eq]
    exact (judgeRollback_late (P := LatchRecorded 30 r.first.code s.axle.refSpeed) (latchRecorded_walk _ _) told).record
  · exact .inr (carry (latches.fresh (passJudged_frame s) set fun before => passJudged_quiet before clear))

/-- Without DEMAND to read, stage 1 leaves the halt latch until the acknowledgement (R30, R33). -/
theorem readDemandOf_halt (other : s.lines.role ≠ .trail) : (readDemandOf s).1.halt = s.halt := by
  unfold readDemandOf
  split
  · cases valid : handleDemand s.pins.handle with
    | none => exact (readHandle_invalid valid).2.1
    | some h => rw [readHandle_valid (h := h.1) (e := h.2) valid]; rfl
  next trail => exact absurd trail other
  · rfl

theorem passJudged_clear (clear : s.halt.latch = none) (other : s.lines.role ≠ .trail) : (passJudged s).halt.latch = none := by
  have read : (passRead s).halt.latch = none := by
    unfold passRead
    rw [readDemandOf_halt (by rw [(passOpened_reads s).role]; exact other), (passOpened_frame s).halt]
    exact clear
  rw [passJudged_halt]
  cases (passFirst_course s).1 with
  | stays state latch sound host => exact latch.trans read
  | starts held state latch sound host => exact latch.trans read
  | releases full free was state latch => exact latch

/-- Rollback that begins sets a clear latch, and keeps a set one (R37, R62). -/
theorem effortPass_rolls (absent : s.halt.causes.rollback = false)
    (rolls : (effortPass s).traction.direction ≠ .neutral ∧ s.axle.refSpeed < -s.cfg Setting.rollbackLimit) :
    (effortPass s).halt.latch.isSome = true ∧
    ((passJudged s).halt.latch = none → ∃ r, (effortPass s).halt.latch = some r ∧ r.first = .rollback) := by
  have new : (passJudged s).halt.causes.has .rollback = false := by
    rw [passJudged_causes]; exact (passRead_causes s (y := .rollback) (by decide) (by decide)).trans absent
  have third : passThird s = addCauses [.rollback] (passJudged s) := (passThird_rolls s).trans (if_pos rolls)
  rw [effortPass_halt, third]
  cases latch : (passJudged s).halt.latch with
  | none =>
    rw [(addCauses_latches (List.mem_singleton_self Cause.rollback) latch new (by simp)).latch]
    exact ⟨rfl, fun _ => ⟨_, rfl, rfl⟩⟩
  | some r =>
    rw [(addCauses_latched latch).1]
    exact ⟨rfl, fun none => by cases none⟩

/-- A latch that is fresh from a clear one has set from the state before the pass came due. -/
theorem LatchFresh.halted {inputs : PassInputs} {r : LatchRecord} (fresh : LatchFresh (passStart inputs s) r t)
    (now : t.now = (passStart inputs s).now) (set : t.halt.latch = some r) (clear : s.halt.latch = none) : HaltLatched r.first s t where
  record := by
    rw [set, fresh.record]
    exact congrArg some (congrArg (fun n : Nat => LatchRecord.mk r.first n _ _ _) now.symm)
  told := fresh.told.told
  warned := by
    exact (fresh.warned clear).trans (askFor_sound (u := passStart inputs s) (s := s.setNow t.now) rfl now.symm 0)

/-- Settles O31: the flag and the causes by stage 3, the latch by the stages that can set it. -/
theorem overspeedAndRollbackJudged : Obligations.OverspeedAndRollbackJudged := by
  intro inputs s t next
  obtain ⟨-, flag, ceiling, -⟩ := effortPass_setup (passStart inputs s)
  rw [(passThird_overspeed (passStart inputs s)).1] at flag
  rw [(passThird_overspeed (passStart inputs s)).2] at ceiling
  have rollback := effortPass_rollback (passStart inputs s)
  have rolled := effortPass_rolls (s := passStart inputs s)
  have causes := effortPass_causes (passStart inputs s)
  obtain ⟨quiet, line⟩ := effortPass_trainline (passStart inputs s)
  have latch := fun r => effortPass_latch (s := passStart inputs s) (r := r)
  have frame := effortPass_frame (passStart inputs s)
  have clearly := passJudged_clear (s := passStart inputs s)
  rw [← exec_controlPeriod_next next] at flag ceiling rollback rolled causes quiet line latch frame
  clear next
  have fresh : ∀ r, s.halt.latch ≠ some r → t.halt.latch = some r → LatchFresh (passStart inputs s) r t := fun r other set =>
    (latch r set).resolve_left other
  refine ⟨ceiling, fun still => ?_, fun flagged => ?_, fun turned rolls => ?_, causes, quiet, line, fun r other set => ?_,
    fun clear r set => ?_, fun rolls absent clear other => ?_⟩
  · rw [flag, overspeedJudged, if_neg (by rw [show (passStart inputs s).traction.overspeed = false from still]; decide), decide_eq_true_iff]
    rfl
  · rw [flag, overspeedJudged, if_pos (show (passStart inputs s).traction.overspeed = true from flagged), decide_eq_true_iff]
    rfl
  · exact ⟨rollback.trans (Bool.or_eq_true_iff.2 (.inr (decide_eq_true ⟨turned, rolls⟩))), fun absent => (rolled absent ⟨turned, rolls⟩).1⟩
  · have new := fresh r other set
    exact ⟨new.record, new.told.told⟩
  · exact (fresh r (by rw [clear]; exact fun e => by cases e) set).halted frame.now set clear
  · obtain ⟨r, set, first⟩ := (rolled absent rolls).2 (clearly clear other)
    rw [← first]
    exact (fresh r (by rw [clear]; exact fun e => by cases e) set).halted frame.now set clear

end Sys2Proof.Machine
end

section
/-! The start pulse: its edge, its expiries, and the emission a pass begins (R23, R76, R77). -/

namespace Sys2Proof.Machine

variable {s t u : State}

/-- The unit a start pulse is delivered to where the HALT line is released (R23). -/
theorem deliverStart_released (released : haltLineReleased s = true) :
    deliverStart s = if s.traction.state = .startHeld then s.setTraction { s.traction with state := .running } else s :=
  if_congr (and_iff_left released) rfl rfl

/-- The start pulse sensed where the HALT line is released: delivered and retained (R23, R77). -/
theorem startPulse_released (released : haltLineReleased s = true) : startPulse s =
    let u := if s.traction.state = .startHeld then s.setTraction { s.traction with state := .running } else s
    if s.cfgN Setting.startRetention = 0 then u
    else u.setLines { s.lines with retained := some (s.now + s.cfgN Setting.startRetention) } := by
  unfold startPulse
  dsimp only
  rw [deliverStart_released released]
  split <;> rfl

/-! ### What a pass reads before its emission -/

theorem linesKept_read (e : State) : ReadWalk (LinesKept e) where
  raise := fun _ _ h => h.wires (by rw [raise_lines]; rfl)
  read := fun h => { h with }
  lose := fun h => h.wires (addCauses_wires _ _)
  remove := fun h => h.wires (removeCauses_wires _ _)

/-- The setting of the start retention, of no group that a stage can unlock, stays through stage 1 (R77, R165). -/
theorem retention_walk (v : Int) : StageWalk fun u => u.cfg Setting.startRetention = v :=
  have W : QuietWalk (fun _ => True) fun u => u.cfg Setting.startRetention = v :=
    setting_walk (by rintro g (rfl | rfl | rfl) <;> decide) v
  { note := fun _ h => h
    sounding := fun h => W.lock (by simp) h
    sound := fun _ h => h
    raise := fun _ _ h => h
    start := fun _ h => h
    ack := fun h => h
    release := fun _ _ h => h
    pulse := fun h => h
    read := fun h => h
    lose := fun h => addCauses_quiet W (fun _ _ => trivial) h
    remove := fun h => removeCauses_quiet W (fun _ _ => trivial) h }

/-- The state in which the emission of a pass is judged. -/
def passAcknowledged (s : State) : State := acknowledge (passDemand s) (passRead s)

theorem passFirst_emission (s : State) : passFirst s = judgeEmission (passDemand s) (passAcknowledged s) := by
  unfold passFirst passAcknowledged; rfl

/-- What the emission reads of the state before the pass (R76). -/
structure EmissionReads (s a : State) : Prop where
  role : a.lines.role = s.lines.role
  previous : a.lines.previousDemand = s.lines.previousDemand
  emission : a.lines.emission = s.lines.emission
  pins : a.pins = s.pins
  now : a.now = s.now
  retention : a.cfgN Setting.startRetention = s.cfgN Setting.startRetention

theorem passAcknowledged_reads (s : State) : EmissionReads s (passAcknowledged s) := by
  have lines : (passAcknowledged s).lines = (passRead s).lines := (acknowledge_judged _ _).2.2
  have read : LinesKept (passOpened s) (passRead s) := readDemandOf_read (linesKept_read _) ⟨rfl, rfl⟩
  have opened := passOpened_frame s
  have frame := passRead_frame s
  have retention : (passAcknowledged s).cfg Setting.startRetention = s.cfg Setting.startRetention :=
    acknowledge_stage (retention_walk _).toAckWalk (readDemandOf_read (retention_walk _).toReadWalk
      (show (passOpened s).cfg Setting.startRetention = s.cfg Setting.startRetention by unfold State.cfg; rw [opened.settings]))
  refine ⟨?_, ?_, ?_, ?_, ?_, congrArg Int.toNat retention⟩
  · rw [lines]; exact frame.role
  · rw [lines, read.previousDemand, opened.lines]
  · rw [lines, read.emission, opened.lines]
  · exact (acknowledge_pins _ _).trans frame.pins
  · exact (acknowledge_now _ _).trans frame.now

theorem emits_iff (h : Int) (s : State) : emits h s = true ↔ s.lines.role = .lead ∧ s.lines.previousDemand ≤ 0 ∧ 0 < h ∧
    (s.traction.state = .startHeld ∨ s.traction.state = .running) ∧ (s.lines.halting = false ∧ s.pins.haltLine = false) ∧
    s.lines.emission = none := by
  unfold emits
  simp only [Bool.and_eq_true, beq_iff_eq, decide_eq_true_eq, Bool.or_eq_true, haltLineReleased_iff, Option.isNone_iff_eq_none, and_assoc]

/-- The emission a pass leaves (R76). -/
theorem effortPass_emission (s : State) : (effortPass s).lines.emission =
    if emits (passDemand s) (passAcknowledged s) then some (s.now + 50) else s.lines.emission := by
  have late : LinesKept (passFirst s) (effortPass s) :=
    effortPass_of (linesKept_walk _) (passThird_of (linesKept_walk _) ⟨rfl, rfl⟩)
  have reads := passAcknowledged_reads s
  obtain ⟨-, -, -, -, lines⟩ := judgeEmission_rest (passDemand s) (passAcknowledged s)
  rw [late.emission, passFirst_emission, lines, ← reads.emission, ← reads.now]

/-! ### A LEAD whose demand rises -/

/-- With a demand to power the acknowledgement only clears its run (R66). -/
theorem acknowledge_power {h : Int} (power : 0 < h) : (acknowledge h s).traction = s.traction := by
  cases (acknowledge_judged h s).1 with
  | runs traction latch sound host => exact traction
  | releases full free set traction latch => omega

/-- In a LEAD the reading leaves the traction state and the lines (R30, R31). -/
theorem readDemandOf_leadRest (lead : s.lines.role = .lead) :
    (readDemandOf s).1.traction.state = s.traction.state ∧ (readDemandOf s).1.lines = s.lines := by
  have latch := readDemandOf_halt (s := s) (by rw [lead]; decide)
  refine ⟨?_, ?_⟩
  · rcases readDemandOf_judged s with stays | ⟨clear, ⟨first, latches⟩, -, -⟩
    · exact stays.state
    · have set := latches.latch
      rw [latch, clear] at set; cases set
  · rw [readDemandOf_lead lead]
    unfold readHandle
    split
    · rfl
    · unfold readInvalid raiseHandleFault
      dsimp only
      split
      · rw [raise_lines]; rfl
      · rfl

/-- The demand of a LEAD rises to power, the HALT line released and no emission under way (R76). -/
structure Rises (s : State) : Prop where
  lead : s.lines.role = .lead
  before : s.lines.previousDemand ≤ 0
  power : 0 < passDemand s
  idle : s.lines.emission = none
  halting : s.lines.halting = false
  line : s.pins.haltLine = false

/-- Where the demand rises the emission begins in a unit that the opening leaves START_HELD or RUNNING (R76). -/
theorem Rises.emits (rises : Rises s) (state : (passOpened s).traction.state = .startHeld ∨ (passOpened s).traction.state = .running) :
    Machine.emits (passDemand s) (passAcknowledged s) = true := by
  have reads := passAcknowledged_reads s
  have opened := passOpened_frame s
  obtain ⟨same, lines⟩ := readDemandOf_leadRest (s := passOpened s) ((passOpened_reads s).role.trans rises.lead)
  have halting : (passAcknowledged s).lines.halting = false := by
    rw [show (passAcknowledged s).lines = (passOpened s).lines from (acknowledge_judged _ _).2.2.trans lines, opened.lines]
    exact rises.halting
  have held : (passAcknowledged s).traction.state = (passOpened s).traction.state := by
    rw [show (passAcknowledged s).traction = (passRead s).traction from acknowledge_power rises.power]; exact same
  rw [emits_iff, reads.role, reads.previous, reads.emission, reads.pins, held]
  exact ⟨rises.lead, rises.before, rises.power, state, ⟨halting, rises.line⟩, rises.idle⟩

/-- A unit that emits is RUNNING after stage 1, the pulse retained (R76, R77). -/
theorem passFirst_started (emitted : emits (passDemand s) (passAcknowledged s) = true) :
    (passFirst s).traction.state = .running ∧ (s.cfgN Setting.startRetention ≠ 0 →
      (passFirst s).lines.retained = some (s.now + s.cfgN Setting.startRetention)) := by
  have reads := passAcknowledged_reads s
  obtain ⟨traction, -, -, -, lines⟩ := judgeEmission_rest (passDemand s) (passAcknowledged s)
  rw [passFirst_emission, traction, lines, reads.retention, reads.now, emitted]
  refine ⟨?_, fun kept => if_pos ⟨rfl, kept⟩⟩
  have state := ((emits_iff _ _).1 emitted).2.2.2.1
  split
  · rfl
  next other => exact state.resolve_left fun held => other ⟨rfl, held⟩

/-- A pass of a lawful unit with a clear latch that leaves it RUNNING has judged no rollback, and keeps the pulse (R37, R77). -/
theorem effortPass_retained (law : HaltLaw s) (clear : s.halt.latch = none) (other : s.lines.role ≠ .trail)
    (runs : (effortPass s).traction.state = .running) : (effortPass s).lines.retained = (passFirst s).lines.retained := by
  obtain ⟨state, -⟩ := effortPass_setup s
  have same : passThird s = passJudged s := by
    rw [passThird_rolls]
    refine if_neg fun rolls => ?_
    have new : (passJudged s).halt.causes.has .rollback = false := by
      rw [passJudged_causes, passRead_causes s (by decide) (by decide)]; exact law.quiet clear .rollback
    have latches := addCauses_latches (List.mem_singleton_self Cause.rollback) (passJudged_clear clear other) new (by simp)
    rw [state, passThird_rolls, if_pos rolls, latches.state] at runs
    cases runs
  have lines : (passThird s).lines = (passFirst s).lines := by rw [same, passJudged_eq]; rfl
  rw [effortPass_lines, driveTrainLines, lines]
  split
  · rfl
  · exact congrArg _ lines

/-- The emission of a pass in which the demand of a LEAD rises: of a unit RUNNING or START_HELD that the direction does not inhibit
(R76, R77). -/
theorem Rises.starts (rises : Rises s) (state : s.traction.state = .running ∨ s.traction.state = .startHeld) :
    ((effortPass s).traction.state = .running → (effortPass s).lines.emission = some (s.now + 50)) ∧
    (selectorPosition s = s.traction.direction → (effortPass s).lines.emission = some (s.now + 50) ∧
      ((effortPass s).traction.state = .running ∨ (effortPass s).traction.state = .halted) ∧
      (HaltLaw s → (effortPass s).traction.state = .running → s.cfgN Setting.startRetention ≠ 0 →
        (effortPass s).lines.retained = some (s.now + s.cfgN Setting.startRetention))) := by
  obtain ⟨done, -⟩ := effortPass_setup s
  cases passOpened_course s with
  | leaves was free effort after => rw [was] at state; exact absurd state (by decide)
  | shuts was after reason effort turned =>
    refine ⟨fun runs => ?_, fun same => absurd same turned⟩
    rw [done] at runs
    rcases passThird_shut (.inl after) with third | third <;> (rw [third] at runs; cases runs)
  | stays after effort reason =>
    have emitted := rises.emits (by rw [after]; exact state.symm)
    obtain ⟨first, retained⟩ := passFirst_started emitted
    have emission := effortPass_emission s
    rw [emitted] at emission
    refine ⟨fun _ => emission, fun _ => ⟨emission, ?_, fun law runs kept => ?_⟩⟩
    · rw [done]; exact (passThird_state s).imp_left fun same => same.trans first
    · have clear : s.halt.latch = none := by
        simpa using law.clear (by rcases state with run | held <;> simp [*])
      exact (effortPass_retained law clear (by rw [rises.lead]; decide) runs).trans (retained kept)

/-- Settles O44: the edge and the expiries by the pulse's rules, the emission by what stage 1 reads of it. -/
theorem startPulseStartsUnit : Obligations.StartPulseStartsUnit := by
  refine ⟨fun s => ⟨fun idle halting line => ?_, fun busy => ?_, fun x runs => ?_, fun x runs => ?_⟩, fun inputs s t next => ?_⟩
  · have released : haltLineReleased s = true := (haltLineReleased_iff s).2 ⟨halting, line⟩
    exact congrArg _ ((if_pos (by simp [idle, released])).trans (startPulse_released released))
  · have deaf : ¬((s.lines.emission.isNone && haltLineReleased s) = true) := by
      rw [Bool.and_eq_true, haltLineReleased_iff, Option.isNone_iff_eq_none]
      rintro ⟨idle, halting, line⟩
      rcases busy with emits | drives | high
      · exact emits idle
      · rw [halting] at drives; cases drives
      · rw [line] at high; cases high
    exact congrArg _ (if_neg deaf)
  · exact congrArg _ (atExpiry_some runs)
  · exact congrArg _ (atExpiry_some runs)
  · have emission := effortPass_emission (passStart inputs s)
    have previous := effortPass_previousDemand (passStart inputs s)
    have reads := passAcknowledged_reads (passStart inputs s)
    have starts := Rises.starts (s := passStart inputs s)
    rw [← exec_controlPeriod_next next] at emission previous starts
    clear next
    refine ⟨fun quiet => ?_, fun lead before power idle halting line state => ?_⟩
    · refine emission.trans (if_neg fun emitted => ?_)
      rw [emits_iff, reads.role, reads.previous, reads.emission, ← previous] at emitted
      obtain ⟨lead, before, power, -, -, idle⟩ := emitted
      rcases quiet with other | high | low | busy
      · exact other lead
      · exact absurd before (not_le.2 high)
      · exact absurd power (not_lt.2 low)
      · exact busy idle
    · obtain ⟨emits, stands⟩ := starts ⟨lead, before, previous ▸ power, idle, halting, line⟩ state
      refine ⟨emits, fun same => ?_⟩
      have selector := selectorPosition_start inputs s
      rw [if_neg (by rw [lead]; decide)] at selector
      obtain ⟨emission, runs, kept⟩ := stands (selector.trans same)
      exact ⟨emission, runs, fun law => kept ⟨law.halted, law.latched⟩⟩

end Sys2Proof.Machine
end

section
/-! The door release (R20 to R22, R144, R149): what it takes from the unit, the latch it clears, the stops it serves. -/

namespace Sys2Proof.Machine

variable {s t u : State} {e : Entry}

/-! ### The unit the doors inhibit -/

/-- An inhibit reason leaves all but the traction unit; of it the state alone where there is no power to take (R20, R21). -/
theorem enterInhibited_door (u : State) :
    (u.traction.state = .running ∨ u.traction.state = .startHeld → (enterInhibited u).traction.state = .inhibited) ∧
    (u.traction.state = .halted → (enterInhibited u).traction = u.traction) ∧
    (u.traction.state = .running → 0 < u.traction.effort →
      (enterInhibited u).traction.effort = 0 ∧ (enterInhibited u).traction.effortA = 0 ∧ (enterInhibited u).traction.effortB = 0 ∧
      (enterInhibited u).traction.lineA = .low ∧ (enterInhibited u).traction.lineB = .low) ∧
    (u.traction.effort ≤ 0 → (enterInhibited u).traction = { u.traction with state := (enterInhibited u).traction.state }) := by
  unfold enterInhibited
  cases state : u.traction.state with
  | running =>
    refine ⟨fun _ => (closeGate_cases _).1, nofun, fun _ power => ?_, fun still => ?_⟩
    · have low := writeLines_low (x := { u.traction with state := .inhibited, effort := 0, effortA := 0, effortB := 0 }) ⟨rfl, rfl⟩
      simp only [State.setTraction_traction]
      rw [closeGate_power (t := { u.traction with state := .inhibited }) power]
      refine ⟨?_, ?_, ?_, low.1, low.2⟩ <;> rw [writeLines_eq]
    · simp only [State.setTraction_traction]
      rw [closeGate_still (t := { u.traction with state := .inhibited }) still]
  | startHeld => exact ⟨fun _ => rfl, nofun, nofun, fun _ => rfl⟩
  | inhibited => exact ⟨nofun, nofun, nofun, fun _ => rfl⟩
  | halted => exact ⟨nofun, fun _ => rfl, nofun, fun _ => rfl⟩

/-! ### The stop-request latch -/

theorem stopKept (t : State) : RouteWalk fun u => u.stop = t.stop := .other (fun _ _ h => h) fun _ _ h => h

theorem serveStops_stop (s : State) : (serveStops s).stop = s.stop := serveStops_at (blockStore_stop s) (stopKept s) rfl

theorem judgeStops_stop (s : State) : (judgeStops s).stop = s.stop := judgeStops_at (blockStore_stop s) (stopKept s) rfl

theorem clearStopLatch_stop (s : State) :
    (clearStopLatch s).stop.latch = none ∧ (clearStopLatch s).stop.buttons = s.stop.buttons := by
  unfold clearStopLatch
  split
  · rw [judgeStops_stop]; exact ⟨rfl, rfl⟩
  next clear => exact ⟨by simpa using clear, rfl⟩

theorem judgeLock_quietHost (g : Group) (b : Bool) (calm : s.settings.pending = []) : (judgeLock g b s).host = s.host := by
  unfold judgeLock applyPending
  simp only [State.setSettings_settings, calm, List.filter_nil, List.isEmpty_nil, if_true]
  split <;> rfl

/-- With no value pending the latch is cleared without a word: the route, the values and the events stay (R144, R168). -/
theorem clearStopLatch_calm (calm : s.settings.pending = []) :
    (clearStopLatch s).route = s.route ∧ (clearStopLatch s).settings.effective = s.settings.effective ∧
    (clearStopLatch s).host = s.host := by
  unfold clearStopLatch
  split
  · obtain ⟨-, effective⟩ := judgeLock_calm (s := s.setStop { s.stop with latch := none, sensed := s.pins.stopreqLine }) .g4 false calm
    have values : ∀ n, s.settings.value n =
        (judgeLock .g4 false (s.setStop { s.stop with latch := none, sensed := s.pins.stopreqLine })).cfg n := fun n => by
      unfold State.cfg SettingsStore.value; rw [effective]; rfl
    have judged : judgeStops (s.setStop { s.stop with latch := none, sensed := s.pins.stopreqLine }) =
        judgeLock .g4 false (s.setStop { s.stop with latch := none, sensed := s.pins.stopreqLine }) := if_pos (values _)
    rw [judged]
    exact ⟨judgeLock_route _ _ _, effective, judgeLock_quietHost _ _ calm⟩
  · exact ⟨rfl, rfl, rfl⟩

/-! ### Stop service -/

theorem settleRoute_host (s : State) : (settleRoute s).host = s.host ∧ (settleRoute s).settings = s.settings := by
  obtain ⟨x, same⟩ := judgeInhibit_eq (formCeiling (retire s))
  unfold settleRoute
  rw [same]
  exact ⟨rfl, rfl⟩

/-- A list with no entry to serve is passed over (R149). -/
theorem foldl_serveEntry_none {l : List Entry} (none : ∀ x ∈ l, ¬x.servedIn s) : l.foldl serveEntry s = s := by
  induction l with
  | nil => rfl
  | cons x l ih =>
    rw [List.foldl_cons, serveEntry_leaves fun h => none x List.mem_cons_self ((serves_iff s x).1 h)]
    exact ih fun y inside => none y (List.mem_cons_of_mem _ inside)

theorem serveStops_none (none : ∀ x ∈ s.route.table, ¬x.servedIn s) : serveStops s = s := by
  unfold serveStops
  split
  · rw [foldl_serveEntry_none none]; exact if_pos rfl
  · rfl

/-- An entry served is another. -/
theorem Entry.servedIn_ne (h : e.servedIn s) : e.served ≠ e := by
  obtain ⟨p, body, state, -⟩ := h
  intro same
  have inner := congrArg Entry.body same
  unfold Entry.served at inner
  rw [body] at inner
  have served : StopState.served = p.state := congrArg StopEntry.state (EntryBody.stop.inj inner)
  rw [← served] at state
  exact absurd state (by decide)

/-- The state of stop service before its settling: the entries SERVED, their events raised (R149). -/
def servedState (s : State) (h : HostLink) : State := (s.setRoute { s.route with table := servedTable s }).setHost h

/-- Where an entry is served the route is settled on the served table (R100, R149). -/
theorem serveStops_settles (door : s.pins.doorRelease = true) (stopped : s.axle.standstill = true)
    (tags : (s.route.table.map (·.tag)).Nodup) (inside : e ∈ s.route.table) (served : e.servedIn s) :
    serveStops s = settleRoute (s.route.table.foldl serveEntry s) ∧
    ∃ h, s.route.table.foldl serveEntry s = servedState s h := by
  obtain ⟨h, folded⟩ := foldl_serveEntry s.route.table s rfl rfl
  have changed : servedTable s ≠ s.route.table := fun same => by
    have own := (mem_servedTable tags inside).1 served
    rw [same] at own
    exact Entry.servedIn_ne served (List.inj_on_of_nodup_map tags own inside (served_tag e))
  refine ⟨?_, h, folded⟩
  unfold serveStops
  rw [door, stopped, Bool.and_self, if_pos rfl]
  exact if_neg fun same => changed (by rw [folded] at same; exact same)

/-- The events of the only stop served (R149). -/
theorem foldl_serveEntry_one {p : StopEntry} (tags : (s.route.table.map (·.tag)).Nodup) (inside : e ∈ s.route.table)
    (served : e.servedIn s) (body : e.body = .stop p) (only : ∀ x ∈ s.route.table, x.servedIn s → x = e) (empty : s.host.events = []) :
    (s.route.table.foldl serveEntry s).host.events = [⟨5, e.tag, false, p.stop, s.route.distance⟩] := by
  obtain ⟨before, after, split⟩ := List.append_of_mem inside
  have distinct : ∀ x ∈ before ++ after, x ≠ e := by
    have nodup := tags.of_map
    rw [split] at nodup
    rintro x member rfl
    exact (List.nodup_middle.1 nodup).notMem member
  have others : ∀ x ∈ before ++ after, ¬x.servedIn s := fun x member taken =>
    distinct x member (only x (by rw [split]; simp only [List.mem_append, List.mem_cons] at member ⊢; tauto) taken)
  have taken : serveEntry s e = raise 5 e.tag p.stop (enterStop e.tag .served s) := by
    obtain ⟨q, same, state, crossed, low, high⟩ := served
    obtain rfl : q = p := EntryBody.stop.inj (same.symm.trans body)
    unfold serveEntry
    rw [body]
    exact if_pos ⟨state, crossed, by simp [inWindow, low, high]⟩
  rw [split, List.foldl_append, List.foldl_cons, foldl_serveEntry_none fun x member => others x (List.mem_append_left _ member), taken,
    foldl_serveEntry_none (s := raise 5 e.tag p.stop (enterStop e.tag .served s)) fun x member => others x (List.mem_append_right _ member)]
  have host : (enterStop e.tag .served s).host.events = [] := empty
  unfold raise enterEvent
  dsimp only
  rw [host]
  rfl

/-- What the doors leave of the entries they serve (R100, R149). -/
theorem served_settled {h : HostLink} (tags : (s.route.table.map (·.tag)).Nodup) (inside : e ∈ s.route.table) :
    let w := settleRoute (servedState s h)
    let after := fun e' : Entry => (e'.body.retiresIn s w → ∀ x ∈ w.route.table, x.tag ≠ e.tag) ∧
      (¬e'.body.retiresIn s w → e' ∈ w.route.table)
    (e.servedIn s → after e.served) ∧ (¬e.servedIn s → after e) := by
  obtain ⟨x, same⟩ := judgeInhibit_eq (formCeiling (retire (servedState s h)))
  have table : (settleRoute (servedState s h)).route.table = (servedTable s).filter fun e => !retires (servedState s h) e := by
    unfold settleRoute; rw [same]; rfl
  have place : (settleRoute (servedState s h)).route.setLength = s.route.setLength ∧
      (settleRoute (servedState s h)).route.distance = s.route.distance := by
    unfold settleRoute; rw [same]; exact ⟨rfl, rfl⟩
  have retired : ∀ e : Entry, retires (servedState s h) e = true ↔ e.body.retiresIn s (settleRoute (servedState s h)) := fun e => by
    rw [retires_iff]
    unfold EntryBody.retiresIn
    rw [place.1, place.2]
    rfl
  have own : ((servedTable s).map (·.tag)).Nodup := by rw [servedTable_tags]; exact tags
  have after : ∀ e' ∈ servedTable s, e'.tag = e.tag →
      (e'.body.retiresIn s (settleRoute (servedState s h)) → ∀ x ∈ (settleRoute (servedState s h)).route.table, x.tag ≠ e.tag) ∧
      (¬e'.body.retiresIn s (settleRoute (servedState s h)) → e' ∈ (settleRoute (servedState s h)).route.table) :=
    fun e' member tag => by
      rw [table]
      refine ⟨fun gone x stays again => ?_, fun stays => List.mem_filter.2 ⟨member, ?_⟩⟩
      · obtain ⟨there, kept⟩ := List.mem_filter.1 stays
        obtain rfl := List.inj_on_of_nodup_map own there member (again.trans tag.symm)
        rw [(retired x).2 gone] at kept
        cases kept
      · rw [← retired] at stays
        simpa using stays
  obtain ⟨taken, left⟩ := mem_servedTable tags inside
  exact ⟨fun serves => after _ (taken serves) (served_tag e), fun other => after _ (left other) rfl⟩

/-! ### The doors -/

/-- The state in which the doors are released and the unit is inhibited (R21). -/
def doorInhibited (s : State) : State := enterInhibited (s.setPins { s.pins with doorRelease := true })

theorem openDoors_eq (s : State) : openDoors s = clearStopLatch (serveStops (doorInhibited s)) := rfl

/-- Of the state the doors change their pin and the traction unit alone, before they serve stops. -/
theorem doorInhibited_eq (s : State) : doorInhibited s =
    (s.setPins { s.pins with doorRelease := true }).setTraction (doorInhibited s).traction := enterInhibited_eq _

theorem doorInhibited_servedIn (s : State) (e : Entry) : e.servedIn (doorInhibited s) ↔ e.servedIn s := by
  rw [doorInhibited_eq]; exact Iff.rfl

/-- The ceiling and the inhibit outlive the clearing of the stop-request latch (R101, R102). -/
theorem CeilingFormed.congr (formed : CeilingFormed s) (route : t.route = s.route) (axle : t.axle = s.axle)
    (values : t.settings.effective = s.settings.effective) : CeilingFormed t := by
  have cfg : ∀ n, t.cfg n = s.cfg n := fun n => by unfold State.cfg SettingsStore.value; rw [values]
  have limit : ∀ c, limits t c ↔ limits s c := fun c => by unfold limits; rw [route]
  have approach : approaches t ↔ approaches s := by unfold approaches; rw [route]
  have degraded : degrades t ↔ degrades s := by unfold degrades; rw [axle]
  obtain ⟨line, restriction, approached, degrade, term⟩ := formed
  refine ⟨?_, fun c h => ?_, fun h => ?_, fun h => ?_, ?_⟩
  · rw [route, cfg]; exact line
  · rw [route]; exact restriction c ((limit c).1 h)
  · rw [route, cfg]; exact approached (approach.1 h)
  · rw [route, cfg]; exact degrade (degraded.1 h)
  · rw [route, cfg, cfg, cfg]
    simp only [limit, approach, degraded]
    exact term

/-- Where the doors serve a stop the route is settled on the served entries (R149). -/
theorem openDoors_serves (calm : s.settings.pending = []) (law : RouteLaw s.route) (stopped : s.axle.standstill = true)
    (inside : e ∈ s.route.table) (served : e.servedIn s) :
    ∃ h, (s.route.table.foldl serveEntry (doorInhibited s)).host = h ∧
      (openDoors s).route = (settleRoute (servedState (doorInhibited s) h)).route ∧
      CeilingFormed (openDoors s) ∧ InhibitFormed (openDoors s) ∧ (openDoors s).host = h := by
  have route : (doorInhibited s).route = s.route := by rw [doorInhibited_eq]; rfl
  have door : (doorInhibited s).pins.doorRelease = true := by rw [doorInhibited_eq]; rfl
  have halted : (doorInhibited s).axle.standstill = true := by rw [doorInhibited_eq]; exact stopped
  have settings : (doorInhibited s).settings = s.settings := by rw [doorInhibited_eq]; rfl
  obtain ⟨settles, h, folded⟩ := serveStops_settles (s := doorInhibited s) (e := e) door halted (by rw [route]; exact law.tags)
    (by rw [route]; exact inside) ((doorInhibited_servedIn s e).2 served)
  rw [folded] at settles
  obtain ⟨host, kept⟩ := settleRoute_host (servedState (doorInhibited s) h)
  have still : (settleRoute (servedState (doorInhibited s) h)).settings.pending = [] := by
    rw [kept]; show (doorInhibited s).settings.pending = []; rw [settings]; exact calm
  obtain ⟨ceiling, inhibit⟩ := settleRoute_formed (servedState (doorInhibited s) h)
  obtain ⟨same, values, quiet⟩ := clearStopLatch_calm still
  refine ⟨h, ?_, ?_, ?_, ?_, ?_⟩
  · rw [← route, folded]; rfl
  · rw [openDoors_eq, settles, same]
  · rw [openDoors_eq, settles]; exact ceiling.congr same (by simp) values
  · rw [openDoors_eq, settles]; unfold InhibitFormed; rw [same]; exact inhibit
  · rw [openDoors_eq, settles, quiet, host]; rfl

/-- Where the doors serve no stop the route stays (R149). -/
theorem openDoors_still (calm : s.settings.pending = [])
    (none : s.axle.standstill = false ∨ ∀ e ∈ s.route.table, ¬e.servedIn s) : (openDoors s).route = s.route := by
  have route : (doorInhibited s).route = s.route := by rw [doorInhibited_eq]; rfl
  have same : serveStops (doorInhibited s) = doorInhibited s := by
    rcases none with moving | none
    · exact serveStops_closed fun both => by
        rw [show (doorInhibited s).axle = s.axle by rw [doorInhibited_eq]; rfl, moving] at both
        exact absurd both.2 (by decide)
    · exact serveStops_none fun x member taken => none x (route ▸ member) ((doorInhibited_servedIn s x).1 taken)
  have still : (doorInhibited s).settings.pending = [] := by rw [doorInhibited_eq]; exact calm
  rw [openDoors_eq, same, (clearStopLatch_calm still).1, route]

/-- Settles O35: the unit inhibited, the stops served and the latch cleared, in that order. -/
theorem doorReleaseStopsPower : Obligations.DoorReleaseStopsPower := by
  refine fun s => ⟨fun closed => ⟨openDoors s, congrArg _ (if_neg (by simp [closed])), ?_⟩, fun opened => congrArg _ (if_pos opened), rfl⟩
  obtain ⟨shuts, halted, power, still⟩ := enterInhibited_door (s.setPins { s.pins with doorRelease := true })
  obtain ⟨latch, buttons⟩ := clearStopLatch_stop (serveStops (doorInhibited s))
  have traction : (openDoors s).traction = (doorInhibited s).traction := by simp [openDoors_eq]
  have start := doorInhibited_eq s
  rw [traction]
  refine ⟨?_, latch, shuts, halted, power, still, ?_, ?_, ?_, ?_, ?_, ?_, ?_, openDoors_still, fun calm law stopped some => ?_,
    fun e p calm law stopped empty inside served body only => ?_⟩
  · simp only [openDoors_eq, clearStopLatch_pins, serveStops_pins]; rw [start]; rfl
  · simp only [openDoors_eq, clearStopLatch_now, serveStops_now]; rw [start]; rfl
  · simp only [openDoors_eq, clearStopLatch_axle, serveStops_axle]; rw [start]; rfl
  · simp only [openDoors_eq, clearStopLatch_halt, serveStops_halt]; rw [start]; rfl
  · simp only [openDoors_eq, clearStopLatch_vigilance, serveStops_vigilance]; rw [start]; rfl
  · simp only [openDoors_eq, clearStopLatch_lines, serveStops_lines]; rw [start]; rfl
  · simp only [openDoors_eq, clearStopLatch_junction, serveStops_junction]; rw [start]; rfl
  · rw [openDoors_eq, buttons, serveStops_stop, start]; rfl
  · obtain ⟨e, inside, served⟩ := some
    obtain ⟨h, -, route, ceiling, inhibit, -⟩ := openDoors_serves calm law stopped inside served
    have place : (openDoors s).route.distance = s.route.distance := by
      obtain ⟨x, same⟩ := judgeInhibit_eq (formCeiling (retire (servedState (doorInhibited s) h)))
      rw [route, settleRoute, same, start]; rfl
    refine ⟨ceiling, inhibit, place, fun e inside => ?_⟩
    have settled := served_settled (s := doorInhibited s) (h := h) (e := e) (by rw [start]; exact law.tags) (by rw [start]; exact inside)
    have settings : (doorInhibited s).settings = s.settings := by rw [start]; rfl
    rw [doorInhibited_servedIn] at settled
    unfold EntryBody.retiresIn State.cfgN at settled ⊢
    rw [settings] at settled
    rw [route]
    exact settled
  · obtain ⟨h, folded, -, -, -, host⟩ := openDoors_serves calm law stopped inside served
    rw [host, ← folded]
    have one := foldl_serveEntry_one (s := doorInhibited s) (e := e) (p := p) (by rw [start]; exact law.tags) (by rw [start]; exact inside)
      ((doorInhibited_servedIn s e).2 served) body (fun x member taken => only x (by rw [start] at member; exact member)
        ((doorInhibited_servedIn s x).1 taken)) (by rw [start]; exact empty)
    have route : (doorInhibited s).route = s.route := by rw [start]; rfl
    rw [route] at one
    exact one

end Sys2Proof.Machine
end

section
/-! The halt latch and the traction unit within one event, carried from operation to operation (R20, R21, R24, R41, R61 to R64): a
reference state, the start of the event changed in what the event itself changes, stands for what the operations must leave. -/

namespace Sys2Proof.Machine

variable {B I : Prop} {D : Nat} {a s u v : State} {x y z : Traction}

/-! ### The traction unit -/

/-- E, its bogie efforts and its lines are the same. -/
structure Traction.EffortStays (x y : Traction) : Prop where
  effort : y.effort = x.effort
  effortA : y.effortA = x.effortA
  effortB : y.effortB = x.effortB
  lineA : y.lineA = x.lineA
  lineB : y.lineB = x.lineB

/-- A positive E of a RUNNING unit has gone by the closed gate (R20). -/
structure Traction.GateTook (x y : Traction) : Prop where
  moving : x.state = .running
  power : 0 < x.effort
  left : y.state ≠ .running
  effort : y.effort = 0
  effortA : y.effortA = 0
  effortB : y.effortB = 0

/-- What halts and a change of role leave of the traction unit: its state and E alone change. `B` says that BREACH may brake, `I`
that the role has changed. -/
structure Traction.Course (B I : Prop) (x y : Traction) : Prop where
  setup : x.SameSetup y
  state : y.state = x.state ∨ y.state = .inhibited ∨ y.state = .halted
  stopped : I → y.state = .inhibited ∨ y.state = .halted
  effort : x.EffortStays y ∨ x.GateTook y ∨ (B ∧ y.effort = -1000)

theorem Traction.Course.refl (x : Traction) : x.Course B False x := ⟨.refl x, .inl rfl, False.elim, .inl ⟨rfl, rfl, rfl, rfl, rfl⟩⟩

/-- A gate that closes on leaving RUNNING takes a positive E, and nothing else goes (R20). -/
theorem Traction.Course.close {st : TractionState} (stops : st = .inhibited ∨ st = .halted) (h : x.Course B I y) :
    x.Course B True (if y.state = .running then closeGate { y with state := st } else { y with state := st }) := by
  have left : st ≠ .running := by rcases stops with rfl | rfl <;> decide
  have still : x.Course B True { y with state := st } := by
    refine ⟨h.setup.trans rfl, .inr stops, fun _ => stops, h.effort.imp (fun same => { same with }) (Or.imp_left fun took => ?_)⟩
    exact { took with left := left }
  split
  next moving =>
    by_cases power : 0 < y.effort
    · have same : x.EffortStays y := h.effort.resolve_right fun other => by
        rcases other with took | ⟨-, braked⟩
        · exact took.left moving
        · omega
      have running : x.state = .running := by
        rcases h.state with kept | stopped | stopped
        · rw [← kept, moving]
        · rw [moving] at stopped; cases stopped
        · rw [moving] at stopped; cases stopped
      rw [closeGate_power (t := { y with state := st }) power]
      have written := writeLines_eq { y with state := st, effort := 0, effortA := 0, effortB := 0 }
      have state : (writeLines { y with state := st, effort := 0, effortA := 0, effortB := 0 }).state = st := by rw [written]
      refine ⟨(h.setup.trans (b := y) (c := { y with state := st, effort := 0, effortA := 0, effortB := 0 }) rfl).trans (writeLines_setup _),
        .inr (by rw [state]; exact stops), fun _ => by rw [state]; exact stops,
        .inr (.inl ⟨running, same.effort ▸ power, by rw [state]; exact left, by rw [written], by rw [written], by rw [written]⟩)⟩
    · rw [closeGate_still (t := { y with state := st }) (not_lt.1 power)]; exact still
  · exact still

theorem Traction.Course.weaken {J : Prop} (less : J → I) (h : x.Course B I y) : x.Course B J y := { h with stopped := h.stopped ∘ less }

/-- The unit HALTED (R24). -/
theorem Traction.Course.halted (h : x.Course B I y) : x.Course B I y.halted :=
  (h.close (st := .halted) (.inr rfl)).weaken fun _ => trivial

/-- The unit INHIBITED, unless HALTED (R21). -/
theorem Traction.Course.inhibited (h : x.Course B I u.traction) : x.Course B True (enterInhibited u).traction := by
  have closed := h.close (st := .inhibited) (.inl rfl)
  unfold enterInhibited
  split
  next moving => rw [if_pos moving] at closed; exact closed
  next held => rw [if_neg (by rw [held]; decide)] at closed; exact closed
  next others =>
    refine { h with stopped := fun _ => ?_ }
    cases found : u.traction.state <;> simp_all

/-- E at −1000 by BREACH (R41). -/
theorem Traction.Course.brake (may : B) (setup : y.SameSetup z) (state : z.state = y.state) (effort : z.effort = -1000)
    (h : x.Course B I y) : x.Course B I z :=
  ⟨h.setup.trans setup, state ▸ h.state, state ▸ h.stopped, .inr (.inr ⟨may, effort⟩)⟩

/-! ### The event's course -/

/-- A latch that has set in the event: its record takes the time, the speed and the flag, HALT LATCHED is raised, the unit HALTED
(R24, R62, R64). -/
structure LatchTold (r : LatchRecord) (u : State) : Prop where
  time : r.time = u.now
  speed : r.speed = u.axle.refSpeed
  stopped : r.stopped = u.axle.standstill
  run : u.halt.ackRun = none
  state : u.traction.state = .halted
  recorded : Recorded 30 r.first.code r.speed u

/-- No BREACH can join: the BREACHED entries have theirs present, and the C mark of every other lies beyond `D` (R61, R125). -/
def Unbreached (D : Nat) (u : State) : Prop :=
  ∀ e ∈ u.route.table, ∀ j, e.body = .junction j →
    (j.state = .breached → u.halt.causes.has .breach = true) ∧ (e.crossed ≤ 2 → D < j.markC)

/-- The causes an operation of the event joins or ends only where the event itself does (R32, R61, R65). -/
def Cause.Spared (c : Cause) : Prop := c = .host ∨ c = .rollback ∨ c = .demandLost

/-- From the reference state `a` an event has come to `u`. `B` says that BREACH may join, `I` that the role has changed. -/
structure Bears (B I : Prop) (D : Nat) (a u : State) : Prop where
  role : u.lines.role = a.lines.role
  coupled : u.lines.coupled = a.lines.coupled
  flag : u.axle.standstill = a.axle.standstill
  distance : u.route.distance = a.route.distance
  kept : ∀ r, a.halt.latch = some r → u.halt.latch = some r
  fresh : a.halt.latch = none → ∀ r, u.halt.latch = some r → LatchTold r u
  run : a.halt.latch ≠ none ∨ u.halt.latch = none → u.halt.ackRun = a.halt.ackRun
  causes : ∀ c : Cause, c.Spared → u.halt.causes.has c = a.halt.causes.has c
  breach : a.halt.causes.has .breach = false → u.halt.causes.has .breach = true → u.traction.effort = -1000
  course : a.traction.Course B I u.traction
  still : ¬I → (a.halt.latch = none ∧ u.halt.latch = none) ∨ (a.halt.latch ≠ none ∧ ¬B) → u.traction = a.traction
  guard : ¬B → Unbreached D u

theorem Bears.refl (guard : ¬B → Unbreached D a) : Bears B False D a a :=
  ⟨rfl, rfl, rfl, rfl, fun _ h => h, fun clear r set => absurd (clear.symm.trans set) (by simp), fun _ => rfl, fun _ _ => rfl,
    fun absent present => absurd (absent.symm.trans present) (by decide), .refl _, fun _ _ => rfl, guard⟩

/-! ### Operations that leave the latch, its causes and the traction unit -/

/-- What the event's course reads is the same, but for the table of the route engine. -/
structure BearsAlike (u v : State) : Prop where
  now : v.now = u.now
  speed : v.axle.refSpeed = u.axle.refSpeed
  flag : v.axle.standstill = u.axle.standstill
  role : v.lines.role = u.lines.role
  coupled : v.lines.coupled = u.lines.coupled
  halt : v.halt = u.halt
  traction : v.traction = u.traction
  recorded : ∀ {j w}, Recorded 30 j w u → Recorded 30 j w v

theorem LatchTold.alike {r : LatchRecord} (same : BearsAlike u v) (h : LatchTold r u) : LatchTold r v :=
  ⟨h.time.trans same.now.symm, h.speed.trans same.speed.symm, h.stopped.trans same.flag.symm, by rw [same.halt]; exact h.run,
    by rw [same.traction]; exact h.state, same.recorded h.recorded⟩

theorem Unbreached.tame (tame : u.route.Tame v.route) (halt : v.halt = u.halt) (h : Unbreached D u) : Unbreached D v := by
  intro e mem j body
  obtain ⟨x, inside, change⟩ := tame.entries e mem
  obtain ⟨k, own, state, mark, crossed⟩ := change j body
  obtain ⟨breached, beyond⟩ := h x inside k own
  rw [halt, state, mark]
  exact ⟨breached, fun le => beyond (crossed.trans le)⟩

/-- Another table, as the event's entries stand, at the same distance. -/
theorem Bears.alikeOn (same : BearsAlike u v) (distance : v.route.distance = u.route.distance)
    (guard : ¬B → Unbreached D u → Unbreached D v) (h : Bears B I D a u) : Bears B I D a v where
  role := same.role.trans h.role
  coupled := same.coupled.trans h.coupled
  flag := same.flag.trans h.flag
  distance := distance.trans h.distance
  kept := by rw [same.halt]; exact h.kept
  fresh := by rw [same.halt]; exact fun clear r set => (h.fresh clear r set).alike same
  run := by rw [same.halt]; exact h.run
  causes := by rw [same.halt]; exact h.causes
  breach := by rw [same.halt, same.traction]; exact h.breach
  course := by rw [same.traction]; exact h.course
  still := by rw [same.halt, same.traction]; exact h.still
  guard := fun calm => guard calm (h.guard calm)

theorem Bears.alike (same : BearsAlike u v) (tame : u.route.Tame v.route) (h : Bears B I D a u) : Bears B I D a v :=
  h.alikeOn same tame.distance fun _ => Unbreached.tame tame same.halt

theorem RouteEngine.Tame.of_eq {a b : RouteEngine} (same : b = a) : a.Tame b := same ▸ .kept rfl rfl

theorem Bears.raise {k j : Nat} {w : Int} (other : k ≠ 30) (h : Bears B I D a u) : Bears B I D a (Machine.raise k j w u) :=
  Bears.alike (u := u) ⟨rfl, rfl, rfl, rfl, rfl, rfl, rfl, fun r => r.raise other⟩ (.of_eq rfl) h

theorem Bears.lock {g : Group} {b : Bool} (h : Bears B I D a u) : Bears B I D a (judgeLock g b u) :=
  h.alike ⟨by simp, by simp, by simp, by simp, by simp, by simp, by simp, fun {j w} r =>
    judgeLock_events (P := Recorded 30 j w) (fun h => h) (fun h => h.raise (by decide)) r⟩ (.of_eq (by simp))

/-! ### Causes -/

/-- Causes that change, but for those spared; BREACH joins only with E at −1000, and ends only without a BREACHED entry. -/
theorem Bears.causing {c : Causes} (spared : ∀ y : Cause, y.Spared → c.has y = u.halt.causes.has y)
    (joins : u.halt.causes.has .breach = false → c.has .breach = true → u.traction.effort = -1000)
    (ends : ¬B → ∀ e ∈ u.route.table, ∀ j, e.body = .junction j → j.state = .breached → c.has .breach = true)
    (h : Bears B I D a u) : Bears B I D a (u.causing c) :=
  { h with
    fresh := fun clear r set => { h.fresh clear r set with }
    causes := fun y mine => (spared y mine).trans (h.causes y mine)
    breach := fun absent present => by
      cases before : u.halt.causes.has .breach with
      | false => exact joins before present
      | true => exact h.breach absent before
    guard := fun calm e mem j body => ⟨ends calm e mem j body, (h.guard calm e mem j body).2⟩ }

@[simp] theorem setLatch_axle (c : Cause) (s : State) : (setLatch c s).axle = s.axle := by simp [setLatch_eq, latchedFrom]
@[simp] theorem setLatch_route (c : Cause) (s : State) : (setLatch c s).route = s.route := by simp [setLatch_eq, latchedFrom]
@[simp] theorem setLatch_now (c : Cause) (s : State) : (setLatch c s).now = s.now := by simp [setLatch_eq, latchedFrom]

/-- A clear latch sets (R24, R62). -/
theorem Bears.latches (first : Cause) (clear : u.halt.latch = none) (h : Bears B I D a u) : Bears B I D a (setLatch first u) := by
  have unset : a.halt.latch = none := by
    cases found : a.halt.latch with
    | none => rfl
    | some r => rw [h.kept r found] at clear; cases clear
  have halted := h.course.halted
  exact {
    role := by simp [h.role]
    coupled := by simp [h.coupled]
    flag := by simp [h.flag]
    distance := by simp [h.distance]
    kept := fun r set => by rw [unset] at set; cases set
    fresh := fun _ r set => by
      simp only [setLatch_halt, Option.some.injEq] at set
      subst set
      exact ⟨by simp, by simp, by simp, by simp, by simp [Traction.halted_state], setLatch_recorded first u⟩
    run := fun other => by simp [unset] at other
    causes := fun y mine => by simpa using h.causes y mine
    breach := fun absent present => by
      have braked := h.breach absent (by simpa using present)
      rw [setLatch_traction, Traction.halted_effort_eq, if_neg (by omega), braked]
    course := by rw [setLatch_traction]; exact halted
    still := fun _ either => by simp [unset] at either
    guard := fun calm => by
      have guarded := h.guard calm
      unfold Unbreached at *
      simpa using guarded }

/-- BREACH joins on a set latch, and brakes (R41). -/
theorem Bears.brakes {c : Causes} (may : B) (set : u.halt.latch ≠ none)
    (spared : ∀ y : Cause, y.Spared → c.has y = u.halt.causes.has y) (h : Bears B I D a u) :
    Bears B I D a (breachBraking (u.causing c)) := by
  obtain ⟨effort, state, setup⟩ := breachBraking_traction (u.causing c)
  have halt := breachBraking_halt (u.causing c)
  have recorded : ∀ {j w}, Recorded 30 j w u → Recorded 30 j w (breachBraking (u.causing c)) := fun {j w} r => by
    rw [breachBraking_eq]
    exact judgeLock_events (P := Recorded 30 j w) (fun h => h) (fun h => h.raise (by decide)) r
  have axle : (breachBraking (u.causing c)).axle = u.axle := by rw [breachBraking_eq, judgeLock_axle]; rfl
  have lines : (breachBraking (u.causing c)).lines = u.lines := by rw [breachBraking_eq, judgeLock_lines]; rfl
  have route : (breachBraking (u.causing c)).route = u.route := by rw [breachBraking_eq, judgeLock_route]; rfl
  have now : (breachBraking (u.causing c)).now = u.now := by rw [breachBraking_eq, judgeLock_now]; rfl
  exact {
    role := lines ▸ h.role
    coupled := lines ▸ h.coupled
    flag := axle ▸ h.flag
    distance := route ▸ h.distance
    kept := fun r found => by rw [halt]; exact h.kept r found
    fresh := fun clear r found => by
      rw [halt] at found
      have fresh := h.fresh clear r found
      exact ⟨by rw [now]; exact fresh.time, by rw [axle]; exact fresh.speed, by rw [axle]; exact fresh.stopped,
        by rw [halt]; exact fresh.run, state.trans fresh.state, recorded fresh.recorded⟩
    run := by rw [halt]; exact h.run
    causes := fun y mine => by rw [halt]; exact (spared y mine).trans (h.causes y mine)
    breach := fun _ _ => effort
    course := h.course.brake may setup state effort
    still := fun _ either => by
      rw [halt] at either
      rcases either with ⟨-, clear⟩ | ⟨-, calm⟩
      · exact absurd clear set
      · exact absurd may calm
    guard := fun calm => absurd may calm }

/-- BREACH is the highest cause (R63). -/
theorem Cause.highest_breach {c : Cause} (above : Cause.breach.code ≤ c.code) : c = .breach := by
  revert above; cases c <;> decide

/-- Causes join; BREACH that is not present only where it may (R62, R63). -/
theorem Bears.join {cs : List Cause} (mine : ∀ c ∈ cs, ¬c.Spared) (may : ¬B → .breach ∈ cs → u.halt.causes.has .breach = true)
    (h : Bears B I D a u) : Bears B I D a (joinCauses cs u) := by
  rcases joinCauses_cases cs u with ⟨same, -⟩ | ⟨first, c, inside, absent, above, joined⟩
  · rw [same]; exact h
  have has : ∀ y, (joinCauses cs u).halt.causes.has y = if y ∈ cs then true else u.halt.causes.has y := joinCauses_has cs u
  have latched : Bears B I D a (if u.halt.latch.isNone then setLatch first u else u) ∧
      (if u.halt.latch.isNone then setLatch first u else u).halt.latch ≠ none ∧
      (if u.halt.latch.isNone then setLatch first u else u).halt.causes = u.halt.causes := by
    split
    next clear => exact ⟨h.latches first (by simpa using clear), by simp, by simp⟩
    next set => exact ⟨h, by simpa using set, rfl⟩
  rw [joined] at has ⊢
  dsimp only at has ⊢
  generalize (if u.halt.latch.isNone then setLatch first u else u) = w at has latched ⊢
  obtain ⟨bears, set, before⟩ := latched
  have became : ∀ y, c.has y = if y ∈ cs then true else w.halt.causes.has y := fun y => by
    rw [before, ← has y]
    split
    · rw [breachBraking_halt]; rfl
    · rfl
  have spared : ∀ y : Cause, y.Spared → c.has y = w.halt.causes.has y := fun y own => by
    rw [became, if_neg fun inside => mine y inside own]
  split
  next breached =>
    refine bears.brakes ?_ set spared
    by_contra calm
    rw [← breached, absent] at may
    exact Bool.noConfusion (may calm inside)
  next other =>
    refine bears.causing spared (fun new present => ?_) fun calm e mem j body breached => ?_
    · rw [became] at present
      split at present
      next among => exact absurd (Cause.highest_breach (above .breach among (before ▸ new))) other
      · rw [new] at present; cases present
    · rw [became]
      split
      · rfl
      · exact ((bears.guard calm) e mem j body).1 breached

/-- Causes end; BREACH only without a BREACHED entry (R61). -/
theorem Bears.drop {cs : List Cause} (mine : ∀ c ∈ cs, ¬c.Spared)
    (gone : ¬B → .breach ∈ cs → ∀ e ∈ u.route.table, ∀ j, e.body = .junction j → j.state ≠ .breached)
    (h : Bears B I D a u) : Bears B I D a (dropCauses cs u) := by
  have has : ∀ y, (cs.foldl (fun x c => x.put c false) u.halt.causes).has y = if y ∈ cs then false else u.halt.causes.has y :=
    dropCauses_has cs u
  refine h.causing (fun y own => ?_) (fun absent present => ?_) fun calm e mem j body breached => ?_
  · rw [has, if_neg fun inside => mine y inside own]
  · rw [has, absent, ite_self] at present; cases present
  · rw [has, if_neg fun inside => gone calm inside e mem j body breached]
    exact ((h.guard calm) e mem j body).1 breached

/-- The HALT drive judged, with TRAINLINE where it ends (R74, R75). -/
theorem Bears.drive (h : Bears B I D a u) : Bears B I D a (judgeDrive u) := by
  have own : ∀ c ∈ [Cause.trainline], ¬c.Spared := by simp [Cause.Spared]
  have lined : ∀ b r, Bears B I D a (u.setLines { u.lines with halting := b, retained := r }) := fun b r =>
    Bears.alike (u := u) ⟨rfl, rfl, rfl, rfl, rfl, rfl, rfl, fun h => h⟩ (.of_eq rfl) h
  rcases judgeDrive_cases u with ⟨-, e⟩ | ⟨-, -, e⟩ | ⟨-, -, e⟩
  · rw [e]; exact h
  · rw [e]; exact lined true none
  · rw [e]
    exact ite_at (P := Bears B I D a) (fun _ => (lined false _).join own (by simp)) fun _ => (lined false _).drop own (by simp)

theorem Bears.add {cs : List Cause} (mine : ∀ c ∈ cs, ¬c.Spared) (may : ¬B → .breach ∈ cs → u.halt.causes.has .breach = true)
    (h : Bears B I D a u) : Bears B I D a (addCauses cs u) := (h.join mine may).drive

theorem Bears.remove {cs : List Cause} (mine : ∀ c ∈ cs, ¬c.Spared)
    (gone : ¬B → .breach ∈ cs → ∀ e ∈ u.route.table, ∀ j, e.body = .junction j → j.state ≠ .breached)
    (h : Bears B I D a u) : Bears B I D a (removeCauses cs u) := (h.drop mine gone).drive

/-- JUNCTION and BREACH judged over the table (R61). -/
theorem Bears.judge (h : Bears B I D a u) : Bears B I D a (judgeJunctionCauses u) := by
  unfold judgeJunctionCauses
  dsimp only
  have among : ∀ {p q : Bool} {c : Cause}, c ∈ (if p then [Cause.breach] else []) ++ (if q then [Cause.junction] else []) →
      c = .breach ∧ p = true ∨ c = .junction := by
    intro p q c inside
    cases p <;> cases q <;> simp_all
  have mine : ∀ {p q : Bool}, ∀ c ∈ (if p then [Cause.breach] else []) ++ (if q then [Cause.junction] else []), ¬c.Spared := by
    intro p q c inside
    rcases among inside with ⟨rfl, -⟩ | rfl <;> simp [Cause.Spared]
  have breached : ∀ {T : List Entry}, anyJunction T (fun j => j.state == .breached) = true ↔
      ∃ e ∈ T, ∃ j, e.body = .junction j ∧ j.state = .breached := by
    intro T; rw [anyJunction_iff]; simp
  generalize hp : anyJunction u.route.table (fun j => j.state == .breached) = p
  generalize anyJunction u.route.table (fun j => j.state == .overdue || j.state == .refused || j.state == .breached) = q
  have added := h.add mine fun calm inside => by
    obtain ⟨-, present⟩ := (among (p := p) (q := q) inside).resolve_right (by decide)
    obtain ⟨e, mem, j, body, state⟩ := breached.1 (hp.trans present)
    exact ((h.guard calm) e mem j body).1 state
  have removed := added.remove (cs := (if (!p) then [.breach] else []) ++ (if (!q) then [.junction] else [])) mine
    fun _ inside e mem j body state => by
      obtain ⟨-, absent⟩ := (among inside).resolve_right (by decide)
      rw [addCauses_route] at mem
      rw [breached.2 ⟨e, mem, j, body, state⟩] at hp
      rw [← hp] at absent; cases absent
  cases p <;> cases q <;> exact removed

end Sys2Proof.Machine
end

section
/-! The course of an event through the operations it runs (R32, R61 to R65, R72, R84): what the blocks do, the sweep, the standstill
flag, a change of role. -/

namespace Sys2Proof.Machine

variable {B I : Prop} {D : Nat} {a s u v : State}

/-! ### The blocks -/

/-- A state that differs in blocks the event's course does not read. -/
theorem Bears.other (now : v.now = u.now) (axle : v.axle = u.axle) (role : v.lines.role = u.lines.role)
    (coupled : v.lines.coupled = u.lines.coupled) (halt : v.halt = u.halt) (traction : v.traction = u.traction) (host : v.host = u.host)
    (tame : u.route.Tame v.route) (h : Bears B I D a u) : Bears B I D a v :=
  h.alike ⟨now, by rw [axle], by rw [axle], role, coupled, halt, traction, fun r => by unfold Recorded at *; rwa [host]⟩ tame

theorem Bears.unread (now : v.now = u.now) (axle : v.axle = u.axle) (lines : v.lines = u.lines) (halt : v.halt = u.halt)
    (traction : v.traction = u.traction) (host : v.host = u.host) (route : v.route = u.route) (h : Bears B I D a u) : Bears B I D a v :=
  h.other now axle (by rw [lines]) (by rw [lines]) halt traction host (.of_eq route)

/-- An entry enters another state (R61): `B`, or it is not BREACHED. -/
theorem Bears.enter {tag : Nat} {st : JunctionState} (fits : B ∨ st ≠ .breached) (h : Bears B I D a u) :
    Bears B I D a (judgeJunctionCauses (changeEntry tag (Entry.onJunction fun j => { j with state := st }) u)) := by
  refine Bears.judge (Bears.alikeOn (u := u) ⟨rfl, rfl, rfl, rfl, rfl, rfl, rfl, fun h => h⟩ rfl (fun calm guarded => ?_) h)
  intro e mem j body
  obtain ⟨x, inside, rfl⟩ := List.mem_map.1 mem
  split at body
  next own =>
    rw [if_pos own]
    obtain ⟨tag', crossed, body'⟩ := x
    cases body' with
    | junction k =>
      obtain rfl := EntryBody.junction.inj body
      exact ⟨fun breached => absurd breached (fits.resolve_left calm), (guarded _ inside k rfl).2⟩
    | signal g => cases body
    | stop p => cases body
    | restriction r => cases body
  next other => rw [if_neg other]; exact guarded x inside j body

theorem bears_event : EventWalk (fun c => ¬c.Spared) (Bears B I D a) where
  note := fun tone h => h.raise (by omega)
  sounding := fun h => h.lock
  sound := fun {s _} _ h => Bears.unread (u := s) rfl rfl rfl rfl rfl rfl rfl h
  free := fun c host rollback lost => by simp [Cause.Spared, host, rollback, lost]
  raise := fun other h => h.raise other
  lock := fun _ h => h.lock
  add := fun mild mine h => h.add mine fun _ inside => absurd inside mild
  remove := fun mild mine h => h.remove mine fun _ inside => absurd inside mild
  lines := fun {s _} role coupled _ h => Bears.other (u := s) rfl rfl role coupled rfl rfl rfl (.of_eq rfl) h
  route := fun {s _} tame h => Bears.other (u := s) rfl rfl rfl rfl rfl rfl rfl tame h
  sand := fun {s} h => by rw [releaseSand_eq]; exact Bears.unread (u := s) rfl rfl rfl rfl rfl rfl rfl h
  junction := fun {s _} _ h => Bears.unread (u := s) rfl rfl rfl rfl rfl rfl rfl h
  vigil := fun {s _} h => Bears.unread (u := s) rfl rfl rfl rfl rfl rfl rfl h
  enter := fun mild h => h.enter (.inr mild)

/-- At `D` an entry comes to its C mark only where BREACH may join (R125). -/
theorem bears_cross (place : a.route.distance = D) : CrossWalk (fun c => ¬c.Spared) (Bears B I D a) where
  toEventWalk := bears_event
  breach := fun {s e j} mem body second reached h => by
    have W : EventWalk (fun c => ¬c.Spared) (Bears B I D a) := bears_event
    have may : B := by
      by_contra calm
      have beyond := ((h.guard calm) e mem j body).2 second.le
      have here := h.distance
      omega
    have counted : At (Bears B I D a) (bumpCrossed e.tag s) := bumpCrossed_event W h
    unfold crossMark crossJunction
    rw [body, second]
    exact ite_at (fun _ => formCeiling_event W (W.raise (by decide)
      (judgeWarning_event W (Bears.enter (.inl may) (stopAskingFor_event W counted))))) fun _ => counted

/-- The axle unit changed but for the flag and the reference speed. -/
theorem Bears.axle {x : AxleUnit} (flag : x.standstill = u.axle.standstill) (speed : x.refSpeed = u.axle.refSpeed)
    (h : Bears B I D a u) : Bears B I D a (u.setAxle x) :=
  Bears.alike (u := u) ⟨rfl, speed, flag, rfl, rfl, rfl, rfl, fun h => h⟩ (.of_eq rfl) h

theorem Bears.groups (h : Bears B I D a u) : Bears B I D a (judgeStandstillGroups u) := by
  have locked : Bears B I D a (judgeLock .g6 (!u.axle.standstill) (judgeLock .g1 (!u.axle.standstill)
      (judgeLock .g0 (!u.axle.standstill) u))) := h.lock.lock.lock
  exact ite_at (P := Bears B I D a) (fun _ => locked) fun _ => locked.drive

/-! ### The route engine at a sample -/

/-- The place to which the event moves the unit. -/
def State.placed (s : State) (d : Nat) : State := s.setRoute { s.route with distance := d }

theorem Bears.move {d x : Nat} (h : Bears B I D a u) :
    Bears B I D (a.placed d) (u.setRoute { u.route with distance := d, residue := x }) :=
  { h with distance := rfl, fresh := fun clear r set => { h.fresh clear r set with } }

theorem Bears.routed (place : (movedPlace u).1 = D) (h : Bears B I D a u) : Bears B I D (a.placed D) (routeSample u) := by
  have E : EventWalk (fun c => ¬c.Spared) (Bears B I D (a.placed D)) := bears_event
  have W : CrossWalk (fun c => ¬c.Spared) (Bears B I D (a.placed D)) := bears_cross rfl
  unfold movedPlace placeAfter at place
  refine endRoute_event E ?_
  split
  next moves =>
    rw [if_pos moves] at place
    have moved := h.move (d := (settleDistance u.route.distance u.route.residue u.axle.refTravel).1)
      (x := (settleDistance u.route.distance u.route.residue u.axle.refTravel).2)
    rw [place] at moved
    dsimp only
    unfold moveTo
    rw [place]
    exact ite_at (fun _ => sweepMarks_event W _ moved) fun _ => moved
  next rests =>
    rw [if_neg rests] at place
    exact { h with distance := place, fresh := fun clear r set => { h.fresh clear r set with } }

end Sys2Proof.Machine
end

section
/-! The course of an event past a change of the standstill flag and of the role: the reference state changes with the unit (R21, R32,
R64, R65, R72). -/

namespace Sys2Proof.Machine

variable {B I : Prop} {D : Nat} {a s u v : State}

/-! ### The reference state changes with the unit -/

/-- The flag with the record of a set latch (R14, R64). -/
def State.flagged (b : Bool) (s : State) : State := latchStopped b (s.setAxle { s.axle with standstill := b })

theorem Bears.flagged (b : Bool) (h : Bears B I D a u) : Bears B I D (a.flagged b) (u.flagged b) := by
  have latch : ∀ w : State, (w.flagged b).halt.latch = w.halt.latch.map fun r => { r with stopped := b } := fun _ => rfl
  have clear : ∀ w : State, (w.flagged b).halt.latch = none ↔ w.halt.latch = none := fun w => by simp [latch]
  exact {
    role := h.role
    coupled := h.coupled
    flag := rfl
    distance := h.distance
    kept := fun r set => by
      rw [latch] at set ⊢
      obtain ⟨r', before, rfl⟩ := Option.map_eq_some_iff.1 set
      rw [h.kept r' before]; rfl
    fresh := fun unset r set => by
      rw [latch] at set
      obtain ⟨r', now, rfl⟩ := Option.map_eq_some_iff.1 set
      exact { h.fresh ((clear a).1 unset) r' now with stopped := rfl }
    run := by rw [Ne, clear, clear]; exact h.run
    causes := h.causes
    breach := h.breach
    course := h.course
    still := by rw [Ne, clear, clear]; exact h.still
    guard := h.guard }

/-- The acknowledgement run ended (R64, R72). -/
def State.unacked (s : State) : State := s.setHalt { s.halt with ackRun := none }

theorem Bears.unacked (h : Bears B I D a u) : Bears B I D a.unacked u.unacked :=
  { h with
    run := fun _ => rfl
    fresh := fun clear r set => { h.fresh clear r set with run := rfl } }

theorem Bears.dropped {cs : List Cause} (mild : .breach ∉ cs) (h : Bears B I D a u) :
    Bears B I D (dropCauses cs a) (dropCauses cs u) := by
  have has := fun w : State => dropCauses_has cs w
  exact { h with
    fresh := fun clear r set => { h.fresh clear r set with }
    causes := fun c mine => by rw [has, has, h.causes c mine]
    breach := by rw [has, has, if_neg mild, if_neg mild]; exact h.breach
    guard := fun calm e mem j body => by rw [has, if_neg mild]; exact h.guard calm e mem j body }

/-- The traction unit set up anew, its state and its efforts aside. -/
theorem Bears.refit {f : Traction → Traction} (state : ∀ x, (f x).state = x.state) (effort : ∀ x, Traction.EffortStays x (f x))
    (setup : ∀ x y, Traction.SameSetup x y → (f x).SameSetup (f y)) (h : Bears B I D a u) :
    Bears B I D (a.setTraction (f a.traction)) (u.setTraction (f u.traction)) where
  role := h.role
  coupled := h.coupled
  flag := h.flag
  distance := h.distance
  kept := h.kept
  fresh := fun clear r set => { h.fresh clear r set with state := (state _).trans (h.fresh clear r set).state }
  run := h.run
  causes := h.causes
  breach := fun absent present => (effort _).effort.trans (h.breach absent present)
  course := {
    setup := setup _ _ h.course.setup
    state := by simp only [State.setTraction_traction, state]; exact h.course.state
    stopped := by simp only [State.setTraction_traction, state]; exact h.course.stopped
    effort := by
      have old := effort a.traction
      have new := effort u.traction
      refine h.course.effort.imp (fun same => ?_) (Or.imp (fun took => ?_) fun braked => ?_)
      · exact ⟨by rw [State.setTraction_traction, new.effort, same.effort, ← old.effort]; rfl,
          by rw [State.setTraction_traction, new.effortA, same.effortA, ← old.effortA]; rfl,
          by rw [State.setTraction_traction, new.effortB, same.effortB, ← old.effortB]; rfl,
          by rw [State.setTraction_traction, new.lineA, same.lineA, ← old.lineA]; rfl,
          by rw [State.setTraction_traction, new.lineB, same.lineB, ← old.lineB]; rfl⟩
      · exact ⟨(state _).trans took.moving, old.effort.symm ▸ took.power, fun moving => took.left ((state _).symm.trans moving),
          new.effort.trans took.effort, new.effortA.trans took.effortA, new.effortB.trans took.effortB⟩
      · exact ⟨braked.1, new.effort.trans braked.2⟩ }
  still := fun stays either => congrArg f (h.still stays either)
  guard := h.guard

/-- The role and the coupled flag of a sampling (R72). -/
def State.inRole (r : Role) (c : Bool) (s : State) : State := s.setLines { s.lines with role := r, coupled := c }

theorem Bears.roled (r : Role) (c : Bool) (h : Bears B I D a u) : Bears B I D (a.inRole r c) (u.inRole r c) :=
  { h with
    role := rfl
    coupled := rfl
    fresh := fun clear r set => { h.fresh clear r set with } }

/-- The change of role leaves INHIBITED or HALTED, without power (R20, R21). -/
theorem Bears.inhibit (h : Bears B I D a u) : Bears B True D a (enterInhibited u) := by
  have eq : enterInhibited u = u.setTraction (enterInhibited u).traction := by unfold enterInhibited; split <;> rfl
  have course := h.course.inhibited
  obtain ⟨-, halted, -, -⟩ := enterInhibited_door u
  have still : u.traction.effort ≤ 0 → (enterInhibited u).traction.effort = u.traction.effort := fun low => by
    rw [(enterInhibited_door u).2.2.2 low]
  generalize (enterInhibited u).traction = x at eq course halted still
  rw [eq]
  exact { h with
    fresh := fun clear r set => { h.fresh clear r set with
      state := by
        have at' := (h.fresh clear r set).state
        rw [State.setTraction_traction, halted at', at'] }
    breach := fun absent present => by
      have braked := h.breach absent present
      rw [State.setTraction_traction, still (by omega), braked]
    course := course
    still := fun no => absurd trivial no }

/-! ### A change of role -/

/-- What the change of role itself changes of the unit (R32, R72). -/
def State.rerole (r : Role) (c : Bool) (s : State) : State :=
  let lead := if s.lines.role = .lead ∧ r ≠ .lead then s.setTraction { s.traction with inEmergency := false } else s
  let taken := (lead.inRole r c).unacked
  if s.lines.role = .trail ∧ r ≠ .trail then
    dropCauses [.demandLost] (taken.setTraction { taken.traction with demandLoss := none })
  else taken

theorem Bears.leaveLead (h : Bears B I D a u) :
    Bears B I D (a.setTraction { a.traction with inEmergency := false }) (leaveLead u) := by
  have refitted := h.refit (f := fun x => { x with inEmergency := false }) (fun _ => rfl) (fun _ => ⟨rfl, rfl, rfl, rfl, rfl⟩)
    fun x y setup => by unfold Traction.SameSetup at *; rw [setup]
  refine releaseControls_event bears_event.toToneWalk (Bears.other (u := u.setTraction { u.traction with inEmergency := false })
    rfl rfl rfl rfl rfl rfl rfl (.of_eq rfl) refitted)

theorem Bears.leaveTrail (h : Bears B I D a u) :
    Bears B I D (dropCauses [.demandLost] (a.setTraction { a.traction with demandLoss := none })) (leaveTrail u) := by
  have refitted := h.refit (f := fun x => { x with demandLoss := none }) (fun _ => rfl) (fun _ => ⟨rfl, rfl, rfl, rfl, rfl⟩)
    fun x y setup => by unfold Traction.SameSetup at *; rw [setup]
  exact tryGrant_event bears_event (refitted.dropped (cs := [.demandLost]) (by decide)).drive

theorem Bears.changeRole {r : Role} {c : Bool} (h : Bears B I D a u) : Bears B True D (a.rerole r c) (changeRole r c u) := by
  have same := h.role
  have lead : Bears B I D (if a.lines.role = .lead ∧ r ≠ .lead then a.setTraction { a.traction with inEmergency := false } else a)
      (if u.lines.role = .lead ∧ r ≠ .lead then Machine.leaveLead u else u) := by
    rw [same]; split
    · exact h.leaveLead
    · exact h
  unfold Machine.changeRole State.rerole
  dsimp only
  rw [same] at lead ⊢
  generalize (if a.lines.role = .lead ∧ r ≠ .lead then a.setTraction { a.traction with inEmergency := false } else a) = b at lead ⊢
  generalize (if a.lines.role = .lead ∧ r ≠ .lead then Machine.leaveLead u else u) = w at lead ⊢
  have taken : Bears B I D (b.inRole r c).unacked (w.inRole r c).unacked := (lead.roled r c).unacked
  change Bears B True D _ (judgeVigilance (refreshSetLength (enterInhibited (if r = .trail ∧ a.lines.role ≠ .trail then
    enterTrail (if a.lines.role = .trail ∧ r ≠ .trail then Machine.leaveTrail (w.inRole r c).unacked else (w.inRole r c).unacked)
    else if a.lines.role = .trail ∧ r ≠ .trail then Machine.leaveTrail (w.inRole r c).unacked else (w.inRole r c).unacked))))
  generalize (b.inRole r c).unacked = b' at taken ⊢
  generalize (w.inRole r c).unacked = w' at taken ⊢
  have left : Bears B I D (if a.lines.role = .trail ∧ r ≠ .trail then
        dropCauses [.demandLost] (b'.setTraction { b'.traction with demandLoss := none }) else b')
      (if a.lines.role = .trail ∧ r ≠ .trail then Machine.leaveTrail w' else w') := by
    split
    · exact taken.leaveTrail
    · exact taken
  refine judgeVigilance_event bears_event (refreshSetLength_event bears_event (Bears.inhibit (I := I) ?_))
  exact ite_at (P := Bears B I D _) (fun _ => enterTrail_event bears_event left) fun _ => left

/-! ### The flag -/

/-- What the setting of the flag itself changes (R14, R64, R65). -/
def State.stood (s : State) : State := dropCauses [.rollback] (s.flagged true)

/-- What the clearing of the flag itself changes (R64). -/
def State.departed (s : State) : State := (s.flagged false).unacked

theorem Bears.stood (h : Bears B I D a u) :
    Bears B I D a.stood (judgeStandstillGroups (serveStops (flagSet u))) := by
  have released : Bears B I D a (releaseSand u) := bears_event.sand h
  have dropped := ((released.flagged true).dropped (cs := [.rollback]) (by decide)).drive
  exact (serveStops_event bears_event (judgeVigilance_event bears_event dropped)).groups

theorem Bears.departed (h : Bears B I D a u) : Bears B I D a.departed (clearStandstill u) :=
  (judgeVigilance_event bears_event (h.flagged false).unacked).groups

end Sys2Proof.Machine
end

section
/-! O26: what a speed sample, and STANDSTILL_SET, leave of the halt latch, its causes and the traction unit (R20, R21, R24, R32, R41,
R61 to R66, R72). -/

namespace Sys2Proof.Machine

variable {B I : Prop} {D : Nat} {a s t u : State}

/-! ### The reference state of the event -/

/-- The reference state `a` is the start `s` changed by the flag and by the role alone; `I` says that the role has changed. -/
structure Basis (I : Prop) (s a : State) : Prop where
  latch : a.halt.latch = s.halt.latch.map fun r =>
    { r with stopped := if a.axle.standstill = s.axle.standstill then r.stopped else a.axle.standstill }
  run : a.halt.ackRun = if (s.axle.standstill = true ∧ a.axle.standstill = false) ∨
    ¬(a.lines.role = s.lines.role ∧ a.lines.coupled = s.lines.coupled) then none else s.halt.ackRun
  host : a.halt.causes.host = s.halt.causes.host
  rollback : a.halt.causes.rollback =
    if s.axle.standstill = false ∧ a.axle.standstill = true then false else s.halt.causes.rollback
  demandLost : a.halt.causes.demandLost =
    if s.lines.role = .trail ∧ a.lines.role ≠ .trail then false else s.halt.causes.demandLost
  breach : a.halt.causes.breach = s.halt.causes.breach
  traction : a.traction = { s.traction with
    inEmergency := if s.lines.role = .lead ∧ a.lines.role ≠ .lead then false else s.traction.inEmergency
    demandLoss := if s.lines.role = .trail ∧ a.lines.role ≠ .trail then none else s.traction.demandLoss }
  moved : I ↔ ¬(a.lines.role = s.lines.role ∧ a.lines.coupled = s.lines.coupled)

/-- The role has not changed yet. -/
theorem Basis.unmoved (lines : a.lines = s.lines) (traction : a.traction = s.traction)
    (latch : a.halt.latch = s.halt.latch.map fun r =>
      { r with stopped := if a.axle.standstill = s.axle.standstill then r.stopped else a.axle.standstill })
    (run : a.halt.ackRun = if s.axle.standstill = true ∧ a.axle.standstill = false then none else s.halt.ackRun)
    (causes : a.halt.causes = { s.halt.causes with
      rollback := if s.axle.standstill = false ∧ a.axle.standstill = true then false else s.halt.causes.rollback }) :
    Basis False s a where
  latch := latch
  run := by simpa [lines] using run
  host := by rw [causes]
  rollback := by rw [causes]
  demandLost := by
    rw [lines, if_neg (c := s.lines.role = .trail ∧ s.lines.role ≠ .trail) (by simp), causes]
  breach := by rw [causes]
  traction := by rw [traction, lines, if_neg (by simp), if_neg (by simp)]
  moved := by simp [lines]

/-- What the event's course starts from is the same. -/
structure Afresh (s p : State) : Prop where
  halt : p.halt = s.halt
  traction : p.traction = s.traction
  lines : p.lines = s.lines
  route : p.route = s.route
  flag : p.axle.standstill = s.axle.standstill

theorem Basis.afresh {p : State} (same : Afresh s p) : Basis False s p :=
  .unmoved same.lines same.traction (by rw [same.halt, same.flag]; simp) (by rw [same.halt, same.flag, if_neg (by simp)])
    (by rw [same.halt, same.flag, if_neg (by simp)])

theorem Basis.stood {p : State} (same : Afresh s p) (moving : s.axle.standstill = false) : Basis False s p.stood := by
  obtain ⟨halt, traction, lines, -, -⟩ := same
  refine .unmoved lines traction ?_ ?_ ?_
  · show p.halt.latch.map _ = _
    rw [halt, moving]; rfl
  · show p.halt.ackRun = _
    rw [halt, moving]; rfl
  · show { p.halt.causes with rollback := false } = _
    rw [halt, moving]; rfl

theorem Basis.departed {p : State} (same : Afresh s p) (standing : s.axle.standstill = true) : Basis False s p.departed := by
  obtain ⟨halt, traction, lines, -, -⟩ := same
  refine .unmoved lines traction ?_ ?_ ?_
  · show p.halt.latch.map _ = _
    rw [halt, standing]; rfl
  · rw [standing]; rfl
  · show p.halt.causes = _
    rw [halt, standing]; rfl

/-- What a change of role changes, part by part (R32, R72). -/
theorem State.rerole_parts (r : Role) (c : Bool) (a : State) :
    (a.rerole r c).axle = a.axle ∧ (a.rerole r c).halt.latch = a.halt.latch ∧ (a.rerole r c).halt.ackRun = none ∧
    (a.rerole r c).lines.role = r ∧ (a.rerole r c).lines.coupled = c ∧
    (a.rerole r c).halt.causes = { a.halt.causes with
      demandLost := if a.lines.role = .trail ∧ r ≠ .trail then false else a.halt.causes.demandLost } ∧
    (a.rerole r c).traction = { a.traction with
      inEmergency := if a.lines.role = .lead ∧ r ≠ .lead then false else a.traction.inEmergency
      demandLoss := if a.lines.role = .trail ∧ r ≠ .trail then none else a.traction.demandLoss } := by
  unfold State.rerole
  dsimp only
  split_ifs <;> exact ⟨rfl, rfl, rfl, rfl, rfl, rfl, rfl⟩

theorem Basis.rerole {r : Role} {c : Bool} (other : ¬(r = a.lines.role ∧ c = a.lines.coupled)) (h : Basis False s a) :
    Basis True s (a.rerole r c) := by
  obtain ⟨axle, latch, run, role, coupled, causes, traction⟩ := State.rerole_parts r c a
  obtain ⟨role', coupled'⟩ := not_not.1 (mt h.moved.2 id)
  refine ⟨?_, ?_, ?_, ?_, ?_, ?_, ?_, ?_⟩
  · rw [latch, axle]; exact h.latch
  · rw [run, role, coupled, if_pos (.inr (by rwa [← role', ← coupled']))]
  · rw [causes]; exact h.host
  · rw [causes, axle]; exact h.rollback
  · rw [causes, role, h.demandLost, role', if_neg (c := s.lines.role = .trail ∧ s.lines.role ≠ .trail) (by simp)]
  · rw [causes]; exact h.breach
  · rw [traction, role, h.traction, role', if_neg (c := s.lines.role = .lead ∧ s.lines.role ≠ .lead) (by simp),
      if_neg (c := s.lines.role = .trail ∧ s.lines.role ≠ .trail) (by simp)]
  · rw [role, coupled, ← role', ← coupled']
    exact iff_of_true trivial other

theorem Basis.placed {d : Nat} (h : Basis I s a) : Basis I s (a.placed d) := { h with }

/-- From the start `s`, changed by the flag and the role, an event has come to `u`. -/
def Carried (B : Prop) (D : Nat) (s u : State) : Prop := ∃ I a, Basis I s a ∧ Bears B I D a u

theorem Carried.sampled (basis : Basis False s a) (h : Bears B False D a u) : Carried B D s (sampleRole u) := by
  unfold sampleRole
  dsimp only
  split
  · exact ⟨False, a, basis, h⟩
  next other =>
    rw [h.role, h.coupled] at other
    rw [h.role]
    exact ⟨True, _, basis.rerole other, h.changeRole⟩

/-! ### The stages of a sample -/

theorem Carried.stood {p : State} (same : Afresh s p) (moving : s.axle.standstill = false) (h : Bears B False D p u) :
    Carried B D s (setStandstill u) := by
  rw [setStandstill_flagSet]
  exact .sampled (.stood same moving) h.stood

/-- The standstill flag judged: it stays, is set or is cleared (R14). -/
theorem judgeStandstill_cases (u : State) :
    ∃ run, judgeStandstill u = u.setAxle { u.axle with standstillRun := run } ∨
      u.axle.standstill = false ∧ judgeStandstill u = setStandstill (u.setAxle { u.axle with standstillRun := run }) ∨
      u.axle.standstill = true ∧ judgeStandstill u = clearStandstill (u.setAxle { u.axle with standstillRun := run }) := by
  unfold judgeStandstill
  dsimp only
  split
  · exact ⟨u.axle.standstillRun, .inl rfl⟩
  · split
    · refine ⟨some (continuedRun u), ?_⟩
      split
      next sets => exact .inr (.inl ⟨sets.2, rfl⟩)
      · exact .inl rfl
    · refine ⟨none, ?_⟩
      split
      next stood => exact .inr (.inr ⟨stood, rfl⟩)
      · exact .inl rfl

theorem Carried.judged {p : State} (same : Afresh s p) (h : Bears B False D p u) : Carried B D s
    (if (judgeStandstill u).axle.standstill then sampleRole (judgeStandstill u) else judgeStandstill u) := by
  have flag : u.axle.standstill = s.axle.standstill := h.flag.trans same.flag
  obtain ⟨run, judged⟩ := judgeStandstill_cases u
  have counted : Bears B False D p (u.setAxle { u.axle with standstillRun := run }) := h.axle rfl rfl
  rcases judged with e | ⟨moving, e⟩ | ⟨standing, e⟩
  · rw [e]
    exact ite_at (P := Carried B D s) (fun _ => .sampled (.afresh same) counted) fun _ => ⟨_, _, .afresh same, counted⟩
  · rw [e, sampleRole_setStandstill, ite_self]
    exact .stood same (flag ▸ moving) counted
  · rw [e, if_neg (by simp)]
    exact ⟨_, _, .departed same (flag ▸ standing), counted.departed⟩

theorem Bears.agreement {r : RefAxle} (h : Bears B I D a u) : Bears B I D a (judgeAgreement r u) := by
  have kept := judgeAgreement_kept r u
  rw [judgeAgreement_eq] at kept ⊢
  exact h.axle (by simp) kept.refSpeed

theorem Bears.agreed (h : Bears B I D a (referenced s)) : Bears B I D a (agreed s) := h.agreement.agreement

theorem formed_traction (s : State) : (formed s).traction = s.traction := by
  unfold formed judgeDisagreement suspectSlower onChannel
  dsimp only
  split
  · split
    · rw [raise_traction]; rfl
    · rfl
  · rfl

/-- The state in which the source is reported, at the start of the event's course. -/
def published (s : State) : State :=
  let r := chooseReference (formed s)
  (formed s).setAxle { (formed s).axle with
    source := r.1
    refSpeed := r.2
    refTravel := (formed s).axle.sense.apply (travelOf (formed s) r.1) }

theorem published_afresh (s : State) : Afresh s (published s) :=
  have blocks := formed_blocks s
  ⟨blocks.halt, formed_traction s, blocks.lines, blocks.route, blocks.standstill⟩

theorem Afresh.unbreached {p : State} (same : Afresh s p) (follow : CausesFollow s)
    (beyond : ∀ e ∈ s.route.table, ∀ j, e.body = .junction j → e.crossed ≤ 2 → D < j.markC) : Unbreached D p := by
  intro e mem j body
  rw [same.route] at mem
  rw [same.halt]
  exact ⟨fun breached => follow.2.2 ⟨e, mem, j, body, breached⟩, beyond e mem j body⟩

theorem Bears.sampled (guard : ¬B → Unbreached D (published s)) : Bears B False D (published s) (referenced s) :=
  reportSource_event bears_event (.refl guard)

theorem Carried.beforeRoute (guard : ¬B → Unbreached D (published s)) : Carried B D s (beforeRoute s) := by
  have agreed := (Bears.sampled guard).agreed
  unfold Machine.beforeRoute
  generalize Machine.agreed s = u at agreed ⊢
  exact .judged (published_afresh s) agreed

theorem Carried.routed (place : (movedPlace u).1 = D) (h : Carried B D s u) : Carried B D s (routeSample u) := by
  obtain ⟨I, a, basis, before⟩ := h
  exact ⟨I, _, basis.placed, before.routed place⟩

theorem Carried.speedSample (ht : speedSample s = t) (guard : ¬B → Unbreached t.route.distance (published s)) :
    Carried B t.route.distance s t := by
  have before := Carried.beforeRoute guard
  obtain ⟨last, due, routed⟩ := speedSample_routed ht
  generalize Machine.beforeRoute s = u at before routed
  have place : (movedPlace u).1 = t.route.distance := by
    rw [routed]; exact (routeSample_stands u).1.symm
  obtain ⟨I, a, basis, moved⟩ := before.routed place
  generalize routeSample u = w at moved routed
  refine ⟨I, a, basis, ?_⟩
  have stamped := moved.axle (x := { w.axle with lastSample := last, sampleDue := due }) rfl rfl
  rwa [← routed] at stamped

end Sys2Proof.Machine
end

section
/-! O26, assembled: from the course of the event to the statement (R20, R21, R24, R32, R41, R61 to R66, R72). -/

namespace Sys2Proof.Machine

variable {B I : Prop} {D : Nat} {a s t u : State}

/-- The clock advanced to the event is no part of its start. -/
theorem Carried.reached {n : Nat} (h : Carried B D (s.reach n) t) : Carried B D s t := by
  obtain ⟨I, a, basis, bears⟩ := h
  exact ⟨I, a, { basis with }, bears⟩

theorem Carried.standstillSet (run : exec .standstillSet s = .next t) (guard : ¬B → Unbreached D s) : Carried B D s t := by
  have e : atExpiry (standstillAt s) (fun s => setStandstill (s.setAxle { s.axle with standstillRun := some 500 })) s = t :=
    Host.Outcome.next.inj run
  subst e
  cases due : standstillAt s with
  | none => exact ⟨False, s, .afresh ⟨rfl, rfl, rfl, rfl, rfl⟩, .refl guard⟩
  | some n =>
    have moving : s.axle.standstill = false := by
      unfold standstillAt at due
      split at due
      · cases due
      next other => simpa using (not_or.1 other).1
    exact .stood (p := (s.reach n).setAxle { s.axle with standstillRun := some 500 }) ⟨rfl, rfl, rfl, rfl, rfl⟩ moving
      (.refl fun calm => guard calm)

/-- A speed sample, and STANDSTILL_SET, run the event's course (log entries 5, 10, 28). -/
theorem Carried.event {c : Instr} (which : c = .speedSample ∨ c = .standstillSet) (run : exec c s = .next t)
    (follow : ¬B → CausesFollow s)
    (beyond : ¬B → ∀ e ∈ s.route.table, ∀ j, e.body = .junction j → e.crossed ≤ 2 → t.route.distance < j.markC) :
    Carried B t.route.distance s t := by
  rcases which with rfl | rfl
  · exact (Carried.speedSample (Host.Outcome.next.inj run) fun calm =>
      (published_afresh _).unbreached (follow calm) (beyond calm)).reached
  · exact .standstillSet run fun calm => Afresh.unbreached ⟨rfl, rfl, rfl, rfl, rfl⟩ (follow calm) (beyond calm)

/-! ### What the reference state tells -/

theorem Causes.with_spared {c : Causes} {x y z : Bool} (host : c.host = x) (rollback : c.rollback = y) (lost : c.demandLost = z) :
    c = { c with host := x, rollback := y, demandLost := z } := by subst host rollback lost; rfl

theorem Basis.unlatched (h : Basis I s a) : a.halt.latch = none ↔ s.halt.latch = none := by rw [h.latch]; simp

/-- A unit in its role keeps its setup (R32, R72). -/
theorem Basis.settled (role : a.lines.role = s.lines.role) (h : Basis I s a) : a.traction = s.traction := by
  rw [h.traction, role, if_neg (by simp), if_neg (by simp)]

/-- The acknowledgement run goes on unless the flag, the role or a latch that sets ends it (R64, R72). -/
theorem Bears.ackRun (basis : Basis I s a) (h : Bears B I D a t) :
    t.halt.ackRun = if (s.axle.standstill = true ∧ t.axle.standstill = false) ∨
      ¬(t.lines.role = s.lines.role ∧ t.lines.coupled = s.lines.coupled) ∨
      (s.halt.latch = none ∧ t.halt.latch ≠ none) then none else s.halt.ackRun := by
  have run := basis.run
  rw [← h.flag, ← h.role, ← h.coupled] at run
  by_cases latches : s.halt.latch = none ∧ t.halt.latch ≠ none
  · rw [if_pos (.inr (.inr latches))]
    obtain ⟨r, set⟩ := Option.ne_none_iff_exists'.1 latches.2
    exact (h.fresh (basis.unlatched.2 latches.1) r set).run
  · have stays : a.halt.latch ≠ none ∨ t.halt.latch = none := by
      rw [Ne, basis.unlatched]
      by_contra neither
      rw [not_or, not_not] at neither
      exact latches neither
    rw [h.run stays, run]
    exact if_congr (by simp [latches]) rfl rfl

/-- The effort's course, from the start itself (R20, R41). -/
theorem Bears.efforts (basis : Basis I s a) (h : Bears B I D a t) :
    (t.traction.effort = s.traction.effort ∧ t.traction.effortA = s.traction.effortA ∧ t.traction.effortB = s.traction.effortB ∧
      t.traction.lineA = s.traction.lineA ∧ t.traction.lineB = s.traction.lineB) ∨
    (s.traction.state = .running ∧ 0 < s.traction.effort ∧ t.traction.state ≠ .running ∧ t.traction.effort = 0 ∧
      t.traction.effortA = 0 ∧ t.traction.effortB = 0) ∨ (B ∧ t.traction.effort = -1000) := by
  have course := h.course.effort
  rw [basis.traction] at course
  exact course.imp (fun same => ⟨same.effort, same.effortA, same.effortB, same.lineA, same.lineB⟩)
    (Or.imp_left fun took => ⟨took.moving, took.power, took.left, took.effort, took.effortA, took.effortB⟩)

/-- Settles O26: the event's course, from the start changed by the flag and by the role alone. -/
theorem sampleKeepsLatchAndTraction : Obligations.SampleKeepsLatchAndTraction := by
  intro c s t which run set cleared same latches leaves uncrossed tr tt
  obtain ⟨I, a, basis, h⟩ : Carried (¬uncrossed) t.route.distance s t :=
    .event which run (fun calm => (not_not.1 calm).1) fun calm => (not_not.1 calm).2
  have role := h.role
  have moved : I ↔ ¬same := by
    rw [basis.moved, ← role, ← h.coupled]
  have latched : ∀ {r}, s.halt.latch = none → t.halt.latch = some r → LatchTold r t := fun clear found =>
    h.fresh (basis.unlatched.2 clear) _ found
  have state := h.course.state
  rw [basis.traction] at state
  refine ⟨fun r found => ?_, fun r clear found => ?_, h.ackRun basis, ?_, ?_, state, fun new => ?_, fun other => ?_, h.efforts basis,
    fun absent => ?_, fun stays clear still => ?_, fun stays found calm => ?_⟩
  · refine h.kept _ ?_
    rw [basis.latch, found, h.flag]; rfl
  · have told := latched clear found
    exact ⟨told.time, told.speed, told.stopped, told.recorded.told⟩
  · refine Causes.with_spared ((h.causes .host (.inl rfl)).trans basis.host) ?_ ?_
    · refine (h.causes .rollback (.inr (.inl rfl))).trans (basis.rollback.trans ?_)
      rw [← h.flag]
    · refine (h.causes .demandLost (.inr (.inr rfl))).trans (basis.demandLost.trans ?_)
      rw [← role]
  · have setup := h.course.setup
    unfold Traction.SameSetup at setup
    rw [basis.traction, ← role] at setup
    exact setup
  · obtain ⟨r, found⟩ := Option.ne_none_iff_exists'.1 new.2
    exact (latched new.1 found).state
  · exact h.course.stopped (moved.2 other)
  · exact h.breach (basis.breach.trans absent)
  · exact (h.still (fun moves => moved.1 moves stays) (.inl ⟨basis.unlatched.2 clear, still⟩)).trans
      (basis.settled (role.symm.trans stays.1))
  · exact (h.still (fun moves => moved.1 moves stays) (.inr ⟨mt basis.unlatched.1 found, not_not.2 calm⟩)).trans
      (basis.settled (role.symm.trans stays.1))

end Sys2Proof.Machine
end

section
/-! SAND over every step (R56, R57, R102): released at standstill and while the sand inhibit is on. -/

namespace Sys2Proof.Machine

/-- Every primitive of a command keeps SAND to the move and off the points: only a pass asserts it, and only there; only what finds
it released sets the standstill flag or the sand inhibit. -/
theorem wholeWalk_sand : WholeWalk SandLaw := {
  ChainWalk.other
    (HaltWalk.other (SoundWalk.other (fun _ _ law => law) (fun _ _ law => law) fun _ _ law => law)
      (fun _ _ law => law) (fun _ _ law => law) (fun _ _ law => law) fun _ _ _ _ law => law)
    (fun _ _ law => law) (fun _ _ law => law) (fun _ _ law => law)
    (fun s x same law on => law (by unfold sandAsserted; rw [← same]; exact on))
    (fun _ _ moving clear _ _ => ⟨moving, clear⟩)
    (fun s x ended _ on => by
      unfold sandAsserted at on
      split at on
      next runs => exact absurd runs (ended _)
      · cases on)
    (fun _ _ law => law) with
  route := fun same _ law on => (law on).imp_right same.trans
  sand := fun {s} _ on => absurd on (by rw [releaseSand_off]; decide)
  inhibited := fun {s b} released law on => ⟨(law on).1, by
    by_contra inhibits
    have off := released (by simpa using inhibits)
    rw [show sandAsserted s = true from on] at off
    cases off⟩
  junction := fun _ law => law
  stop := fun law => law
  vigil := fun _ law => law
  role := fun _ law => law
  axle := fun same law on => (law on).imp_left same.trans
  moving := fun law on => ⟨rfl, (law on).2⟩
  stopped := fun {s} off _ on => by rw [show sandAsserted s = true from on] at off; cases off
  flagged := fun law => law
  clock := fun law => law
  pins := fun law => law
  link := fun _ _ _ law => law
  pending := fun law => law
  settings := fun _ law => law
  events := fun law => law
  blocks := fun _ on => by cases on
  restarted := fun law => law
  fresh := fun law => law }

/-- Settles O9: what every primitive of a command keeps, a step keeps. -/
theorem sandNeverOverPoints : Obligations.SandNeverOverPoints :=
  fun _ _ law next => step_keeps wholeWalk_sand law next

end Sys2Proof.Machine
end

section
/-! The adhesion section a pass leaves (R48 to R58): the bogies stepped on the state the pass began with, and SAND judged on them. -/

namespace Sys2Proof.Machine

variable {s t u : State}

/-! ### The adhesion step -/

theorem raiseAdhesionFault_adhesion (st : SettingsStore) (i : Bogie) (x : Option Int) (s : State) :
    (raiseAdhesionFault st i x s).adhesion = s.adhesion.setBogie i ((s.adhesion.bogie i).faulted st) := by
  unfold raiseAdhesionFault; split <;> simp

theorem Adhesion.setBogie_setBogie (x : Adhesion) (i : Bogie) (b c : BogieState) :
    (x.setBogie i b).setBogie i c = x.setBogie i c := by cases i <;> rfl

/-- A bogie's step writes that bogie alone of the adhesion section (R48). -/
theorem stepBogie_adhesion (st : SettingsStore) (sign : Int) (i : Bogie) (s : State) :
    (stepBogie st sign i s).adhesion = s.adhesion.setBogie i (steppedBogie st sign i s) := by
  rw [stepBogie_eq]
  unfold steppedBogie
  dsimp only
  split
  · rfl
  · split
    · rw [raiseAdhesionFault_adhesion, State.setAdhesion_adhesion, Adhesion.setBogie_setBogie, Adhesion.bogie_setBogie, if_pos rfl]
    · rfl

theorem stepBogie_frame (st : SettingsStore) (sign : Int) (i : Bogie) (s : State) : PassFrame s (stepBogie st sign i s) :=
  stepBogie_late (passFrame_walk s).toLateWalk (.refl s)

/-- What a bogie's step reads: the time, the axle unit but for the travel sense, the last sign and the bogie. -/
theorem steppedBogie_congr (st : SettingsStore) (sign : Int) {i : Bogie} (now : t.now = s.now)
    (axle : t.axle = { s.axle with sense := t.axle.sense }) (last : t.adhesion.lastSign = s.adhesion.lastSign)
    (bogie : t.adhesion.bogie i = s.adhesion.bogie i) : steppedBogie st sign i t = steppedBogie st sign i s := by
  have slip : slipSpeed sign t i = slipSpeed sign s i := by
    unfold slipSpeed bogieAxle; rw [axle]
  have judged : ∀ x b, slipJudged st x t b = slipJudged st x s b := fun x b => by
    unfold slipJudged; rw [now, axle]
  unfold steppedBogie
  rw [last, bogie, slip, now]
  simp only [judged]

/-- SAND by its conditions and the end of a run begun now (R56). -/
def sandJudged (wanted : Bool) (expiry : Nat) : SandState → SandState
  | .off => if wanted then .on expiry else .off
  | .on x => if wanted then .on x else .off
  | .resting x => .resting x

theorem judgeSand_eq (st : SettingsStore) (s : State) : judgeSand st s = s.setAdhesion { s.adhesion with
    sand := sandJudged (sandWanted st s) (s.now + st.nat Setting.sandMax * 1000) s.adhesion.sand } := by
  have same : ∀ x, s.adhesion.sand = x → s = s.setAdhesion { s.adhesion with sand := x } := fun x e => by subst e; rfl
  unfold judgeSand
  split
  next e => rw [e]; unfold sandJudged; split <;> [rfl; exact same _ e]
  next e => rw [e]; unfold sandJudged; split <;> [exact same _ e; rfl]
  next e => rw [e]; exact same _ e

/-- The adhesion section a step leaves: both bogies stepped on the state it found, the sign recorded, SAND judged on the bogies
left (R48, R49, R55, R56). -/
theorem adhesionStep_adhesion (st : SettingsStore) (s : State) :
    let t := adhesionStep st s
    let sign := s.traction.effort.sign
    let sand := sandJudged (sandWanted st t) (s.now + st.nat Setting.sandMax * 1000) s.adhesion.sand
    t.adhesion = ⟨steppedBogie st sign .a s, steppedBogie st sign .b s, sign, sand, sand⟩ := by
  dsimp only
  have first := stepBogie_frame st s.traction.effort.sign .a s
  have second := stepBogie_frame st s.traction.effort.sign .b (stepBogie st s.traction.effort.sign .a s)
  have after := stepBogie_adhesion st s.traction.effort.sign .a s
  have same := steppedBogie_congr st s.traction.effort.sign (i := .b) first.now first.axle (by rw [after]; rfl) (by rw [after]; rfl)
  have both := stepBogie_adhesion st s.traction.effort.sign .b (stepBogie st s.traction.effort.sign .a s)
  rw [same, after] at both
  have now := second.now.trans first.now
  unfold adhesionStep
  dsimp only
  generalize stepBogie st s.traction.effort.sign .b (stepBogie st s.traction.effort.sign .a s) = u at both now
  rw [judgeSand_eq]
  simp only [noteSand, State.setAdhesion_adhesion, State.setAdhesion_now, both, now]
  rfl

/-! ### The adhesion section of a pass -/

theorem openWalk_adhesion (s : State) : OpenWalk fun u => u.adhesion = s.adhesion where
  leave := fun _ _ h => h
  start := fun _ h => h
  spend := fun h => h
  limits := fun h => h
  turn := fun h => h
  sense := fun h => h
  inhibit := fun {u} h => by rw [enterInhibited_eq]; exact h
  refuse := fun {u p} h => by rw [At, raise_adhesion]; exact h

theorem readWalk_adhesion (s : State) : ReadWalk fun u => u.adhesion = s.adhesion where
  raise := fun {u k j v} _ _ h => by rw [At, raise_adhesion]; exact h
  read := fun h => h
  lose := fun {u} h => by rw [At, addCauses_adhesion]; exact h
  remove := fun {u} h => by rw [At, removeCauses_adhesion]; exact h

/-- Stages 1 to 3 leave the adhesion section (R25). -/
theorem passThird_adhesion (s : State) : (passThird s).adhesion = s.adhesion := by
  have read : (passRead s).adhesion = s.adhesion :=
    readDemandOf_read (readWalk_adhesion s) (passOpened_open (openWalk_adhesion s) rfl)
  have judged : (passJudged s).adhesion = s.adhesion := by
    rw [passJudged_eq]
    unfold passFirst
    rw [State.setTraction_adhesion, judgeEmission_adhesion, acknowledge_adhesion, read]
  rw [passThird_eq]
  unfold judgeRollback
  split
  · rw [addCauses_adhesion, judged]
  · exact judged

theorem moveEffort_frame (s : State) : PassFrame s (moveEffort s.settings (passGated s) (passThird s)) :=
  moveEffort_late (passFrame_walk s).toLateWalk (passThird_frame s)

theorem moveEffort_adhesion (st : SettingsStore) (h2 : Int) (s : State) : (moveEffort st h2 s).adhesion = s.adhesion := by
  unfold moveEffort; dsimp only; rw [judgeEffort_adhesion]; rfl

/-- The adhesion section a pass leaves, by the E it has moved and the state it began with (R48). -/
theorem effortPass_adhesionStep (s : State) :
    let t := effortPass s
    let sign := t.traction.effort.sign
    let sand := sandJudged (sandWanted s.settings t) (s.now + s.cfgN Setting.sandMax * 1000) s.adhesion.sand
    t.adhesion = ⟨steppedBogie s.settings sign .a s, steppedBogie s.settings sign .b s, sign, sand, sand⟩ := by
  dsimp only
  obtain ⟨-, -, -, effort, -⟩ := effortPass_setup s
  have moved := moveEffort_frame s
  have adhesion := (moveEffort_adhesion s.settings (passGated s) (passThird s)).trans (passThird_adhesion s)
  have traction : (moveEffort s.settings (passGated s) (passThird s)).traction.effort = passEffort s := by
    rw [moveEffort_traction]; rfl
  have last : (effortPass s).adhesion = (passStepped s).adhesion := effortPass_adhesion s
  have wanted : sandWanted s.settings (passStepped s) = sandWanted s.settings (effortPass s) := by
    have before : PassFrame s (passStepped s) := adhesionStep_late (passFrame_walk s).toLateWalk moved
    have after := effortPass_frame s
    unfold sandWanted
    rw [last, before.axle, after.axle, before.route, after.route]
  have stepped := adhesionStep_adhesion s.settings (moveEffort s.settings (passGated s) (passThird s))
  dsimp only at stepped
  rw [← passStepped, wanted, traction, moved.now, adhesion] at stepped
  rw [last, stepped, effort]
  have same : ∀ i, steppedBogie s.settings (passEffort s).sign i (moveEffort s.settings (passGated s) (passThird s)) =
      steppedBogie s.settings (passEffort s).sign i s := fun i =>
    steppedBogie_congr _ _ moved.now moved.axle (by rw [adhesion]) (by rw [adhesion])
  rw [same, same]
  rfl

/-- The adhesion section CONTROL_PERIOD leaves (R25, R48). -/
theorem controlPeriod_adhesion {inputs : PassInputs} (next : exec (.controlPeriod inputs) s = .next t) :
    let begun := passStart inputs s
    let sign := t.traction.effort.sign
    let sand := sandJudged (sandWanted s.settings t) (begun.now + s.cfgN Setting.sandMax * 1000) s.adhesion.sand
    t.adhesion = ⟨steppedBogie s.settings sign .a begun, steppedBogie s.settings sign .b begun, sign, sand, sand⟩ := by
  rw [exec_controlPeriod_next next]
  exact effortPass_adhesionStep (passStart inputs s)

theorem controlPeriod_bogie {inputs : PassInputs} (next : exec (.controlPeriod inputs) s = .next t) (i : Bogie) :
    t.adhesion.bogie i = steppedBogie s.settings t.traction.effort.sign i (passStart inputs s) := by
  have parts := controlPeriod_adhesion next
  cases i
  · exact congrArg Adhesion.a parts
  · exact congrArg Adhesion.b parts

end Sys2Proof.Machine
end

section
/-! The adhesion states, their fault, and SAND (R49 to R58). -/

namespace Sys2Proof.Machine

variable {s : State} {st : SettingsStore} {sign : Int} {i : Bogie}

/-! ### The slip speed -/

section Slip

variable {c : AxleChannel}

/-- A FAILED channel slips by 0 (R50; LOST: log entry 15). -/
theorem slipSpeed_failed (axle : bogieAxle s i = c) (failed : c.sampled = .failed) : slipSpeed sign s i = some 0 := by
  subst axle; exact if_pos failed

/-- With the reference LOST no slip is measured (R50). -/
theorem slipSpeed_lost (axle : bogieAxle s i = c) (sound : c.sampled ≠ .failed) (lost : s.axle.source = .lost) :
    slipSpeed sign s i = none := by
  subst axle; exact (if_neg sound).trans (if_pos lost)

/-- The slip speed that is measured: ahead of the reference, or behind it in braking (R50). -/
theorem slipSpeed_measured (axle : bogieAxle s i = c) (sound : c.sampled ≠ .failed) (measured : s.axle.source ≠ .lost) :
    slipSpeed sign s i = some (if 0 ≤ sign then (c.speed.natAbs : Int) - s.axle.refSpeed.natAbs
      else -((c.speed.natAbs : Int) - s.axle.refSpeed.natAbs)) := by
  subst axle; exact (if_neg sound).trans (if_neg measured)

/-- The slip speed under an effort, where there is one (R50). -/
theorem slipSpeed_moving (axle : bogieAxle s i = c) (known : ¬(c.sampled ≠ .failed ∧ s.axle.source = .lost)) {e : Int}
    (moves : e ≠ 0) : slipSpeed e.sign s i = some (
      if c.sampled = .failed then 0
      else if 0 < e then (c.speed.natAbs : Int) - s.axle.refSpeed.natAbs else -((c.speed.natAbs : Int) - s.axle.refSpeed.natAbs)) := by
  by_cases failed : c.sampled = .failed
  · rw [slipSpeed_failed axle failed, if_pos failed]
  · have positive : 0 ≤ e.sign ↔ 0 < e := by rw [Int.sign_nonneg_iff]; omega
    rw [slipSpeed_measured axle failed fun lost => known ⟨failed, lost⟩, if_neg failed]
    simp only [positive]

end Slip

/-! ### A bogie judged -/

section Judged

variable {now : Nat} {v x : Int} {b : BogieState}

/-- Above the on-threshold a bogie slips, its factor cut; a stay that goes on keeps its timer (R52, R54). -/
theorem judgeSlip_above (above : onThreshold st v < x) : judgeSlip st now v x b =
    { b with state := .slipping, k := cutFactor st b.k, slipTimer := if b.state = .slipping then b.slipTimer else some now } := by
  obtain ⟨state, k, timer, fault⟩ := b
  cases state <;> simp [judgeSlip, above]

theorem judgeSlip_adhering (low : ¬onThreshold st v < x) (state : b.state = .adhering) : judgeSlip st now v x b = b := by
  simp [judgeSlip, state, low]

/-- A bogie that slips recovers at the off-threshold (R53). -/
theorem judgeSlip_slipping (low : ¬onThreshold st v < x) (state : b.state = .slipping) : judgeSlip st now v x b =
    if x ≤ offThreshold st v then { b with state := .recovering, slipTimer := none } else b := by
  simp [judgeSlip, state, low]

/-- A bogie that recovers builds its factor, up to 1000 (R53). -/
theorem judgeSlip_recovering (low : ¬onThreshold st v < x) (state : b.state = .recovering) : judgeSlip st now v x b =
    { b with
      state := if min 1000 (b.k + st.value Setting.recoveryStep) = 1000 then .adhering else .recovering
      k := min 1000 (b.k + st.value Setting.recoveryStep) } := by
  simp [judgeSlip, state, low]

theorem slipOverdue_iff : slipOverdue st now b = true ↔
    b.state = .slipping ∧ b.slipTimer.any (fun t => decide (t + st.nat Setting.slipTimeLimit * 1000 < now)) = true := by
  simp [slipOverdue]

/-- Under an effort a bogie is judged afresh after a change of sign alone (R49). -/
theorem signJudged_moving (moves : sign ≠ 0) (last : Int) :
    signJudged sign last b = if last ≠ 0 ∧ last ≠ sign then .adhering else b := by simp [signJudged, moves]

end Judged

/-- A bogie with the mark stays as the step finds it (R54). -/
theorem steppedBogie_marked (marked : (signJudged sign s.adhesion.lastSign (s.adhesion.bogie i)).fault = true) :
    steppedBogie st sign i s = signJudged sign s.adhesion.lastSign (s.adhesion.bogie i) := if_pos (.inr marked)

/-- A bogie under an effort and with no mark is judged on its slip, and then on its stay in SLIPPING (R52 to R54). -/
theorem steppedBogie_unmarked (moves : sign ≠ 0)
    (unmarked : (signJudged sign s.adhesion.lastSign (s.adhesion.bogie i)).fault = false) :
    let judged := slipJudged st (slipSpeed sign s i) s (signJudged sign s.adhesion.lastSign (s.adhesion.bogie i))
    steppedBogie st sign i s = if slipOverdue st s.now judged then judged.faulted st else judged :=
  if_neg (by simp [moves, unmarked])

/-! ### The obligations -/

/-- Settles O36: the bogie a pass leaves is the one it found, stepped under the E it moved; the step is read off case by case. -/
theorem adhesionFollowsSlip : Obligations.AdhesionFollowsSlip := by
  intro inputs s t i next now e ref axle ahead slip on old b cut judged outlasted
  have last : t.adhesion.lastSign = e.sign := congrArg Adhesion.lastSign (controlPeriod_adhesion next)
  have bogie : t.adhesion.bogie i = steppedBogie s.settings e.sign i (passStart inputs s) := controlPeriod_bogie next i
  have axleOf : bogieAxle (passStart inputs s) i = axle := by cases i <;> rfl
  have found : e ≠ 0 → signJudged e.sign s.adhesion.lastSign (s.adhesion.bogie i) = b := fun moves =>
    signJudged_moving (mt Int.sign_eq_zero_iff_zero.1 moves) _
  have judgedAs : e ≠ 0 → slipJudged s.settings (slipSpeed e.sign (passStart inputs s) i) (passStart inputs s) b = judged :=
    fun moves => by
    by_cases unmeasured : axle.sampled ≠ .failed ∧ s.axle.source = .lost
    · rw [slipSpeed_lost axleOf unmeasured.1 unmeasured.2]
      exact (if_pos unmeasured).symm
    · rw [slipSpeed_moving axleOf unmeasured moves]
      refine Eq.trans ?_ (if_neg unmeasured).symm
      show judgeSlip s.settings now s.axle.refSpeed slip b = _
      by_cases above : on < slip
      · exact (judgeSlip_above above).trans (if_pos above).symm
      · refine Eq.trans ?_ (if_neg above).symm
        split
        next state => exact judgeSlip_adhering above state
        next state => exact judgeSlip_slipping above state
        next state => exact judgeSlip_recovering above state
  have stepped : e ≠ 0 → b.fault = false → t.adhesion.bogie i =
      if slipOverdue s.settings now judged then judged.faulted s.settings else judged := fun moves unmarked => by
    rw [bogie, ← judgedAs moves, ← found moves]
    exact steppedBogie_unmarked (mt Int.sign_eq_zero_iff_zero.1 moves) ((congrArg _ (found moves)).trans unmarked)
  refine ⟨last, fun rest => ?_, fun moves marked => ?_, fun moves unmarked stays => ?_, fun moves unmarked outlasts => ?_⟩
  · rw [bogie, rest]; exact steppedBogie_rest _ _ _
  · rw [bogie, ← found moves]
    exact steppedBogie_marked ((congrArg _ (found moves)).trans marked)
  · exact (stepped moves unmarked).trans (if_neg (mt slipOverdue_iff.1 stays))
  · exact (stepped moves unmarked).trans (if_pos (slipOverdue_iff.2 outlasts))

/-- ADHESION_FAULT of a bogie that slips, at the first step past the limit (R54). -/
theorem exec_adhesionFault {x : Nat} (slipping : (s.adhesion.bogie i).state = .slipping)
    (unmarked : (s.adhesion.bogie i).fault = false) (since : (s.adhesion.bogie i).slipTimer = some x) :
    exec (.adhesionFault i) s = .next (raiseAdhesionFault s.settings i (slipSpeed s.adhesion.lastSign s i)
      (s.reach (x + s.cfgN Setting.slipTimeLimit * 1000 + 10))) := by
  have due : slipFaultAt i s = some (x + s.cfgN Setting.slipTimeLimit * 1000 + 10) := by
    simp [slipFaultAt, slipping, unmarked, since, Config.period]
  exact congrArg Host.Outcome.next (atExpiry_some due)

/-- Settles O37: the fault at its time, with the slip speed as it is measured. -/
theorem adhesionFaultHoldsFactor : Obligations.AdhesionFaultHoldsFactor := by
  intro i x s b axle subject ahead marked slipping unmarked since
  have axleOf : bogieAxle s i = axle := by cases i <;> rfl
  have number : bogieNumber i = subject := by cases i <;> rfl
  rw [exec_adhesionFault slipping unmarked since, ← number]
  refine ⟨fun failed => ?_, fun sound measured => ?_, fun sound lost => ?_⟩
  · rw [slipSpeed_failed axleOf failed]; rfl
  · rw [slipSpeed_measured axleOf sound measured]
    simp only [← not_lt, ite_not]
    rfl
  · rw [slipSpeed_lost axleOf sound lost]; rfl

/-- The four conditions of SAND (R56). -/
theorem sandWanted_iff : sandWanted st s = true ↔
    (s.adhesion.a.k ≤ st.value Setting.sandThreshold ∨ s.adhesion.b.k ≤ st.value Setting.sandThreshold) ∧
      st.value Setting.sandMinSpeed ≤ s.axle.refSpeed ∧ s.axle.standstill = false ∧ s.route.sandInhibit = false := by
  simp [sandWanted, and_assoc]

/-- Byte 19 of STATUS is the sand state the last pass left (R55). -/
theorem statusBytes_sand (s : State) : (statusBytes s)[19]? = some (BitVec.ofInt 8 s.adhesion.stepSand.code) := by
  unfold statusBytes
  simp only [List.append_assoc, List.getElem?_append, bytesBE_length, bogieBytes_length]
  rfl

/-- Settles O38: SAND as a pass judges it on the bogies it leaves; the byte by its place; each expiry read off its timer. -/
theorem sandFollowsConditions : Obligations.SandFollowsConditions := by
  refine ⟨fun inputs s t next => ?_, fun s => ?_, fun x s runs => ?_, fun x s rests => ?_⟩
  · intro now wanted
    have parts := controlPeriod_adhesion next
    have frame : PassFrame (passStart inputs s) t := exec_controlPeriod_next next ▸ effortPass_frame (passStart inputs s)
    have sand : t.adhesion.sand =
        sandJudged (sandWanted s.settings t) (now + s.cfgN Setting.sandMax * 1000) s.adhesion.sand := congrArg Adhesion.sand parts
    have means : sandWanted s.settings t = true ↔ wanted := by
      rw [sandWanted_iff, frame.axle, frame.route]; rfl
    refine ⟨fun off => ?_, fun x on => ?_, fun x rests => ?_, ?_⟩
    · rw [sand, off]; exact if_congr means rfl rfl
    · rw [sand, on]; exact if_congr means rfl rfl
    · rw [sand, rests]; rfl
    · exact (congrArg Adhesion.stepSand parts).trans sand.symm
  · rw [statusBytes_sand]
    cases s.adhesion.stepSand <;> rfl
  · have due : sandRunExpiry s.adhesion.sand = some x := by rw [runs]; rfl
    exact congrArg Host.Outcome.next (atExpiry_some due)
  · have due : sandRestExpiry s.adhesion.sand = some x := by rw [rests]; rfl
    exact congrArg Host.Outcome.next (atExpiry_some due)

end Sys2Proof.Machine
end

section
/-! The sensed HALT line (R75, R77). -/

namespace Sys2Proof.Machine

variable {s : State}

/-- A cause that is not BREACH joins: nothing where it was present, else it is present on a latch that is set (R62). -/
theorem joinCauses_mild {x : Cause} (mild : x ≠ .breach) (s : State) :
    (s.halt.causes.has x = true ∧ joinCauses [x] s = s) ∨
    (s.halt.causes.has x = false ∧ ∃ c, joinCauses [x] s = (if s.halt.latch.isNone then setLatch x s else s).causing c) := by
  rcases joinCauses_cases [x] s with ⟨same, present⟩ | ⟨first, c, inside, absent, -, joined⟩
  · exact .inl ⟨present x (List.mem_singleton_self x), same⟩
  · obtain rfl := List.mem_singleton.1 inside
    exact .inr ⟨absent, c, by simpa [mild] using joined⟩

/-- A cause that was absent latches a clear latch (R62, R63); the HALT drive is not judged yet. -/
theorem joinCauses_latches {x : Cause} (mild : x ≠ .breach) (clear : s.halt.latch = none) (absent : s.halt.causes.has x = false) :
    Latches x s (joinCauses [x] s) := by
  rcases joinCauses_mild mild s with ⟨present, -⟩ | ⟨-, c, joined⟩
  · rw [present] at absent; cases absent
  · rw [joined, clear]
    refine ⟨?_, ?_, ?_, ?_, setLatch_sound x s, setLatch_recorded x s⟩
    · show (setLatch x s).halt.latch = _; simp
    · show (setLatch x s).halt.ackRun = _; simp
    · show (setLatch x s).traction.state = _; simp [Traction.halted_state]
    · show (setLatch x s).lines.retained = _; simp

/-- What joins on lines that retain no pulse leaves the lines (R77). -/
theorem joinCauses_lines_unretained {cs : List Cause} (none : s.lines.retained = none) : (joinCauses cs s).lines = s.lines := by
  have kept : (joinCauses cs s).lines.retained = Option.none := by
    rcases joinCauses_cases cs s with ⟨same, -⟩ | ⟨first, c, -, -, -, joined⟩
    · rw [same, none]
    · have latched : ((if s.halt.latch.isNone then setLatch first s else s).causing c).lines.retained = Option.none := by
        unfold State.causing; split <;> simp [none]
      rw [joined]
      dsimp only
      split
      · rw [breachBraking_eq, judgeLock_lines]; exact latched
      · exact latched
  rw [joinCauses_lines, kept, ← none]

/-- TRAINLINE takes the level of the line, and the other causes stay (R75). -/
theorem senseHalt_causes (s : State) : (senseHalt s).halt.causes = { s.halt.causes with trainline := s.pins.haltLine } :=
  Causes.ext_has fun y => by rw [senseHalt_has]; cases y <;> rfl

/-- An event set that stays holds no new record. -/
theorem Untold.unchanged {t : State} {k n : Nat} (same : t.host.events = s.host.events) : Untold s t k n := fun empty v inside => by
  rw [same, empty] at inside; cases inside

/-- What a line asserted by others leaves of a unit that does not drive it. -/
theorem lineAsserted_effects (u : State) (level : u.pins.haltLine = true) (idle : u.lines.retained = none) :
    let t := senseHalt u
    t.lines = u.lines ∧
    (HaltLaw u → t.halt.latch.isSome = true ∧ t.traction.state = .halted ∧ (u.halt.latch = none → Latches .trainline u t)) ∧
    (∀ r, u.halt.latch = some r → t.halt.latch = some r ∧ t.sound = u.sound ∧ t.host = u.host) := by
  have sensed : senseHalt u = joinCauses [.trainline] u := if_pos level
  rw [sensed]
  refine ⟨joinCauses_lines_unretained idle, fun law => ?_, fun r set => ?_⟩
  · cases latch : u.halt.latch with
    | none =>
      have latches := joinCauses_latches (x := .trainline) (by decide) latch (law.quiet latch _)
      exact ⟨by simp [latches.latch], latches.state, fun _ => latches⟩
    | some r =>
      obtain ⟨c, joined⟩ := joinCauses_latched (s := u) (cs := [.trainline]) (by simp [latch]) (by decide)
      rw [joined]
      exact ⟨by simp [State.causing, latch], law.halted.2 (by simp [latch]), nofun⟩
  · obtain ⟨c, joined⟩ := joinCauses_latched (s := u) (cs := [.trainline]) (by simp [set]) (by decide)
    rw [joined]
    exact ⟨set, rfl, rfl⟩

/-- Settles O43: the branches of the sensing, with a line asserted on a clear latch a latch that sets. -/
theorem haltLineBringsTrainline : Obligations.HaltLineBringsTrainline := by
  intro asserted s
  refine ⟨fun same => ?_, fun change driving => ?_, fun change idle => ?_⟩
  · exact congrArg Host.Outcome.next (if_pos same)
  · exact congrArg Host.Outcome.next ((if_neg change).trans (if_pos driving))
  · have sensed : exec (.haltLineChange asserted) s = .next (senseLine (s.setPins { s.pins with haltLine := asserted })) :=
      congrArg Host.Outcome.next (if_neg change)
    cases asserted with
    | false =>
      refine ⟨_, sensed, ?_⟩
      have released : senseLine (s.setPins { s.pins with haltLine := false }) =
          dropCauses [.trainline] (s.setPins { s.pins with haltLine := false }) := by
        simp [senseLine, idle, senseHalt]
      rw [released]
      exact ⟨rfl, rfl, nofun, fun _ => ⟨rfl, fun _ => .unchanged rfl⟩, fun _ => rfl, fun r set => set, rfl, rfl, rfl, rfl, rfl, rfl, rfl⟩
    | true =>
      let u := (s.setPins { s.pins with haltLine := true }).setLines { s.lines with retained := none }
      have taken : senseLine (s.setPins { s.pins with haltLine := true }) = senseHalt u := by
        simp [senseLine, idle, u]
      obtain ⟨lines, latched, kept⟩ := lineAsserted_effects u rfl rfl
      refine ⟨_, sensed, ?_⟩
      rw [taken]
      refine ⟨by simp [u], senseHalt_causes u, fun _ => ⟨lines, fun law => ?_⟩, fun set => ?_, nofun, fun r set => (kept r set).1,
        by simp [u], by simp [u], by simp [u], by simp [u], by simp [u], by simp [u], by simp [u]⟩
      · obtain ⟨set, halted, latches⟩ := latched ⟨law.halted, law.latched⟩
        refine ⟨set, halted, fun clear => ?_⟩
        have h := (latches clear).halted (by simp)
        exact ⟨h.record, h.told, h.warned.trans (askFor_sound (u := u.setNow _) (s := s.setNow _) rfl rfl 0)⟩
      · obtain ⟨r, set⟩ := Option.ne_none_iff_exists'.1 set
        obtain ⟨-, sound, host⟩ := kept r set
        exact ⟨sound, fun _ => .unchanged (congrArg _ host)⟩

end Sys2Proof.Machine
end

section
/-! A LEAD found in conflict: what giving up the role leaves (R72, R73, R78). -/

namespace Sys2Proof.Machine

variable {P : State → Prop} {s u : State}

/-- Causes that end leave a set latch and the traction unit (R24, R61). -/
theorem removeCauses_latched {cs : List Cause} {r : LatchRecord} (set : s.halt.latch = some r) :
    (removeCauses cs s).halt.latch = some r ∧ (removeCauses cs s).traction = s.traction :=
  judgeDrive_set (P := fun u => u.halt.latch = some r ∧ u.traction = s.traction) (s := dropCauses cs s)
    (by simp [dropCauses, set]) (fun h => h) (fun _ h => h) ⟨set, rfl⟩

/-- The monitor judged writes the monitor, silences its warning, ends VIGILANCE, and does no more (R68). -/
theorem judgeVigilance_preserves (monitor : ∀ u v, P u → P (u.setVigilance v)) (silence : ∀ u, P u → P (silencePattern 4 u))
    (ends : ∀ u, P u → P (removeCauses [.vigilance] u)) (h : P s) : P (judgeVigilance s) := by
  unfold judgeVigilance
  split
  · split
    · split
      · exact monitor _ _ h
      · exact monitor _ _ h
    · exact h
  · split
    · exact h
    · exact monitor _ _ h
    · exact monitor _ _ h
    · exact silence _ (monitor _ _ h)
    · exact silence _ (monitor _ _ h)
    · split
      · exact h
      · exact silence _ (ends _ (monitor _ _ h))

/-- A unit without causes that does not drive HALT keeps it so as causes end. -/
theorem removeCauses_causeless (cs : List Cause) (none : ∀ c, s.halt.causes.has c = false) (idle : s.lines.halting = false) :
    removeCauses cs s = dropCauses cs s := by
  have absent : (dropCauses cs s).halt.causes.counts = false := by
    simp [Causes.counts, Cause.descending, dropCauses_has, none]
  unfold removeCauses judgeDrive
  simp only [absent, Bool.and_false]
  exact if_pos idle.symm

/-! ### The role given up -/

/-- A LEAD that has become CONFLICT, before the blocks that the role bears on judge it (R72, R73). -/
def conflicted (coupled : Bool) (s : State) : State :=
  let left := leaveLead s
  (left.setLines { left.lines with role := .conflict, coupled := coupled }).setHalt { left.halt with ackRun := none }

theorem changeRole_conflict (coupled : Bool) (lead : s.lines.role = .lead) :
    changeRole .conflict coupled s = judgeVigilance (refreshSetLength (enterInhibited (conflicted coupled s))) := by
  simp [changeRole, conflicted, lead]

/-- The train lines of a unit that has become CONFLICT. -/
def TrainLines.withdrawn (l : TrainLines) : TrainLines :=
  { l with role := .conflict, demandDrive := none, tlFwdDrive := false, tlRevDrive := false }

/-- What a LEAD that becomes CONFLICT keeps, and what it gives up: its lines, its handle's EMERGENCY. -/
structure GivesUp (s u : State) : Prop where
  wires : s.lines.withdrawn.SameWires u.lines
  emergency : u.traction.inEmergency = false
  latch : ∀ r, s.halt.latch = some r → u.halt.latch = some r
  axle : u.axle = s.axle
  pins : u.pins = s.pins
  now : u.now = s.now

theorem GivesUp.conflicted (s : State) : GivesUp s (conflicted s.lines.coupled s) where
  wires := by
    show s.lines.withdrawn.SameWires { (leaveLead s).lines with role := .conflict, coupled := s.lines.coupled }
    rw [leaveLead_lines]; rfl
  emergency := by simp [Machine.conflicted, leaveLead]
  latch := fun r set => by
    show (leaveLead s).halt.latch = some r
    simpa [leaveLead, withdrawLines] using set
  axle := by simp [Machine.conflicted, leaveLead, withdrawLines]
  pins := by simp [Machine.conflicted, leaveLead, withdrawLines]
  now := by simp [Machine.conflicted, leaveLead, withdrawLines]

theorem GivesUp.inhibit (h : GivesUp s u) : GivesUp s (enterInhibited u) := by
  have setup : u.traction.SameSetup (enterInhibited u).traction := enterInhibited_setup u
  rw [enterInhibited_eq]
  exact { h with emergency := by rw [State.setTraction_traction, setup]; exact h.emergency }

theorem GivesUp.silence (h : GivesUp s u) : GivesUp s (silencePattern 4 u) where
  wires := by rw [silencePattern_lines]; exact h.wires
  emergency := by rw [silencePattern_traction]; exact h.emergency
  latch := by rw [silencePattern_halt]; exact h.latch
  axle := by rw [silencePattern_axle]; exact h.axle
  pins := by rw [silencePattern_pins]; exact h.pins
  now := by rw [silencePattern_now]; exact h.now

theorem GivesUp.ends (h : GivesUp s u) : GivesUp s (removeCauses [.vigilance] u) where
  wires := h.wires.trans (removeCauses_wires _ u)
  emergency := by rw [removeCauses_setup [.vigilance] u]; exact h.emergency
  latch := fun r set => (removeCauses_latched (h.latch r set)).1
  axle := by rw [removeCauses_axle]; exact h.axle
  pins := by rw [removeCauses_pins]; exact h.pins
  now := by rw [removeCauses_now]; exact h.now

theorem changeRole_givesUp (lead : s.lines.role = .lead) : GivesUp s (changeRole .conflict s.lines.coupled s) := by
  rw [changeRole_conflict _ lead]
  refine judgeVigilance_preserves (fun _ _ h => { h with }) (fun _ h => h.silence) (fun _ h => h.ends) ?_
  exact refreshSetLength_at (P := GivesUp s) (.other (fun _ _ h => { h with }) fun _ _ h => { h with }) (GivesUp.conflicted s).inhibit

/-- An INHIBITED unit with no cause present and no HALT drive. -/
structure Rests (u : State) : Prop where
  state : u.traction.state = .inhibited
  idle : u.lines.halting = false
  causeless : ∀ c, u.halt.causes.has c = false

/-- A unit under power that becomes CONFLICT is INHIBITED (R21, R73): without causes nothing latches. -/
theorem changeRole_rests (lead : s.lines.role = .lead) (law : HaltLaw s) (drive : DriveLaw s)
    (moving : s.traction.state = .running ∨ s.traction.state = .startHeld) :
    (changeRole .conflict s.lines.coupled s).traction.state = .inhibited := by
  have clear : s.halt.latch = none := by
    rw [← Option.not_isSome_iff_eq_none, ← law.halted]
    rintro halted
    simp [halted] at moving
  have causeless := law.quiet clear
  have idle : s.lines.halting = false := by
    have none : s.halt.causes.counts = false := by simp [Causes.counts, Cause.descending, causeless]
    have := drive.not.2 fun h => by simp [none] at h
    simpa using this
  have left : (conflicted s.lines.coupled s).traction.state = s.traction.state := by
    simp [Machine.conflicted, leaveLead]
  have inhibited : Rests (enterInhibited (conflicted s.lines.coupled s)) := by
    rw [enterInhibited_eq]
    refine ⟨?_, ?_, ?_⟩
    · rw [State.setTraction_traction]
      rcases enterInhibited_course (conflicted s.lines.coupled s) with ⟨-, state, -⟩ | ⟨still, -⟩
      · exact state
      · rw [left] at still
        rcases moving with h | h <;> simp [h] at still
    · show (leaveLead s).lines.halting = false
      rw [leaveLead_lines]; exact idle
    · intro c
      show (leaveLead s).halt.causes.has c = false
      simpa [leaveLead, withdrawLines] using causeless c
  rw [changeRole_conflict _ lead]
  refine (judgeVigilance_preserves (P := Rests) (fun _ _ h => { h with }) (fun _ h => ?_) (fun _ h => ?_)
    (refreshSetLength_at (P := Rests) (.other (fun _ _ h => { h with }) fun _ _ h => { h with }) inhibited)).state
  · exact ⟨by simpa using h.state, by simpa using h.idle, by simpa using h.causeless⟩
  · rw [removeCauses_causeless _ h.causeless h.idle]
    exact ⟨h.state, h.idle, fun c => by rw [dropCauses_has, h.causeless]; simp⟩

theorem enterConflict_recorded (s : State) : Recorded 4 0 s.lines.demandU (enterConflict s) := raise_recorded _ _ _ _

/-- What ROLE CONFLICT and the run cleared leave of a unit that has given up its role. -/
theorem enterConflict_blocks (lead : s.lines.role = .lead) :
    (enterConflict s).axle = s.axle ∧ (enterConflict s).pins = s.pins ∧ (enterConflict s).now = s.now := by
  have gives := changeRole_givesUp lead
  simp [enterConflict, gives.axle, gives.pins, gives.now]

theorem enterConflict_lines (lead : s.lines.role = .lead) : (enterConflict s).lines =
    { s.lines.withdrawn with
      conflictRun := 0, halting := (enterConflict s).lines.halting, retained := (enterConflict s).lines.retained } := by
  have wires := (changeRole_givesUp lead).wires
  unfold TrainLines.SameWires at wires
  simp only [enterConflict, raise_lines, State.setLines_lines]
  exact congrArg (fun l : TrainLines => { l with conflictRun := 0 }) wires

/-! ### The DEMAND window -/

/-- A window through which a LEAD wrote the one duty `w` (R73). -/
def Watched (w : Int) (s : State) : Prop :=
  s.lines.role = .lead ∧ s.lines.demandDrive = some w ∧ s.lines.demandChanged = false

theorem judgeWindow_unwatched (none : ∀ w, ¬Watched w s) : judgeWindow s = s := by
  unfold judgeWindow
  split
  next w lead written => exact if_pos (by simpa using fun same => none w ⟨lead, written, same⟩)
  · rfl

theorem judgeWindow_watched {w : Int} (h : Watched w s) : judgeWindow s =
    if 40 < ((s.lines.demandU : Int) - w).natAbs then
      if 10 ≤ s.lines.conflictRun + 1 then enterConflict s
      else s.setLines { s.lines with conflictRun := s.lines.conflictRun + 1 }
    else s.setLines { s.lines with conflictRun := 0 } := by
  obtain ⟨lead, written, same⟩ := h
  unfold judgeWindow
  simp only [lead, written]
  exact if_neg (by simp [same])

/-- The state in which a window that ends is judged: at its due time, with its duty for u. -/
def measured (high : Nat) (s : State) : State :=
  (s.reach s.lines.demandDue).setLines { s.lines with demandU := high / 10 }

theorem exec_demandWindow {high : Nat} (whole : high ≤ 10000) (s : State) :
    exec (.demandWindowExpiry high) s = .next (
      let judged := judgeWindow (measured high s)
      judged.setLines { judged.lines with demandChanged := false, demandDue := max s.now s.lines.demandDue + 10 }) := by
  have duty : dutyMeasured high = high / 10 := min_eq_right (by omega)
  show Host.Outcome.next (endWindow high (s.reach s.lines.demandDue)) = _
  unfold endWindow
  rw [duty]; rfl

/-- Settles O42: the branches of the window's judgement; the tenth in dispute gives the role up. -/
theorem demandWindowFindsConflict : Obligations.DemandWindowFindsConflict := by
  refine ⟨fun _ _ _ => rfl, fun high s whole => ⟨fun none => ?_, fun w watched => ?_⟩⟩
  · rw [exec_demandWindow whole, judgeWindow_unwatched (s := measured high s) none]; rfl
  · have judged := judgeWindow_watched (s := measured high s) watched
    have u : ((measured high s).lines.demandU : Int) = (high / 10 : Nat) := rfl
    have run : (measured high s).lines.conflictRun = s.lines.conflictRun := rfl
    rw [u, run] at judged
    refine ⟨fun near => ?_, fun far early => ?_, fun far tenth => ?_⟩
    · rw [exec_demandWindow whole, judged, if_neg (not_lt.2 near)]; rfl
    · rw [exec_demandWindow whole, judged, if_pos far, if_neg (by omega)]; rfl
    · rw [if_pos far, if_pos (by omega)] at judged
      obtain ⟨-, emergency, latch, -, -, -⟩ := changeRole_givesUp (s := measured high s) watched.1
      obtain ⟨axle, pins, now⟩ := enterConflict_blocks (s := measured high s) watched.1
      refine ⟨_, exec_demandWindow whole s, ?_⟩
      rw [judged]
      refine ⟨?_, fun law drive moving => ?_, ?_, emergency, latch, axle, pins, now⟩
      · exact congrArg (fun l : TrainLines => { l with demandChanged := false, demandDue := max s.now s.lines.demandDue + 10 })
          (enterConflict_lines (s := measured high s) watched.1)
      · exact changeRole_rests (s := measured high s) watched.1 ⟨law.halted, law.latched⟩ drive moving
      · have recorded := (enterConflict_recorded (measured high s)).told (s := s)
        exact fun empty => recorded empty

end Sys2Proof.Machine
end

section
/-! The vigilance monitor's commands (R69, R70, R71). -/

namespace Sys2Proof.Machine

variable {s u : State}

/-- The settings of G6 stay at an event's halts and silences (R165, R168). -/
theorem monitorSetting_walk {n : Nat} (timer : n = Setting.holdLimit ∨ n = Setting.vigilanceGrace ∨ n = Setting.warnToHalt) (v : Int) :
    QuietWalk (fun _ => True) fun u => u.cfg n = v :=
  setting_walk (by rintro g (rfl | rfl | rfl) <;> rcases timer with rfl | rfl | rfl <;> decide) v

theorem silencePattern_holdLimit (p : Nat) (s : State) :
    (silencePattern p s).cfgN Setting.holdLimit = s.cfgN Setting.holdLimit :=
  congrArg Int.toNat (silencePattern_quiet (monitorSetting_walk (.inl rfl) (s.cfg Setting.holdLimit)) rfl)

theorem removeCauses_holdLimit (cs : List Cause) (s : State) :
    (removeCauses cs s).cfgN Setting.holdLimit = s.cfgN Setting.holdLimit :=
  congrArg Int.toNat (removeCauses_quiet (monitorSetting_walk (.inl rfl) (s.cfg Setting.holdLimit)) (fun _ _ => trivial) rfl)

/-! ### The press -/

/-- A monitor a press finds in a warning or in RELEASED is in HELD, its timer started at the press (R69, R70). -/
theorem vigilPressed_held
    (timed : s.vigilance.state = .released ∨ s.vigilance.state = .warnReleased ∨ s.vigilance.state = .warnHeld) :
    (vigilPressed s).vigilance = ⟨.held, some (s.now + s.cfgN Setting.holdLimit * 1000)⟩ := by
  have silenced : (enterHeld (silencePattern 4 s)).vigilance = ⟨.held, some (s.now + s.cfgN Setting.holdLimit * 1000)⟩ := by
    simp [enterHeld, vigilTo, silencePattern_holdLimit]
  rcases timed with state | state | state
  · simp [vigilPressed, state, enterHeld, vigilTo]
  · simpa [vigilPressed, state] using silenced
  · simpa [vigilPressed, state] using silenced

/-- A monitor a press finds in OFF or in HELD stays (R69). -/
theorem vigilPressed_same (idle : s.vigilance.state = .off ∨ s.vigilance.state = .held) : vigilPressed s = s := by
  rcases idle with state | state <;> simp [vigilPressed, state]

/-- VIGILANCE ended and its warning silenced, as a press does in TRIPPED (R71). -/
def vigilCleared (s : State) : State := silencePattern 4 (removeCauses [.vigilance] s)

theorem vigilPressed_tripped (tripped : s.vigilance.state = .tripped) :
    vigilPressed s = if vigilActive (vigilCleared s) then enterHeld (vigilCleared s) else vigilTo .off none (vigilCleared s) := by
  unfold vigilPressed
  rw [tripped]; rfl

theorem vigilCleared_active (s : State) : vigilActive (vigilCleared s) = true ↔ s.lines.role = .lead ∧ s.axle.standstill = false := by
  simp [vigilActive, vigilCleared]

theorem vigilPressed_tripped_monitor (tripped : s.vigilance.state = .tripped) : (vigilPressed s).vigilance =
    if s.lines.role = .lead ∧ s.axle.standstill = false then ⟨.held, some (s.now + s.cfgN Setting.holdLimit * 1000)⟩
    else ⟨.off, none⟩ := by
  rw [vigilPressed_tripped tripped]
  have time : (vigilCleared s).now + (vigilCleared s).cfgN Setting.holdLimit * 1000 = s.now + s.cfgN Setting.holdLimit * 1000 := by
    simp [vigilCleared, silencePattern_holdLimit, removeCauses_holdLimit]
  split
  next active => rw [if_pos ((vigilCleared_active s).1 active), enterHeld, time]; rfl
  next still => rw [if_neg fun h => still ((vigilCleared_active s).2 h)]; rfl

/-- A press in TRIPPED ends VIGILANCE and leaves a set latch (R61, R71). -/
theorem vigilPressed_tripped_halt (tripped : s.vigilance.state = .tripped) :
    (vigilPressed s).halt = (removeCauses [.vigilance] s).halt := by
  rw [vigilPressed_tripped tripped]
  split
  · show (vigilCleared s).halt = _; simp [vigilCleared]
  · show (vigilCleared s).halt = _; simp [vigilCleared]

/-! ### The trip -/

/-- A trip at the time `x` (R71), as the statement on vigilance describes it. -/
theorem trip_effects (x : Nat) (s : State) :
    let t := enterTripped (s.reach x)
    t.vigilance = ⟨.tripped, none⟩ ∧ t.now = max s.now x ∧ t.halt.causes.vigilance = true ∧
    (HaltLaw s → t.halt.latch.isSome = true ∧ t.traction.state = .halted ∧
      (s.halt.latch = none → HaltLatched .vigilance s t)) := by
  let u := vigilTo .tripped none (s.reach x)
  have tripped : enterTripped (s.reach x) = addCauses [.vigilance] u := rfl
  refine ⟨by rw [tripped, addCauses_vigilance]; rfl, by simp [State.reach], ?_, fun law => ?_⟩
  · rw [tripped]; exact addCauses_has (y := .vigilance) (by decide) _ _
  · rw [tripped]
    cases latch : s.halt.latch with
    | none =>
      have latches := addCauses_latches (s := u) (List.mem_singleton_self Cause.vigilance) latch (law.quiet latch _) (by simp)
      refine ⟨by simp [latches.latch], latches.state, fun _ => ?_⟩
      obtain ⟨record, told, warned⟩ := latches.halted (by simp)
      exact ⟨record, told, warned.trans (askFor_sound (u := u.setNow _) (s := s.setNow _) rfl rfl 0)⟩
    | some r =>
      obtain ⟨kept, -⟩ := addCauses_latched (s := u) (cs := [.vigilance]) latch
      refine ⟨by simp [kept], ?_, nofun⟩
      rw [addCauses_traction_latched (s := u) (by decide) (by simp [show u.halt.latch = some r from latch])]
      exact law.halted.2 (by simp [latch])

/-! ### The warnings -/

/-- An idle buzzer plays VIGILANCE WARNING at once, and with no value pending nothing is raised (R155, R158). -/
theorem vigilanceWarning_played (idle : u.sound.buzzer = ⟨.idle, []⟩) (calm : u.settings.pending = []) :
    (askFor 4 u).sound.buzzer = ⟨.playing 4 0 0 (u.now + 800), []⟩ ∧ (askFor 4 u).host = u.host := by
  refine ⟨?_, ?_⟩
  · simp [askFor, requestPattern, SoundUnit.pattern, fixedPattern, SoundUnit.line, idle, SoundLine.plays, judgeSound, takePattern,
      enterStep, SoundUnit.setLine]
  · have taken : askFor 4 u = judgeSound (takePattern .buzzer 4 u) := by
      simp [askFor, requestPattern, SoundUnit.pattern, fixedPattern, SoundUnit.line, idle, SoundLine.plays]
    have played : takePattern .buzzer 4 u =
        u.setSound { u.sound with buzzer := ⟨.playing 4 0 0 (u.now + 800), []⟩ } := by
      simp [takePattern, SoundUnit.pattern, fixedPattern, enterStep, SoundUnit.setLine, SoundUnit.line, idle]
    rw [taken, played]
    exact judgeLock_quietHost _ _ calm

/-- On an empty set the record raised is the only one (R177). -/
theorem raise_empty (k j : Nat) (v : Int) (empty : s.host.events = []) :
    (raise k j v s).host.events = [⟨k, j, false, v, s.route.distance⟩] := by
  simp [raise, enterEvent, empty, Config.maxEvents, insertEvent]

/-- A warning's record and its pattern (R70), `monitor` the monitor's new state. -/
theorem warning_told (subject : Nat) (monitor : VigilState) (timer : Option Nat) (empty : u.host.events = [])
    (idle : u.sound.buzzer = ⟨.idle, []⟩) (calm : u.settings.pending = []) :
    let t := raise 22 subject u.axle.refSpeed (askFor 4 (vigilTo monitor timer u))
    t.host.events = [⟨22, subject, false, u.axle.refSpeed, u.route.distance⟩] ∧
    t.sound.buzzer = ⟨.playing 4 0 0 (u.now + 800), []⟩ := by
  obtain ⟨played, host⟩ := vigilanceWarning_played (u := vigilTo monitor timer u) idle calm
  refine ⟨?_, by rw [raise_sound]; exact played⟩
  rw [raise_empty _ _ _ (by rw [host]; exact empty), askFor_route]; rfl

/-- The timer of the monitor's state brings its expiry at its time (R68). -/
theorem vigilExpiry_taken {monitor : VigilState} {x : Nat} (timed : s.vigilance = ⟨monitor, some x⟩) (f : State → State) :
    atExpiry (vigilExpiry monitor s) f s = f (s.reach x) := by
  simp [vigilExpiry, timed, atExpiry]

/-- What the monitor's commands leave of the tram: where it is, its route and requests, the role it has. -/
def SameTram (s t : State) : Prop :=
  t.axle = s.axle ∧ t.adhesion = s.adhesion ∧ t.route = s.route ∧ t.junction = s.junction ∧ t.stop = s.stop ∧
    t.lines.role = s.lines.role

theorem enterTripped_sameTram (x : Nat) (s : State) : SameTram s (enterTripped (s.reach x)) :=
  ⟨enterTripped_axle _, enterTripped_adhesion _, enterTripped_route _, enterTripped_junction _, enterTripped_stop _,
    enterTripped_lines_role _⟩

/-- A warning touches the monitor, the sounds and the events alone (R70). -/
theorem warning_frame (subject : Nat) (monitor : VigilState) (timer : Option Nat) (x : Nat) (s : State) :
    let u := s.reach x
    let t := raise 22 subject u.axle.refSpeed (askFor 4 (vigilTo monitor timer u))
    SameTram s t ∧ t.vigilance = ⟨monitor, timer⟩ ∧ t.halt = s.halt ∧ t.traction = s.traction ∧ t.lines = s.lines := by
  simp [SameTram, vigilTo, State.reach]

/-- What a press leaves, in each state of the monitor (R69, R70, R71). -/
theorem vigilPressed_effects (u : State) :
    (u.vigilance.state = .off ∨ u.vigilance.state = .held → (vigilPressed u).vigilance = u.vigilance) ∧
    (u.vigilance.state = .released ∨ u.vigilance.state = .warnReleased ∨ u.vigilance.state = .warnHeld →
      (vigilPressed u).vigilance = ⟨.held, some (u.now + u.cfgN Setting.holdLimit * 1000)⟩) ∧
    (u.vigilance.state = .tripped → (vigilPressed u).halt.causes.vigilance = false ∧
      (∀ r, u.halt.latch = some r → (vigilPressed u).halt.latch = some r) ∧
      if u.lines.role = .lead ∧ u.axle.standstill = false then
        (vigilPressed u).vigilance = ⟨.held, some (u.now + u.cfgN Setting.holdLimit * 1000)⟩
      else (vigilPressed u).vigilance = ⟨.off, none⟩) := by
  refine ⟨fun still => by rw [vigilPressed_same still], vigilPressed_held, fun tripped => ?_⟩
  rw [vigilPressed_tripped_halt tripped, vigilPressed_tripped_monitor tripped]
  refine ⟨removeCauses_has (y := .vigilance) (by decide) [.vigilance] _, fun r set => (removeCauses_latched set).1, ?_⟩
  split
  · rfl
  · rfl

/-- Settles O41: the rows of the monitor's table, each with what its operation leaves of the other blocks. -/
theorem vigilanceFollowsItsTable : Obligations.VigilanceFollowsItsTable := by
  refine ⟨fun s => ⟨fun up => ?_, fun down => congrArg Host.Outcome.next (if_pos down),
    fun down => congrArg Host.Outcome.next (if_pos down), fun x held => ?_, fun x released => ?_, fun x warned => ?_, fun x warned => ?_⟩,
    fun x s t empty calm idle => ⟨fun held ran => ?_, fun released ran => ?_⟩⟩
  · exact ⟨_, congrArg Host.Outcome.next (if_neg (by simp [up])), ⟨vigilPressed_axle _, vigilPressed_adhesion _, vigilPressed_route _,
      vigilPressed_junction _, vigilPressed_stop _, vigilPressed_lines_role _⟩, vigilPressed_pins _,
      vigilPressed_effects (s.setPins { s.pins with vigil := true })⟩
  · exact ⟨_, congrArg Host.Outcome.next (vigilExpiry_taken held _), warning_frame 1 .warnHeld (some (max s.now x + 5000)) x s⟩
  · exact ⟨_, congrArg Host.Outcome.next (vigilExpiry_taken released _),
      warning_frame 0 .warnReleased (some (max s.now x + s.cfgN Setting.warnToHalt * 1000)) x s⟩
  · exact ⟨_, congrArg Host.Outcome.next (vigilExpiry_taken warned _), enterTripped_sameTram x s, trip_effects x s⟩
  · exact ⟨_, congrArg Host.Outcome.next (vigilExpiry_taken warned _), enterTripped_sameTram x s, trip_effects x s⟩
  · obtain rfl := Host.Outcome.next.inj ((congrArg Host.Outcome.next (vigilExpiry_taken held enterWarnHeld)).symm.trans ran)
    exact warning_told (u := s.reach x) 1 .warnHeld (some (max s.now x + 5000)) empty idle calm
  · obtain rfl := Host.Outcome.next.inj ((congrArg Host.Outcome.next (vigilExpiry_taken released enterWarnReleased)).symm.trans ran)
    exact warning_told (u := s.reach x) 0 .warnReleased (some (max s.now x + s.cfgN Setting.warnToHalt * 1000)) empty idle calm

end Sys2Proof.Machine
end

section
/-! New values at the blocks: what taking them up at once leaves alone (R80, R104, R131, R149, R167). -/

namespace Sys2Proof.Machine

variable {P : State → Prop} {s u : State}

/-! ### Judged locks -/

/-- A group whose condition holds, or that is frozen, is LOCKED, and no value is applied (R165). -/
theorem judgeLock_holds {g : Group} {b : Bool} (held : (b || s.settings.frozen.get g) = true) :
    judgeLock g b s = s.setSettings { s.settings with locked := s.settings.locked.put g true } := by
  unfold judgeLock
  simp [held]

/-- A group that was not LOCKED applies nothing (R168). -/
theorem judgeLock_open {g : Group} {b : Bool} (unlocked : s.settings.locked.get g = false) :
    judgeLock g b s = s.setSettings { s.settings with locked := s.settings.locked.put g (b || s.settings.frozen.get g) } := by
  unfold judgeLock
  simp [unlocked]

/-- A LOCKED group that nothing holds applies its pending values (R168). -/
theorem judgeLock_unlocks {g : Group} (locked : s.settings.locked.get g = true) (thawed : s.settings.frozen.get g = false) :
    judgeLock g false s = applyPending g (s.setSettings { s.settings with locked := s.settings.locked.put g false }) := by
  unfold judgeLock
  simp [locked, thawed]

/-! ### The routes of a new value -/

section
variable (route : ∀ u r, P u → P (u.setRoute r)) (sand : ∀ u x, P u → P (u.setAdhesion x))
include route

theorem crossPass_preserves (note : ∀ u j v, u.stop.latch.isSome = true → P u → P (raise 16 j v u)) {tag : Nat} {p : StopEntry}
    (h : P u) : P (crossPass tag p u) := by
  unfold crossPass
  split
  · dsimp only
    split
    next latched => exact note _ _ _ latched (route _ _ h)
    · exact route _ _ h
  · exact h

theorem sweepPassPoints_preserves (note : ∀ u j v, u.stop.latch.isSome = true → P u → P (raise 16 j v u)) (fuel : Nat) (h : P u) :
    P (sweepPassPoints fuel u) := by
  induction fuel generalizing u with
  | zero => exact h
  | succ fuel ih =>
    unfold sweepPassPoints
    split
    · exact ih (crossPass_preserves route note (route _ _ h))
    · exact h

include sand

/-- A new stop zone after moves pass points: entries are crossed and retire, and STOP PASSED is raised on a set latch (R149). -/
theorem takeUpStops_preserves (note : ∀ u j v, u.stop.latch.isSome = true → P u → P (raise 16 j v u)) {old : SettingsStore} (h : P u) :
    P (takeUpStops old u) := by
  unfold takeUpStops
  split
  · exact h
  · exact settleAfter_at (.other route sand) (sweepPassPoints_preserves route note _ h)

/-- New classes move the rotation, and a new tram length the clear points (R86, R104, R131). -/
theorem takeUpRoute_preserves (junction : ∀ u x, P u → P (u.setJunction x)) {old : SettingsStore} (h : P u) :
    P (takeUpRoute old u) := by
  have turned : P (if Requester.all.all fun r => old.value (Setting.classOf r) == u.cfg (Setting.classOf r) then u
      else u.setJunction { u.junction with rotation := keptRotation u.settings u.junction.rotation }) := by
    split
    · exact h
    · exact junction _ _ h
  unfold takeUpRoute
  dsimp only
  split
  · exact turned
  · exact refreshSetLength_at (P := P) (.other route sand) turned

end

/-- The blocks that no route entry bears on, and the settings. -/
structure OffRoute (s t : State) : Prop where
  halt : t.halt = s.halt
  lines : t.lines = s.lines
  traction : t.traction = s.traction
  sound : t.sound = s.sound
  axle : t.axle = s.axle
  vigilance : t.vigilance = s.vigilance
  stop : t.stop = s.stop
  pins : t.pins = s.pins
  now : t.now = s.now
  settings : t.settings = s.settings

theorem OffRoute.refl (s : State) : OffRoute s s := ⟨rfl, rfl, rfl, rfl, rfl, rfl, rfl, rfl, rfl, rfl⟩

theorem takeUpRoute_offRoute (old : SettingsStore) (s : State) : OffRoute s (takeUpRoute old s) :=
  takeUpRoute_preserves (fun _ _ h => { h with }) (fun _ _ h => { h with }) (fun _ _ h => { h with }) (.refl s)

theorem takeUpStops_offRoute (old : SettingsStore) (s : State) : OffRoute s (takeUpStops old s) :=
  takeUpStops_preserves (fun _ _ h => { h with }) (fun _ _ h => { h with }) (fun _ _ _ _ h => { h with }) (.refl s)

theorem takeUpRoute_host (old : SettingsStore) (s : State) : (takeUpRoute old s).host = s.host :=
  takeUpRoute_preserves (P := fun u => u.host = s.host) (fun _ _ h => h) (fun _ _ h => h) (fun _ _ h => h) rfl

theorem takeUpStops_junction (old : SettingsStore) (s : State) : (takeUpStops old s).junction = s.junction :=
  takeUpStops_preserves (P := fun u => u.junction = s.junction) (fun _ _ h => h) (fun _ _ h => h) (fun _ _ _ _ h => h) rfl

/-- On a clear latch a pass point crossed raises nothing (R149). -/
theorem takeUpStops_host {old : SettingsStore} (clear : s.stop.latch = none) : (takeUpStops old s).host = s.host :=
  (takeUpStops_preserves (P := fun u => u.stop.latch = none ∧ u.host = s.host) (fun _ _ h => h) (fun _ _ h => h)
    (fun _ _ _ latched h => by simp [h.1] at latched) ⟨clear, rfl⟩).2

/-- With no new tram length the route stays (R104). -/
theorem takeUpRoute_route {old : SettingsStore} (same : old.value Setting.tramLength = s.cfg Setting.tramLength) :
    (takeUpRoute old s).route = s.route := by
  unfold takeUpRoute
  dsimp only
  rw [if_pos same]
  split
  · rfl
  · rfl

theorem settleAfter_setLength (table : List Entry) (s : State) : (settleAfter table s).route.setLength = s.route.setLength := by
  unfold settleAfter settleRoute judgeInhibit formCeiling retire releaseSand
  dsimp only
  repeat' split
  all_goals rfl

/-- The set length formed afresh is the tram's, or that of two coupled trams (R86). -/
theorem refreshSetLength_setLength (s : State) : (refreshSetLength s).route.setLength =
    s.cfgN Setting.tramLength * (if s.lines.coupled then 2 else 1) := by
  unfold refreshSetLength
  generalize s.cfgN Setting.tramLength * (if s.lines.coupled then 2 else 1) = n
  dsimp only
  split
  next same => exact same.symm
  · rw [settleAfter_setLength]; rfl

theorem takeUpRoute_setLength {old : SettingsStore} (differs : old.value Setting.tramLength ≠ s.cfg Setting.tramLength) :
    (takeUpRoute old s).route.setLength = s.cfgN Setting.tramLength * (if s.lines.coupled then 2 else 1) := by
  unfold takeUpRoute
  dsimp only
  rw [if_neg differs, refreshSetLength_setLength]
  split
  · rfl
  · rfl

/-! ### The HALT output -/

/-- The values and the locks but that of G5 are those of `s`. -/
structure SameValues (s t : State) : Prop where
  effective : t.settings.effective = s.settings.effective
  pending : t.settings.pending = s.settings.pending
  frozen : t.settings.frozen = s.settings.frozen
  locked : ∀ g, g ≠ .g5 → t.settings.locked.get g = s.settings.locked.get g

theorem SameValues.refl (s : State) : SameValues s s := ⟨rfl, rfl, rfl, fun _ _ => rfl⟩

theorem SameValues.of_settings {s t : State} (same : t.settings = s.settings) : SameValues s t := by
  constructor <;> simp [same]

/-- A request at a busy channel writes the sounds, and raises SOUND DROPPED at most (R156). -/
theorem queueRequest_values (c : SoundChannel) (w : Waiting) (s : State) : SameValues s (queueRequest c w s).1 ∧
    ((queueRequest c w s).1.host = s.host ∨ ∃ k j v, (k = 7 ∨ k = 8) ∧ (queueRequest c w s).1.host = (raise k j v s).host) := by
  unfold queueRequest
  dsimp only
  split
  · exact ⟨.of_settings rfl, .inl rfl⟩
  · split
    · exact ⟨.refl s, .inl rfl⟩
    next gone _ _ _ => exact ⟨.of_settings rfl, .inr ⟨7, gone.pattern, 1, .inl rfl, rfl⟩⟩
    · exact ⟨.of_settings rfl, .inr ⟨7, w.pattern, 0, .inl rfl, rfl⟩⟩

/-- HALT WARNING asked for applies no value: the buzzer sounds (R155, R165). At most one record is raised, SOUND PREEMPTED or SOUND
DROPPED. -/
theorem askFor_halt_values (s : State) : SameValues s (askFor 0 s) ∧
    ((askFor 0 s).host = s.host ∨ ∃ k j v, (k = 7 ∨ k = 8) ∧ (askFor 0 s).host = (raise k j v s).host) := by
  have played : ∀ u : State, takePattern .buzzer 0 u =
      u.setSound { u.sound with buzzer := { u.sound.buzzer with player := .playing 0 0 0 (u.now + 30 * 10) } } := fun u => rfl
  have known : s.sound.pattern 0 = some ⟨.buzzer, .urgent, 0, [⟨.on, 30⟩, ⟨.off, 20⟩]⟩ := rfl
  unfold askFor requestPattern
  rw [known]
  dsimp only
  split
  · exact ⟨.refl s, .inl rfl⟩
  · split
    · exact ⟨.of_settings rfl, .inl rfl⟩
    · split
      · rw [played, judgeSound, judgeLock_holds (by simp [SoundUnit.sounding, SoundLine.sounding])]
        refine ⟨⟨rfl, rfl, rfl, fun g other => ?_⟩, .inl rfl⟩
        exact (PerGroup.get_put _ _ _ _).trans (if_neg other)
      · split
        next q _ _ _ _ _ => exact ⟨.of_settings rfl, .inr ⟨8, q, 0, .inr rfl, by rw [played]; rfl⟩⟩
        · exact queueRequest_values _ _ s
      · exact queueRequest_values _ _ s

theorem SameValues.trans {a b c : State} (ab : SameValues a b) (bc : SameValues b c) : SameValues a c :=
  ⟨bc.effective.trans ab.effective, bc.pending.trans ab.pending, bc.frozen.trans ab.frozen,
    fun g other => (bc.locked g other).trans (ab.locked g other)⟩

theorem SameValues.cfg {t : State} (h : SameValues s t) (n : Nat) : t.cfg n = s.cfg n := by
  unfold State.cfg SettingsStore.value; rw [h.effective]

/-- The set has at most `m` records, one of this kind, subject and value. -/
def Holds (m k j : Nat) (v : Int) (u : State) : Prop :=
  u.host.events.length ≤ m ∧ ∃ x ∈ u.host.events, x.kind = k ∧ x.subject = j ∧ x.value = v

theorem Holds.weaken {m m' k j : Nat} {v : Int} (le : m ≤ m') (h : Holds m k j v u) : Holds m' k j v u := ⟨h.1.trans le, h.2⟩

theorem Holds.same {t : State} {m k j : Nat} {v : Int} (host : t.host = u.host) (h : Holds m k j v u) : Holds m k j v t := by
  unfold Holds; rw [host]; exact h

/-- A record stays where an event of another kind finds room (R177). -/
theorem Holds.raise {m k j k' j' : Nat} {v v' : Int} (other : k' ≠ k) (room : m < Config.maxEvents) (h : Holds m k j v u) :
    Holds (m + 1) k j v (raise k' j' v' u) := by
  obtain ⟨few, x, inside, kind, rest⟩ := h
  unfold Holds Machine.raise enterEvent
  dsimp only [State.setHost_host]
  split
  · refine ⟨by simpa using few.trans (Nat.le_succ m), x, List.mem_map.2 ⟨x, inside, if_neg fun h => ?_⟩, kind, rest⟩
    exact other (h.1.symm.trans kind)
  · rw [if_pos (by omega)]
    exact ⟨by rw [insertEvent_length]; omega, x, mem_insertEvent_iff.2 (.inr inside), kind, rest⟩

/-- A latch that sets applies no value, and leaves a record of SETTINGS APPLIED (R62, R177). -/
theorem setLatch_values (c : Cause) (s : State) : SameValues s (setLatch c s) ∧
    ∀ j v, Holds 1 6 j v s → Holds 3 6 j v (setLatch c s) := by
  rw [setLatch_eq]
  obtain ⟨values, host⟩ := askFor_halt_values (raise 30 c.code s.axle.refSpeed (latchedFrom c s))
  refine ⟨(SameValues.of_settings (s := s) (t := raise 30 c.code s.axle.refSpeed (latchedFrom c s)) rfl).trans values, fun j v h => ?_⟩
  have latched : Holds 2 6 j v (raise 30 c.code s.axle.refSpeed (latchedFrom c s)) :=
    Holds.raise (by decide) (by decide) (h.same (t := latchedFrom c s) rfl)
  rcases host with same | ⟨k, i, w, tone, told⟩
  · exact (latched.weaken (by decide)).same same
  · exact (Holds.raise (by omega) (by decide) latched).same told

/-- The HALT drive judged applies no value, and leaves a record of SETTINGS APPLIED (R74, R75). -/
theorem judgeDrive_values (s : State) : SameValues s (judgeDrive s) ∧ ∀ j v, Holds 1 6 j v s → Holds 3 6 j v (judgeDrive s) := by
  rcases judgeDrive_cases s with ⟨-, e⟩ | ⟨-, -, e⟩ | ⟨-, -, e⟩
  · rw [e]; exact ⟨.refl s, fun j v h => h.weaken (by decide)⟩
  · rw [e]; exact ⟨.of_settings rfl, fun j v h => h.weaken (by decide)⟩
  · rw [e]
    unfold senseHalt
    split
    · rcases joinCauses_mild (x := .trainline) (by decide) (s.setLines { s.lines with halting := false }) with
        ⟨-, same⟩ | ⟨-, c, joined⟩
      · rw [same]; exact ⟨.of_settings rfl, fun j v h => h.weaken (by decide)⟩
      · rw [joined]
        split
        · obtain ⟨values, holds⟩ := setLatch_values .trainline (s.setLines { s.lines with halting := false })
          exact ⟨⟨values.effective, values.pending, values.frozen, values.locked⟩, holds⟩
        · exact ⟨.of_settings rfl, fun j v h => h.weaken (by decide)⟩
    · exact ⟨.of_settings rfl, fun j v h => h.weaken (by decide)⟩

/-! ### A group's new values taken up -/

/-- What the blocks make of new values of a group is no value of its own. -/
theorem takeUp_values (g : Group) (old : SettingsStore) (s : State) : SameValues s (takeUp g old s) := by
  cases g with
  | g3 => exact .of_settings (takeUpRoute_offRoute old s).settings
  | g4 => exact .of_settings (takeUpStops_offRoute old s).settings
  | g6 => exact ite_at (fun _ => .refl s) fun _ => (judgeDrive_values s).1
  | _ => exact .refl s

/-- With no value changed nothing is taken up. -/
theorem takeUp_same (g : Group) {old : SettingsStore} (same : old.effective = s.settings.effective) : takeUp g old s = s := by
  have value : ∀ n, old.value n = s.cfg n := fun n => by unfold State.cfg SettingsStore.value; rw [same]
  cases g with
  | g3 =>
    unfold takeUp takeUpRoute
    dsimp only
    rw [if_pos (value _), if_pos (by simp [value])]
  | g4 => exact if_pos (value _)
  | g6 => exact if_pos (value _).symm
  | _ => rfl

/-- The blocks after new values of group `g`, as the statement on the settings describes them. -/
def Takes (s : State) (g : Group) (t : State) : Prop :=
  (g = .g3 →
    (t.cfg Setting.tramLength = s.cfg Setting.tramLength → t.route = s.route) ∧
    (t.cfg Setting.tramLength ≠ s.cfg Setting.tramLength →
      t.route.setLength = t.cfgN Setting.tramLength * (if s.lines.coupled then 2 else 1))) ∧
  (g = .g4 → t.cfg Setting.zoneAfter = s.cfg Setting.zoneAfter → t.route = s.route) ∧
  (g ≠ .g3 → g ≠ .g4 → t.route = s.route) ∧
  (g = .g6 →
    (t.cfg Setting.haltOutput = s.cfg Setting.haltOutput →
      t.halt = s.halt ∧ t.lines = s.lines ∧ t.traction = s.traction) ∧
    (t.cfg Setting.haltOutput ≠ s.cfg Setting.haltOutput →
      (t.lines.halting = true ↔ t.cfg Setting.haltOutput = 1 ∧ t.halt.causes.counts = true))) ∧
  (g ≠ .g6 → t.halt = s.halt ∧ t.lines = s.lines ∧ t.traction = s.traction ∧ t.sound = s.sound) ∧
  (g ≠ .g3 → t.junction = s.junction) ∧
  t.axle = s.axle ∧ t.vigilance = s.vigilance ∧ t.stop = s.stop ∧ t.pins = s.pins ∧ t.now = s.now

/-- New values of a group bear on the blocks the group's chapter names and on no other. -/
theorem takeUp_takes (g : Group) {old : SettingsStore} (st : SettingsStore) (link : HostLink)
    (before : old.effective = s.settings.effective) : Takes s g (takeUp g old ((s.setSettings st).setHost link)) := by
  have value : ∀ n, old.value n = s.cfg n := fun n => by unfold State.cfg SettingsStore.value; rw [before]
  generalize fresh : (s.setSettings st).setHost link = u
  have values := (takeUp_values g old u).cfg
  cases g with
  | g3 =>
    obtain ⟨halt, lines, traction, sound, axle, vigilance, stop, pins, now, -⟩ := takeUpRoute_offRoute old u
    subst fresh
    refine ⟨fun _ => ⟨fun same => ?_, fun differs => ?_⟩, nofun, fun h => absurd rfl h, nofun,
      fun _ => ⟨halt, lines, traction, sound⟩, fun h => absurd rfl h, axle, vigilance, stop, pins, now⟩
    · exact takeUpRoute_route ((value _).trans (same.symm.trans (values _)))
    · refine (takeUpRoute_setLength fun e => differs ?_).trans ?_
      · exact (values _).trans (e.symm.trans (value _))
      · exact congrArg (fun v : Int => v.toNat * (if s.lines.coupled then 2 else 1)) (values _).symm
  | g4 =>
    obtain ⟨halt, lines, traction, sound, axle, vigilance, stop, pins, now, -⟩ := takeUpStops_offRoute old u
    have junction := takeUpStops_junction old u
    subst fresh
    refine ⟨nofun, fun _ same => ?_, fun _ h => absurd rfl h, nofun,
      fun _ => ⟨halt, lines, traction, sound⟩, fun _ => junction, axle, vigilance, stop, pins, now⟩
    show _ = ((s.setSettings st).setHost link).route
    exact congrArg State.route (if_pos ((value _).trans (same.symm.trans (values _))))
  | g6 =>
    have taken : takeUp .g6 old u = if u.cfg Setting.haltOutput = old.value Setting.haltOutput then u else judgeDrive u := rfl
    rw [taken] at values ⊢
    subst fresh
    split
    next same =>
      refine ⟨nofun, nofun, fun _ _ => rfl, fun _ => ⟨fun _ => ⟨rfl, rfl, rfl⟩, fun differs => ?_⟩, fun h => absurd rfl h,
        fun _ => rfl, rfl, rfl, rfl, rfl, rfl⟩
      exact absurd (same.trans (value _)) differs
    next differs =>
      rw [if_neg differs] at values
      refine ⟨nofun, nofun, fun _ _ => by simp, fun _ => ⟨fun same => ?_, fun _ => judgeDrive_law _⟩, fun h => absurd rfl h,
        fun _ => by simp, by simp, by simp, by simp, by simp, by simp⟩
      exact absurd ((values _).symm.trans (same.trans (value _).symm)) differs
  | _ =>
    subst fresh
    exact ⟨nofun, nofun, fun _ _ => rfl, nofun, fun _ => ⟨rfl, rfl, rfl, rfl⟩, fun _ => rfl, rfl, rfl, rfl, rfl, rfl⟩

/-- A record of SETTINGS APPLIED outlives what the blocks make of the new values (R168, R177): a clear stop-request latch raises
nothing at a moved pass point. -/
theorem takeUp_holds {g : Group} {old : SettingsStore} {j : Nat} {v : Int} (clear : g = .g4 → s.stop.latch = none)
    (h : Holds 1 6 j v s) : Holds 3 6 j v (takeUp g old s) := by
  have kept := h.weaken (m' := 3) (by decide)
  cases g with
  | g3 => exact kept.same (takeUpRoute_host old s)
  | g4 => exact kept.same (takeUpStops_host (clear rfl))
  | g6 => exact ite_at (P := Holds 3 6 j v) (fun _ => kept) fun _ => (judgeDrive_values s).2 j v h
  | _ => exact kept

end Sys2Proof.Machine
end

section
/-! SET, FREEZE and THAW (R166, R168, R170). -/

namespace Sys2Proof.Machine

variable {s : State} {g : Group}

/-! ### Values set one after another -/

theorem listed_foldl_absent {m : Nat} {mine : List (Nat × Int)} (absent : ∀ p ∈ mine, p.1 ≠ m) (acc : List (Nat × Int)) :
    listed m (mine.foldl (fun l p => listSet p.1 p.2 l) acc) = listed m acc := by
  induction mine generalizing acc with
  | nil => rfl
  | cons p l ih =>
    rw [List.foldl_cons, ih fun q inside => absent q (List.mem_cons_of_mem _ inside), listed_listSet,
      if_neg (absent p List.mem_cons_self).symm]

theorem listed_foldl_once {m : Nat} {v : Int} {mine : List (Nat × Int)} (inside : (m, v) ∈ mine)
    (once : mine.countP (fun p => p.1 == m) = 1) (acc : List (Nat × Int)) :
    listed m (mine.foldl (fun l p => listSet p.1 p.2 l) acc) = some v := by
  induction mine generalizing acc with
  | nil => cases inside
  | cons p l ih =>
    rw [List.foldl_cons]
    rw [List.countP_cons] at once
    by_cases head : p.1 = m
    · have rest : ∀ q ∈ l, q.1 ≠ m := by
        have : l.countP (fun q => q.1 == m) = 0 := by simpa [head] using once
        simpa [List.countP_eq_zero] using this
      obtain rfl : (m, v) = p := (List.mem_cons.1 inside).resolve_right fun later => rest _ later rfl
      rw [listed_foldl_absent rest, listed_listSet, if_pos rfl]
    · exact ih ((List.mem_cons.1 inside).resolve_left fun e => head (e ▸ rfl)) (by simpa [head] using once) _

/-! ### The values of a group that unlocks -/

/-- The values pending in a group, as SETTINGS APPLIED counts them (R168). -/
def pendingOf (g : Group) (st : SettingsStore) : List (Nat × Int) := st.pending.filter fun p => decide (groupOf p.1 = some g)

/-- `s` with the group thawed and unlocked, and every value pending in it effective (R168, R170). -/
def thawed (g : Group) (s : State) : State := s.setSettings { s.settings with
  frozen := s.settings.frozen.put g false, locked := s.settings.locked.put g false
  effective := (pendingOf g s.settings).foldl (fun l p => listSet p.1 p.2 l) s.settings.effective
  pending := s.settings.pending.filter fun p => decide (groupOf p.1 ≠ some g) }

theorem Group.code_injective {a b : Group} (h : a.code = b.code) : a = b := by
  cases a <;> cases b <;> first | rfl | cases h

/-- A pending value is one of a setting of the index, whose group its number tells. -/
theorem SettingsLaw.pending_group {st : SettingsStore} (law : SettingsLaw st) {p : Nat × Int} (inside : p ∈ st.pending) (g : Group) :
    groupOf p.1 = some g ↔ settingGroup p.1 = g.code := by
  obtain ⟨h, of, -⟩ := (heldBack_iff st p.1).1 (law.held p inside)
  rw [of, ← groupOf_code of, Option.some_inj]
  exact ⟨congrArg _, Group.code_injective⟩

theorem applyPending_eq (law : SettingsLaw s.settings) {u : State} (pending : u.settings.pending = s.settings.pending) :
    applyPending g u =
      let applied := u.setSettings { u.settings with
        effective := (pendingOf g s.settings).foldl (fun l p => listSet p.1 p.2 l) u.settings.effective
        pending := s.settings.pending.filter fun p => decide (groupOf p.1 ≠ some g) }
      if pendingOf g s.settings = [] then applied else raise 6 g.code (pendingOf g s.settings).length applied := by
  have mine : (u.settings.pending.filter fun p => settingGroup p.1 == g.code) = pendingOf g s.settings := by
    rw [pending]
    exact List.filter_congr fun p inside => (decide_eq_decide.2 (law.pending_group inside g)).symm
  have rest : (u.settings.pending.filter fun p => settingGroup p.1 != g.code) =
      s.settings.pending.filter fun p => decide (groupOf p.1 ≠ some g) := by
    rw [pending]
    refine List.filter_congr fun p inside => ?_
    rw [decide_not, decide_eq_decide.2 (law.pending_group inside g)]; rfl
  unfold applyPending
  rw [mine, rest]
  simp only [List.isEmpty_iff]

/-- `s` with the values of a group that unlocks, and SETTINGS APPLIED if there was one (R168). -/
def unlocked (g : Group) (s : State) : State :=
  if pendingOf g s.settings = [] then thawed g s else raise 6 g.code (pendingOf g s.settings).length (thawed g s)

/-- A group that THAW unlocks applies its pending values, and its block takes them up (R168, R170). -/
theorem setFreeze_unlocks (law : SettingsLaw s.settings) (unheld : lockHeld s g = false) (locked : s.settings.locked.get g = true) :
    setFreeze g false s =
      takeUp g { s.settings with frozen := s.settings.frozen.put g false } (unlocked g s) := by
  let u := s.setSettings { s.settings with frozen := s.settings.frozen.put g false }
  have condition : lockHeld u g = false := unheld ▸ by cases g <;> rfl
  show takeUp g u.settings (judgeLock g (lockHeld u g) u) = _
  rw [condition, judgeLock_unlocks (s := u) locked ((PerGroup.get_put _ _ _ _).trans (if_pos rfl)), applyPending_eq law]
  · rfl
  · rfl

/-- FREEZE, and a THAW that does not unlock, change the freeze flag and the lock alone (R165, R170). -/
theorem setFreeze_locks (g : Group) (frozen : Bool) (s : State)
    (same : frozen = true ∨ lockHeld s g = true ∨ s.settings.locked.get g = false) :
    setFreeze g frozen s = s.setSettings { s.settings with
      frozen := s.settings.frozen.put g frozen, locked := s.settings.locked.put g (lockHeld s g || frozen) } := by
  let u := s.setSettings { s.settings with frozen := s.settings.frozen.put g frozen }
  have condition : lockHeld u g = lockHeld s g := by cases g <;> rfl
  have flag : u.settings.frozen.get g = frozen := (PerGroup.get_put _ _ _ _).trans (if_pos rfl)
  have judged : judgeLock g (lockHeld u g) u =
      u.setSettings { u.settings with locked := u.settings.locked.put g (lockHeld s g || frozen) } := by
    by_cases held : (lockHeld s g || frozen) = true
    · rw [held, judgeLock_holds (by rw [condition, flag, held])]
    · have open' : u.settings.locked.get g = false := same.elim (fun h => absurd (by simp [h]) held)
        (·.elim (fun h => absurd (by simp [h]) held) id)
      rw [judgeLock_open open', condition, flag]
  show takeUp g u.settings (judgeLock g (lockHeld u g) u) = _
  rw [judged, takeUp_same]
  · rfl
  · rfl

/-! ### The state of a group that unlocks -/

theorem unlocked_apart (g : Group) (s : State) : ∃ link, unlocked g s = (thawed g s).setHost link := by
  unfold unlocked
  split
  · exact ⟨_, rfl⟩
  · exact ⟨_, rfl⟩

/-- A value that waits alone for its setting becomes effective, and a setting for which none waits keeps its own (R168). -/
theorem thawed_cfg (g : Group) (s : State) (m : Nat) :
    (∀ v, (m, v) ∈ pendingOf g s.settings → (pendingOf g s.settings).countP (fun p => p.1 == m) = 1 → (thawed g s).cfg m = v) ∧
    ((∀ p ∈ pendingOf g s.settings, p.1 ≠ m) → (thawed g s).cfg m = s.cfg m) := by
  have value : (thawed g s).cfg m =
      (listed m ((pendingOf g s.settings).foldl (fun l p => listSet p.1 p.2 l) s.settings.effective)).getD (settingDefault m) := rfl
  rw [value]
  exact ⟨fun v inside once => by rw [listed_foldl_once inside once]; rfl, fun absent => by rw [listed_foldl_absent absent]; rfl⟩

/-- SETTINGS APPLIED stands alone in a set that was empty (R168, R177). -/
theorem unlocked_holds (empty : s.host.events = []) (some : pendingOf g s.settings ≠ []) :
    Holds 1 6 g.code (pendingOf g s.settings).length (unlocked g s) := by
  unfold unlocked Holds
  rw [if_neg some, raise_empty _ _ _ (show (thawed g s).host.events = [] from empty)]
  exact ⟨le_rfl, _, List.mem_singleton_self _, rfl, rfl, rfl⟩

/-! ### The requests -/

/-- A request that finds the link ready, by what its execution answers (R174, R175). -/
theorem exec_answering {c : Instr} {tag : Nat} {r : HostRequest} {reply : Reply} {u : State} (hc : c.request = some (tag, r))
    (h : LinkReady s) (done : perform r (queued tag r s) = (u, reply)) : exec c s = .next (answering tag r reply u) := by
  rw [exec_request hc, submit_ready h, done]

/-- SET of a value in its range for a setting of group `g` (R166). -/
theorem perform_set {n : Nat} {v : Int} (of : groupOf n = some g) (allowed : settingAllows n v = true) :
    perform (.set n v) s = (takeValue g n v s, ⟨if s.settings.locked.get g then .held else .ok, settingBytes (takeValue g n v s) n⟩) := by
  simp only [perform, doSet, of, allowed, if_true]

theorem perform_thaw {n : Nat} (named : Group.ofCode n = some g) : perform (.thaw n) s = taken (setFreeze g false s) := by
  simp only [perform, doThaw, named]

/-- SET of a value in a group that is not LOCKED (R166). -/
theorem set_effects (tag : Nat) {n : Nat} {v : Int} (unlocked : s.settings.locked.get g = false) :
    let st : SettingsStore := { s.settings with effective := listSet n v s.settings.effective }
    let u := takeValue g n v (queued tag (.set n v) s)
    SameValues (s.setSettings st) u ∧ Takes s g u ∧
      (g = .g0 ∨ g = .g1 ∨ g = .g2 ∨ g = .g5 → u = (s.setSettings u.settings).setHost u.host) := by
  intro st u
  have taken : u = takeUp g s.settings ((s.setSettings st).setHost (queued tag (.set n v) s).host) :=
    if_neg (by simp [queued, unlocked])
  have values := takeUp_values g s.settings ((s.setSettings st).setHost (queued tag (.set n v) s).host)
  refine ⟨taken ▸ ⟨values.effective, values.pending, values.frozen, values.locked⟩, taken ▸ takeUp_takes g st _ rfl, fun plain => ?_⟩
  rw [taken]
  rcases plain with rfl | rfl | rfl | rfl <;> rfl

/-- What apart from the link differs in the settings alone still does when it is answered. -/
theorem answering_apart {tag : Nat} {r : HostRequest} {reply : Reply} {u : State}
    (apart : u = (s.setSettings u.settings).setHost u.host) :
    answering tag r reply u = (s.setSettings (answering tag r reply u).settings).setHost (answering tag r reply u).host := by
  have moved : u.setHost (answering tag r reply u).host =
      ((s.setSettings u.settings).setHost u.host).setHost (answering tag r reply u).host := congrArg (State.setHost · _) apart
  exact moved

/-- A THAW that unlocks a group (R168, R170). -/
theorem thaw_effects (tag n : Nat) (law : SettingsLaw s.settings) (unheld : lockHeld s g = false)
    (locked : s.settings.locked.get g = true) :
    let q := queued tag (.thaw n) s
    let u := setFreeze g false q
    SameValues (thawed g q) u ∧ Takes s g u ∧
    (s.host.events = [] → pendingOf g s.settings ≠ [] → Holds 3 6 g.code (pendingOf g s.settings).length u) := by
  intro q u
  have taken : u = takeUp g { s.settings with frozen := s.settings.frozen.put g false } (unlocked g q) :=
    setFreeze_unlocks (s := q) law (unheld ▸ by cases g <;> rfl) locked
  obtain ⟨link, apart⟩ := unlocked_apart g q
  have values := takeUp_values g { s.settings with frozen := s.settings.frozen.put g false } (unlocked g q)
  refine ⟨?_, ?_, fun empty some => ?_⟩
  · rw [← taken, apart] at values
    exact ⟨values.effective, values.pending, values.frozen, values.locked⟩
  · rw [taken, apart]
    exact takeUp_takes g (thawed g q).settings link rfl
  · rw [taken]
    refine takeUp_holds (fun stops => ?_) (unlocked_holds (s := q) empty some)
    subst stops
    rw [apart]
    show s.stop.latch = none
    simpa [lockHeld] using unheld

/-- Settles O60: SET, FREEZE and THAW by the branches of their rows; what the group's block makes of a new value is `Takes`. -/
theorem settingsAreSetAndHeldBack : Obligations.SettingsAreSetAndHeldBack := by
  intro tag s ready law takes
  refine ⟨fun n v none => ?_, fun n v g of => ⟨fun refused => ?_, fun allowed locked => ?_, fun allowed open' => ?_⟩, fun n beyond => ?_,
    fun n g named => ⟨?_, fun held => ?_, fun unheld open' => ?_, fun unheld locked moving => ?_, fun unheld locked plain => ?_⟩⟩
  · exact exec_replied rfl ready (by simp only [perform, doSet, none]; rfl)
  · exact exec_replied rfl ready (by simp only [perform, doSet, of, refused]; rfl)
  · refine ⟨listSet n v s.settings.pending, ?_, ?_, fun m other => ?_⟩
    · have held : (queued tag (.set n v) s).settings.locked.get g = true := locked
      rw [exec_answering rfl ready (perform_set of allowed)]
      unfold takeValue
      simp only [held, if_true]
      rfl
    · rw [listed_listSet, if_pos rfl]
    · rw [listed_listSet, if_neg other]
  · obtain ⟨values, taken, apart⟩ := set_effects tag (n := n) (v := v) open'
    have held : (queued tag (.set n v) s).settings.locked.get g = false := open'
    rw [exec_answering rfl ready (perform_set of allowed), held]
    generalize takeValue g n v (queued tag (.set n v) s) = u at values taken apart
    refine ⟨_, rfl, rfl, ?_, fun calm => ⟨fun m other => ?_, values.pending.trans calm⟩, fun plain => ?_, taken⟩
    · refine (values.cfg n).trans ?_
      show (listed n (listSet n v s.settings.effective)).getD _ = v
      rw [listed_listSet, if_pos rfl]; rfl
    · refine (values.cfg m).trans ?_
      show (listed m (listSet n v s.settings.effective)).getD _ = _
      rw [listed_listSet, if_neg other]; rfl
    · exact answering_apart (apart plain)
  · have unnamed : Group.ofCode n = none := by
      obtain ⟨k, rfl⟩ := Nat.exists_eq_add_of_lt beyond
      rw [show 6 + k + 1 = k + 7 by omega]; rfl
    exact ⟨exec_replied rfl ready (by simp only [perform, doFreeze, unnamed]; rfl),
      exec_replied rfl ready (by simp only [perform, doThaw, unnamed]; rfl)⟩
  · rw [exec_answering rfl ready (show perform (.freeze n) (queued tag (.freeze n) s) = _ by
      simp only [perform, doFreeze, named]; rfl)]
    rw [setFreeze_locks g true (queued tag (.freeze n) s) (.inl rfl), Bool.or_true]; rfl
  · rw [exec_answering rfl ready (perform_thaw named)]
    rw [setFreeze_locks g false (queued tag (.thaw n) s) (.inr (.inl held)), show lockHeld (queued tag (.thaw n) s) g = true from held]; rfl
  · rw [exec_answering rfl ready (perform_thaw named)]
    rw [setFreeze_locks g false (queued tag (.thaw n) s) (.inr (.inr open')), show lockHeld (queued tag (.thaw n) s) g = false from unheld]; rfl
  · obtain ⟨values, taken, holds⟩ := thaw_effects tag n law unheld locked
    have other : g ≠ .g5 := by rcases moving with rfl | rfl | rfl <;> decide
    refine ⟨_, exec_answering rfl ready (perform_thaw named), rfl, taken, values.frozen,
      (values.locked g other).trans ((PerGroup.get_put _ _ _ _).trans (if_pos rfl)), values.pending, fun empty some => ?_, fun m => ?_⟩
    · obtain ⟨-, x, inside, kind, subject, value⟩ := holds empty some
      exact ⟨x, inside, kind, subject.trans (Group.ofCode_code named), value⟩
    · obtain ⟨once, absent⟩ := thawed_cfg g (queued tag (.thaw n) s) m
      exact ⟨fun v inside alone => (values.cfg m).trans (once v inside alone), fun none => (values.cfg m).trans (absent none)⟩
  · refine ⟨(thawed g s).settings.effective, ?_, fun m => thawed_cfg g s m⟩
    have untaken : ∀ old u, takeUp g old u = u := fun old u => by rcases plain with rfl | rfl | rfl | rfl <;> rfl
    have opened := setFreeze_unlocks (s := queued tag (.thaw n) s) law (unheld ▸ by cases g <;> rfl) locked
    rw [exec_answering rfl ready (perform_thaw named), opened, untaken, unlocked, Group.ofCode_code named]
    show _ = Host.Outcome.next (replied tag (.thaw n) ⟨.ok, []⟩ (if pendingOf g s.settings = [] then thawed g s else
      raise 6 n (pendingOf g s.settings).length (thawed g s)))
    by_cases none : pendingOf g s.settings = []
    · rw [if_pos none, if_pos (show pendingOf g (queued tag (.thaw n) s).settings = [] from none)]; rfl
    · rw [if_neg none, if_neg (show ¬pendingOf g (queued tag (.thaw n) s).settings = [] from none)]; rfl

end Sys2Proof.Machine
end

section
/-! Lawful walks: what the monitor, the halt latch and the causes that follow their blocks are told of an event. Everything but the
latch, the causes, the monitor, the role, the standstill flag and the route table is free; the causes of the monitor and of the
junction entries change only where those are judged (R61, R68), and of the table only what brings no junction entry into or out of
a state that a cause follows. -/

namespace Sys2Proof.Machine

variable {P : State → Prop} {s u : State}

/-- The junction states that a cause follows (R61). -/
def JunctionState.Alarming (st : JunctionState) : Prop := st = .overdue ∨ st = .refused ∨ st = .breached

/-- The route engine `b` in place of `a`: tags stand once, and the causes that follow the junction entries would be the same. -/
structure RouteEngine.Calm (a b : RouteEngine) : Prop where
  tags : (b.table.map (·.tag)).Nodup
  states : ∀ st : JunctionState, st.Alarming →
    (some st ∈ b.table.map Entry.junctionState ↔ some st ∈ a.table.map Entry.junctionState)

/-- A cause that neither the monitor nor a junction entry brings. -/
def Cause.Own (c : Cause) : Prop := c ≠ .vigilance ∧ c ≠ .junction ∧ c ≠ .breach

/-- The monitor's timer runs (R68). -/
def VigilState.Timed (v : VigilState) : Prop := v ≠ .off ∧ v ≠ .tripped

/-- The primitives of what moves neither a junction entry into another state nor the monitor. A pattern is asked for by the blocks;
VIGILANCE WARNING (R70) only by the monitor. -/
structure TravelWalk (P : State → Prop) : Prop where
  plain : ∀ {s u : State}, u.halt.latch = s.halt.latch → u.halt.causes = s.halt.causes → u.vigilance = s.vigilance →
    u.lines.role = s.lines.role → u.axle.standstill = s.axle.standstill → u.route.table = s.route.table → u.sound = s.sound →
    At P s → At P u
  route : ∀ {s r}, ((s.route.table.map (·.tag)).Nodup → s.route.Calm r) → At P s → At P (s.setRoute r)
  add : ∀ {s cs}, (∀ c ∈ cs, c.Own) → At P s → At P (addCauses cs s)
  remove : ∀ {s cs}, (∀ c ∈ cs, c.Own) → At P s → At P (removeCauses cs s)
  sense : ∀ {s}, At P s → At P (senseHalt s)
  drive : ∀ {s}, At P s → At P (judgeDrive s)
  ask : ∀ {s p}, p ≠ 4 → At P s → At P (askFor p s)
  controls : ∀ {s}, At P s → At P (releaseControls s)

/-- With the primitives of what moves the junction entries: the causes judged over the table, JUNCTION WARNING silenced (R61, R134). -/
structure RideWalk (P : State → Prop) : Prop extends TravelWalk P where
  judged : ∀ {s r}, ((s.route.table.map (·.tag)).Nodup → (r.table.map (·.tag)).Nodup) → At P s →
    At P (judgeJunctionCauses (s.setRoute r))
  silence : ∀ {s}, At P s → At P (silencePattern 1 s)

/-- The primitives of an event for the laws of the monitor, of the latch and of the causes, to which the sounds are free. -/
structure LawWalk (P : State → Prop) : Prop where
  plain : ∀ {s u : State}, u.halt.latch = s.halt.latch → u.halt.causes = s.halt.causes → u.vigilance = s.vigilance →
    u.lines.role = s.lines.role → u.axle.standstill = s.axle.standstill → u.route.table = s.route.table → At P s → At P u
  route : ∀ {s r}, ((s.route.table.map (·.tag)).Nodup → s.route.Calm r) → At P s → At P (s.setRoute r)
  judged : ∀ {s r}, ((s.route.table.map (·.tag)).Nodup → (r.table.map (·.tag)).Nodup) → At P s →
    At P (judgeJunctionCauses (s.setRoute r))
  add : ∀ {s cs}, (∀ c ∈ cs, c.Own) → At P s → At P (addCauses cs s)
  remove : ∀ {s cs}, (∀ c ∈ cs, c.Own) → At P s → At P (removeCauses cs s)
  sense : ∀ {s}, At P s → At P (senseHalt s)
  drive : ∀ {s}, At P s → At P (judgeDrive s)

/-! ### Free changes -/

/-- A change of the blocks that no travel here reads. -/
theorem TravelWalk.still (W : TravelWalk P) (h : At P s) (halt : u.halt = s.halt := by rfl)
    (vigilance : u.vigilance = s.vigilance := by rfl) (lines : u.lines.role = s.lines.role := by rfl)
    (axle : u.axle.standstill = s.axle.standstill := by rfl) (route : u.route.table = s.route.table := by rfl)
    (sound : u.sound = s.sound := by rfl) : At P u :=
  W.plain (by rw [halt]) (by rw [halt]) vigilance lines axle route sound h

theorem TravelWalk.lock (W : TravelWalk P) {g b} (h : At P s) : At P (judgeLock g b s) :=
  W.still h (by simp) (by simp) (by simp) (by simp) (by simp) (by simp)

theorem TravelWalk.raise (W : TravelWalk P) {k j v} (h : At P s) : At P (Machine.raise k j v s) := W.still h

theorem TravelWalk.junction (W : TravelWalk P) {x} (h : At P s) : At P (s.setJunction x) := W.still h

theorem TravelWalk.stop (W : TravelWalk P) {x} (h : At P s) : At P (s.setStop x) := W.still h

theorem TravelWalk.sand (W : TravelWalk P) (h : At P s) : At P (releaseSand s) := by rw [releaseSand_eq]; exact W.still h

theorem TravelWalk.inhibit (W : TravelWalk P) (h : At P s) : At P (enterInhibited s) := by rw [enterInhibited_eq]; exact W.still h

/-- A change of the blocks that no law here reads. -/
theorem LawWalk.still (W : LawWalk P) (h : At P s) (halt : u.halt = s.halt := by rfl) (vigilance : u.vigilance = s.vigilance := by rfl)
    (lines : u.lines.role = s.lines.role := by rfl) (axle : u.axle.standstill = s.axle.standstill := by rfl)
    (route : u.route.table = s.route.table := by rfl) : At P u :=
  W.plain (by rw [halt]) (by rw [halt]) vigilance lines axle route h

theorem LawWalk.lock (W : LawWalk P) {g b} (h : At P s) : At P (judgeLock g b s) :=
  W.still h (by simp) (by simp) (by simp) (by simp) (by simp)

theorem LawWalk.raise (W : LawWalk P) {k j v} (h : At P s) : At P (Machine.raise k j v s) := W.still h

theorem LawWalk.junction (W : LawWalk P) {x} (h : At P s) : At P (s.setJunction x) := W.still h

theorem LawWalk.stop (W : LawWalk P) {x} (h : At P s) : At P (s.setStop x) := W.still h

theorem LawWalk.tone (W : LawWalk P) : ToneWalk P where
  note := fun _ h => W.still h
  sounding := W.lock
  sound := fun _ h => W.still h

theorem LawWalk.ride (W : LawWalk P) : RideWalk P where
  plain := fun latch causes vigilance role flag table _ => W.plain latch causes vigilance role flag table
  route := W.route
  add := W.add
  remove := W.remove
  sense := W.sense
  drive := W.drive
  ask := fun _ h => askFor_event W.tone h
  controls := fun h => releaseControls_event W.tone h
  judged := W.judged
  silence := fun h => silencePattern_event W.tone h

theorem LawWalk.travel (W : LawWalk P) : TravelWalk P := W.ride.toTravelWalk

/-! ### Calm changes of the table -/

/-- A change of entries that leaves their tags and the states of their junctions. -/
def Quiet (f : Entry → Entry) : Prop := ∀ e, (f e).tag = e.tag ∧ (f e).junctionState = e.junctionState

theorem RouteEngine.Calm.map {a b : RouteEngine} {f : Entry → Entry} (quiet : Quiet f) (table : b.table = a.table.map f)
    (tags : (a.table.map (·.tag)).Nodup) : a.Calm b where
  tags := by rw [table, List.map_map]; exact (List.map_congr_left fun e _ => (quiet e).1) ▸ tags
  states := fun st _ => by
    rw [table, List.map_map, show a.table.map (Entry.junctionState ∘ f) = a.table.map Entry.junctionState from
      List.map_congr_left fun e _ => (quiet e).2]

theorem quiet_mapEntry {f : Entry → Entry} (quiet : Quiet f) (tag : Nat) :
    Quiet fun e => if e.tag = tag then f e else e := fun e => by
  dsimp only
  split
  · exact quiet e
  · exact ⟨rfl, rfl⟩

theorem RouteEngine.Calm.filter {a b : RouteEngine} {p : Entry → Bool}
    (quiet : ∀ e ∈ a.table, p e = false → ∀ st : JunctionState, st.Alarming → e.junctionState ≠ some st)
    (table : b.table = a.table.filter p) (tags : (a.table.map (·.tag)).Nodup) : a.Calm b where
  tags := by rw [table]; exact tags.sublist (List.filter_sublist.map _)
  states := fun st alarming => by
    rw [table, List.mem_map, List.mem_map]
    refine exists_congr fun e => and_congr_left fun state => ?_
    rw [List.mem_filter, and_iff_left_iff_imp]
    intro mem
    by_contra gone
    exact quiet e mem (by simpa using gone) st alarming state

theorem quiet_onSignal (f : SignalEntry → SignalEntry) : Quiet (Entry.onSignal f) := fun e =>
  ⟨by unfold Entry.onSignal; split <;> rfl, onSignal_junctionState f e⟩

theorem quiet_onStop (f : StopEntry → StopEntry) : Quiet (Entry.onStop f) := fun e =>
  ⟨by unfold Entry.onStop; split <;> rfl, onStop_junctionState f e⟩

theorem quiet_onRestriction (f : RestrictionEntry → RestrictionEntry) : Quiet (Entry.onRestriction f) := fun e =>
  ⟨by unfold Entry.onRestriction; split <;> rfl, onRestriction_junctionState f e⟩

theorem quiet_onJunction {f : JunctionEntry → JunctionEntry} (keeps : ∀ j, (f j).state = j.state) : Quiet (Entry.onJunction f) :=
  fun e => by
    cases e with
    | mk tag crossed body =>
      cases body with
      | junction j => exact ⟨rfl, congrArg some (keeps j)⟩
      | _ => exact ⟨rfl, rfl⟩

theorem quiet_crossed : Quiet fun e => { e with crossed := e.crossed + 1 } := fun _ => ⟨rfl, rfl⟩

theorem quiet_clearRestriction (l d : Nat) : Quiet (clearRestriction l d) := fun e =>
  ⟨clearRestriction_tag l d e, clearRestriction_junctionState l d e⟩

theorem changeEntry_travel (W : TravelWalk P) {tag f} (quiet : Quiet f) (h : At P s) : At P (changeEntry tag f s) :=
  W.route (.map (quiet_mapEntry quiet tag) rfl) h

/-! ### The route engine -/

theorem judgeInhibit_travel (W : TravelWalk P) (h : At P s) : At P (judgeInhibit s) :=
  W.still (ite_at (c := overPoints s = true) (fun _ => W.sand h) fun _ => h)

theorem ceiling_travel (W : TravelWalk P) (h : At P s) : At P (judgeInhibit (formCeiling s)) := judgeInhibit_travel W (W.still h)

theorem settleRoute_travel (W : TravelWalk P) (h : At P s) : At P (settleRoute s) :=
  ceiling_travel W (W.route (.filter (fun e _ gone st alarming state => by
    obtain ⟨a, b, c⟩ := retires_junctionState (by simpa using gone) state
    rcases alarming with e | e | e <;> contradiction) rfl) h)

theorem settleAfter_travel (W : TravelWalk P) {l} (h : At P s) : At P (settleAfter l s) :=
  ite_at (fun _ => h) fun _ => settleRoute_travel W h

theorem refreshSetLength_travel (W : TravelWalk P) (h : At P s) : At P (refreshSetLength s) :=
  ite_at (fun _ => h) fun _ => settleAfter_travel W (W.route (.map (quiet_clearRestriction _ _) rfl) h)

theorem endRoute_travel (W : TravelWalk P) (h : At P s) : At P (endRoute s) :=
  settleRoute_travel W (W.route (.map (quiet_clearRestriction _ _) rfl) h)

/-! ### The junction unit -/

theorem onSlot_travel (W : TravelWalk P) {i f} (h : At P s) : At P (onSlot i f s) := W.still h

theorem takeUpRoute_travel (W : TravelWalk P) {old} (h : At P s) : At P (takeUpRoute old s) := by
  have turned : At P (if Requester.all.all fun r => old.value (Setting.classOf r) == s.cfg (Setting.classOf r) then s
      else s.setJunction { s.junction with rotation := keptRotation s.settings s.junction.rotation }) :=
    ite_at (fun _ => h) fun _ => W.still h
  exact ite_at (fun _ => turned) fun _ => refreshSetLength_travel W turned

theorem judgeRoute_travel (W : TravelWalk P) (h : At P s) : At P (judgeRoute s) := takeUpRoute_travel W (W.lock h)

theorem beginTurn_travel (W : TravelWalk P) {r} (h : At P s) : At P (beginTurn r s) := by
  unfold beginTurn; split
  · exact h
  next t entry _ =>
    have withdrawn : At P (match r.slot? with
      | some i => onSlot i (fun x => { x with waiting := false }) s
      | none => s) := by
      split
      · exact onSlot_travel W h
      · exact h
    dsimp only
    split
    · exact W.junction (changeEntry_travel W (quiet_onJunction fun _ => rfl) withdrawn)
    · exact W.junction withdrawn

theorem tryGrant_travel (W : TravelWalk P) (h : At P s) : At P (tryGrant s) := by
  unfold tryGrant; split
  · split
    · exact beginTurn_travel W (W.still h)
    · split
      · exact beginTurn_travel W (W.still h)
      · exact h
  · exact h

theorem endTurn_travel (W : TravelWalk P) (h : At P s) : At P (endTurn s) := tryGrant_travel W (W.still h)

theorem startAsking_travel (W : TravelWalk P) {i} (h : At P s) : At P (startAsking i s) :=
  tryGrant_travel W (onSlot_travel W (onSlot_travel W h))

theorem startAskingFor_travel (W : TravelWalk P) {tag} (h : At P s) : At P (startAskingFor tag s) := by
  unfold startAskingFor; split
  · exact startAsking_travel W h
  · exact h

theorem stopAskingFor_travel (W : TravelWalk P) {tag} (h : At P s) : At P (stopAskingFor tag s) := by
  unfold stopAskingFor; split
  · exact onSlot_travel W h
  · exact h

theorem takeSlot_travel (W : TravelWalk P) {tag} (h : At P s) : At P (takeSlot tag s) := by
  unfold takeSlot; split
  · exact h
  · split
    · split
      · exact h
      · exact ite_at (fun _ => startAsking_travel W (onSlot_travel W h)) fun _ => onSlot_travel W h
    · exact h

theorem serveWaiting_travel (W : TravelWalk P) (h : At P s) : At P (serveWaiting s) :=
  foldl_at (fun _ h => takeSlot_travel W h) _ h

theorem vacate_travel (W : TravelWalk P) {tag x} (h : At P s) : At P (vacate tag x s) := by
  unfold vacate; split
  · exact W.junction (onSlot_travel W h)
  · exact h

theorem judgeWarning_ride (W : RideWalk P) {b} (h : At P s) : At P (judgeWarning b s) :=
  ite_at (fun _ => W.silence h) fun _ => h

theorem onJunction_tag (f : JunctionEntry → JunctionEntry) (e : Entry) : (e.onJunction f).tag = e.tag := by
  unfold Entry.onJunction; split <;> rfl

/-- An entry may enter any state, for the causes are judged with it (R61). -/
theorem enterJunction_ride (W : RideWalk P) {tag st} (h : At P s) : At P (enterJunction tag st s) :=
  judgeWarning_ride W (W.judged (fun tags => by
    rw [show _ = (s.route.table.map (·.tag)) from mapEntry_tags tag s.route.table (onJunction_tag _)]; exact tags) h)

theorem crossJunction_ride (W : RideWalk P) {tag m j} (h : At P s) : At P (crossJunction tag m j s) := by
  have T := W.toTravelWalk
  unfold crossJunction; split
  · exact ite_at (fun _ => W.still (judgeRoute_travel T (takeSlot_travel T (enterJunction_ride W h)))) fun _ => h
  · exact ite_at (fun _ => W.still (W.ask (p := 1) (by decide) (enterJunction_ride W h))) fun _ => h
  · exact ite_at (fun _ => W.still (enterJunction_ride W (stopAskingFor_travel T h))) fun _ => h
  · exact ite_at (fun _ => judgeRoute_travel T (serveWaiting_travel T (vacate_travel T (enterJunction_ride W h)))) fun _ => h
  · exact h

theorem offerSignal_travel (W : TravelWalk P) {item} (h : At P s) : At P (offerSignal item s) := by
  unfold offerSignal; dsimp only
  exact ite_at (fun _ => h) fun _ => ite_at (fun _ => tryGrant_travel W (W.still h)) fun _ =>
    ite_at (fun _ => tryGrant_travel W (W.still h)) fun _ => ite_at (fun _ => W.still h) fun _ => h

theorem crossSignal_travel (W : TravelWalk P) {tag m g} (h : At P s) : At P (crossSignal tag m g s) := by
  have changed : ∀ f, At P (changeEntry tag (Entry.onSignal f) s) := fun f => changeEntry_travel W (quiet_onSignal f) h
  unfold crossSignal; split
  · exact ite_at (fun _ => judgeRoute_travel W (offerSignal_travel W (changed _))) fun _ => h
  · exact ite_at (fun _ => judgeRoute_travel W (offerSignal_travel W (ite_at (fun _ => W.still (changed _)) fun _ => changed _)))
      fun _ => h
  · exact h

/-! ### Stops and the sweep -/

theorem enterStop_travel (W : TravelWalk P) {tag st} (h : At P s) : At P (enterStop tag st s) := changeEntry_travel W (quiet_onStop _) h

theorem crossPass_travel (W : TravelWalk P) {tag p} (h : At P s) : At P (crossPass tag p s) :=
  ite_at (fun _ => ite_at (fun _ => W.still (enterStop_travel W h)) fun _ => enterStop_travel W h) fun _ => h

theorem crossStop_travel (W : TravelWalk P) {tag m p} (h : At P s) : At P (crossStop tag m p s) := by
  unfold crossStop; split
  · exact ite_at (fun _ => ite_at (fun _ => enterStop_travel W h) fun _ => W.ask (p := 3) (by decide) (enterStop_travel W h)) fun _ => h
  · exact crossPass_travel W h
  · exact h

theorem bumpCrossed_travel (W : TravelWalk P) {tag} (h : At P s) : At P (bumpCrossed tag s) := changeEntry_travel W quiet_crossed h

theorem crossMark_ride (W : RideWalk P) {e} (h : At P s) : At P (crossMark e s) := by
  have T := W.toTravelWalk
  have counted := bumpCrossed_travel T (tag := e.tag) h
  unfold crossMark; dsimp only; split
  · exact crossJunction_ride W counted
  · exact crossSignal_travel T counted
  · exact crossStop_travel T counted
  · exact changeEntry_travel T (quiet_onRestriction _) counted

theorem sweepMarks_ride (W : RideWalk P) (n : Nat) (h : At P s) : At P (sweepMarks n s) := by
  induction n generalizing s with
  | zero => exact h
  | succ n ih =>
    unfold sweepMarks; split
    · exact ih (crossMark_ride W h)
    · exact h

theorem moveTo_ride (W : RideWalk P) {d x} (h : At P s) : At P (moveTo d x s) :=
  ite_at (fun _ => sweepMarks_ride W _ (W.still h)) fun _ => W.still h

theorem routeSample_ride (W : RideWalk P) (h : At P s) : At P (routeSample s) :=
  endRoute_travel W.toTravelWalk (ite_at (fun _ => moveTo_ride W h) fun _ => h)

theorem serveEntry_travel (W : TravelWalk P) {e} (h : At P s) : At P (serveEntry s e) := by
  unfold serveEntry; split
  · exact ite_at (fun _ => W.still (enterStop_travel W h)) fun _ => h
  · exact h

theorem serveStops_travel (W : TravelWalk P) (h : At P s) : At P (serveStops s) :=
  ite_at (fun _ => settleAfter_travel W (foldl_at (fun _ h => serveEntry_travel W h) _ h)) fun _ => h

theorem sweepPassPoints_travel (W : TravelWalk P) (n : Nat) (h : At P s) : At P (sweepPassPoints n s) := by
  induction n generalizing s with
  | zero => exact h
  | succ n ih =>
    unfold sweepPassPoints; split
    · exact ih (crossPass_travel W (bumpCrossed_travel W h))
    · exact h

theorem takeUpStops_travel (W : TravelWalk P) {old} (h : At P s) : At P (takeUpStops old s) :=
  ite_at (fun _ => h) fun _ => settleAfter_travel W (sweepPassPoints_travel W _ h)

theorem judgeStops_travel (W : TravelWalk P) (h : At P s) : At P (judgeStops s) := takeUpStops_travel W (W.lock h)

theorem clearStopLatch_lawful (W : LawWalk P) (h : At P s) : At P (clearStopLatch s) :=
  ite_at (fun _ => judgeStops_travel W.travel (W.still h)) fun _ => h

theorem announceEntry_lawful (W : LawWalk P) {e} (h : At P s) : At P (announceEntry s e) := by
  unfold announceEntry; split
  · exact ite_at (fun _ => askFor_event W.tone (enterStop_travel W.travel h)) fun _ => h
  · exact h

theorem trigger_lawful (W : LawWalk P) {x a} (h : At P s) : At P (trigger x a s) := by
  refine ite_at (fun _ => h) fun _ => ?_
  split
  · exact judgeStops_travel W.travel (foldl_at (fun _ h => announceEntry_lawful W h) _ (W.raise (askFor_event W.tone (W.stop h))))
  · exact ite_at (fun _ => askFor_event W.tone (W.still h)) fun _ => W.still h

theorem visitChannel_lawful (W : LawWalk P) {st l i} (h : At P s) : At P (visitChannel st l s i) := by
  unfold visitChannel; split
  · exact h
  · exact h
  · dsimp only
    have noted : ∀ {u} {b : Prop} [Decidable b] {k j v}, At P u → At P (if b then raise k j v u else u) :=
      fun h => ite_at (fun _ => W.still h) fun _ => h
    exact noted (ite_at (fun _ => trigger_lawful W (noted (W.still h))) fun _ => noted (W.still h))

theorem judgeScanMode_lawful (W : LawWalk P) {st} (h : At P s) : At P (judgeScanMode st s) :=
  ite_at (fun _ => W.stop h) fun _ => ite_at (fun _ => W.stop h) fun _ => W.stop h

theorem scanButtons_lawful (W : LawWalk P) {l} (h : At P s) : At P (scanButtons l s) :=
  judgeScanMode_lawful W (foldl_at (fun _ h => visitChannel_lawful W h) _ (W.stop h))

end Sys2Proof.Machine
end

section
/-! The commands and the requests, carried by a lawful walk. -/

namespace Sys2Proof.Machine

variable {P : State → Prop} {s u : State}

/-- The lawful walk with the role and the monitor's own steps. -/
structure LawStep (P : State → Prop) : Prop extends LawWalk P where
  watch : ∀ {s v}, s.vigilance.state.Timed → v.state.Timed → At P s → At P (s.setVigilance v)
  role : ∀ {s r c}, At P s → At P (changeRole r c s)
  trip : ∀ {s}, s.vigilance.state.Timed → At P s → At P (enterTripped s)
  clear : ∀ {s}, s.vigilance.state = .tripped → At P s → At P (vigilPressed s)

theorem LawWalk.host (W : LawWalk P) {x} (h : At P s) : At P (s.setHost x) := W.still h

theorem LawWalk.axle (W : LawWalk P) {x} (flag : x.standstill = s.axle.standstill := by rfl) (h : At P s) : At P (s.setAxle x) :=
  W.still h (axle := flag)

theorem LawWalk.outer (W : LawWalk P) : OuterWalk P := ⟨fun h => W.still h, fun h => W.still h⟩

theorem sampleRole_lawful (W : LawStep P) (h : At P s) : At P (sampleRole s) := ite_at (fun _ => h) fun _ => W.role h

/-! ### The axle unit, the doors, the pass -/

theorem TravelWalk.axle (W : TravelWalk P) {x} (flag : x.standstill = s.axle.standstill := by rfl) (h : At P s) : At P (s.setAxle x) :=
  W.still h (axle := flag)

theorem onChannel_travel (W : TravelWalk P) {i f} (h : At P s) : At P (onChannel i f s) := W.axle (by simp) h

theorem suspectSlower_travel (W : TravelWalk P) (h : At P s) : At P (suspectSlower s) :=
  W.raise (W.axle (by rfl) (onChannel_travel W h))

theorem takeEdge_lawful (W : LawWalk P) {i a b} (h : At P s) : At P (takeEdge i a b s) := by
  have erred : ∀ {u f}, At P u → At P (onChannel i f u) := onChannel_travel W.travel
  exact ite_at (fun _ => ite_at (fun _ => W.raise (erred (erred (erred h)))) fun _ => erred (erred h)) fun _ => erred h

theorem resetChannel_lawful (W : LawWalk P) {i} (h : At P s) : At P (resetChannel i s) := by
  have serviced := onChannel_travel W.travel (i := i) (f := AxleChannel.serviced) h
  unfold resetChannel; dsimp only; split
  · exact serviced
  · exact serviced
  · exact W.axle (by rfl) serviced
  · exact W.axle (by rfl) serviced

theorem reportSource_travel (W : TravelWalk P) {b a v} (h : At P s) : At P (reportSource b a v s) := by
  have own : ∀ c ∈ [Cause.referenceLost], c.Own := by simp [Cause.Own]
  have degraded : At P (if a.isDegraded && !b.isDegraded then raise 11 a.motor v s else s) :=
    ite_at (fun _ => W.raise h) fun _ => h
  exact ite_at (fun _ => W.add own (W.raise degraded)) fun _ => ite_at (fun _ => W.remove own degraded) fun _ => degraded

theorem raiseAdhesionFault_lawful (W : LawWalk P) {st i x} (h : At P s) : At P (raiseAdhesionFault st i x s) := by
  unfold raiseAdhesionFault; split
  · exact W.still h
  · exact W.still h

/-- A pass may release the latch; of the causes it judges DEMAND LOST and ROLLBACK (R32, R37, R67). -/
theorem LawWalk.pass (W : LawWalk P) (release : ∀ {s}, s.halt.causes.any = false → s.halt.latch.isSome = true → At P s →
    At P ((s.setHalt { s.halt with latch := none, ackRun := none }).setTraction { s.traction with state := .inhibited })) :
    PassWalk P where
  toToneWalk := W.tone
  raise := fun _ _ h => W.raise h
  start := fun _ h => W.still h
  ack := fun {s _} h => W.plain (s := s) rfl rfl rfl rfl rfl rfl h
  release := release
  pulse := fun h => W.still h
  read := fun h => W.still h
  lose := fun h => W.add (by simp [Cause.Own]) h
  remove := fun h => W.remove (by simp [Cause.Own]) h
  roll := fun h => W.add (by simp [Cause.Own]) h
  overspeed := fun h => by rw [judgeOverspeed_eq]; exact W.still h
  effort := fun h => W.still h
  effortHeld := fun h => W.lock (W.still h)
  adhesion := fun h => W.still h
  free := fun h => W.still h
  outputs := fun h => W.still h
  drives := fun h => W.still h
  stamp := fun h => W.still h
  leave := fun _ _ h => W.still h
  spend := fun h => W.still h
  limits := fun h => W.still h
  turn := fun h => W.still h
  sense := fun h => W.still h
  inhibit := W.travel.inhibit
  refuse := fun h => W.raise h

/-! ### Halts and the monitor -/

theorem vigilPressed_lawful (W : LawStep P) (h : At P s) : At P (vigilPressed s) := by
  have held : VigilState.held.Timed := by simp [VigilState.Timed]
  have silenced : s.vigilance.state.Timed → At P (enterHeld (silencePattern 4 s)) := fun timed =>
    W.watch (by simpa using timed) held (silencePattern_event W.tone h)
  cases state : s.vigilance.state with
  | off => rw [vigilPressed_same (.inl state)]; exact h
  | held => rw [vigilPressed_same (.inr state)]; exact h
  | released => unfold vigilPressed; rw [state]; exact W.watch (by simp [state, VigilState.Timed]) held h
  | warnReleased => unfold vigilPressed; rw [state]; exact silenced (by simp [state, VigilState.Timed])
  | warnHeld => unfold vigilPressed; rw [state]; exact silenced (by simp [state, VigilState.Timed])
  | tripped => exact W.clear state h

/-- The expiry of the monitor's timer finds the monitor in the state that runs it (R68). -/
theorem vigilExpiry_lawful (W : LawWalk P) {monitor : VigilState} {f : State → State}
    (taken : ∀ {u}, u.vigilance.state = monitor → At P u → At P (f u)) (h : At P s) : At P (atExpiry (vigilExpiry monitor s) f s) := by
  unfold atExpiry vigilExpiry
  split
  · exact h
  next due =>
    split at due
    next own => exact taken own (W.still h)
    · cases due

theorem enterWarn_lawful (W : LawStep P) {monitor : VigilState} {timer : Option Nat} {j : Nat} (before : s.vigilance.state.Timed)
    (after : monitor.Timed) (h : At P s) : At P (raise 22 j s.axle.refSpeed (askFor 4 (vigilTo monitor timer s))) :=
  W.toLawWalk.raise (askFor_event W.toLawWalk.tone (W.watch before after h))

theorem judgeWindow_lawful (W : LawStep P) (h : At P s) : At P (judgeWindow s) := by
  unfold judgeWindow; split
  · refine ite_at (fun _ => h) fun _ => ite_at (fun _ => ite_at (fun _ => ?_) fun _ => W.still h) fun _ => W.still h
    have changed : At P (changeRole .conflict s.lines.coupled s) := W.role h
    exact W.raise (W.still changed)
  · exact h

theorem senseLine_lawful (W : LawWalk P) (h : At P s) : At P (senseLine s) :=
  ite_at (fun _ => h) fun _ => ite_at (fun _ => W.sense (W.still h)) fun _ => W.sense h

theorem startPulse_lawful (W : LawWalk P) (h : At P s) : At P (startPulse s) := by
  have delivered : At P (deliverStart s) := ite_at (fun _ => W.still h) fun _ => h
  exact ite_at (fun _ => delivered) fun _ => W.still delivered

/-! ### The junction unit's commands -/

theorem cancelSent_lawful (W : LawWalk P) (h : At P s) : At P (cancelSent s) := by
  unfold cancelSent; split
  · exact h
  · exact judgeRoute_travel W.travel (serveWaiting_travel W.travel (W.junction (W.junction h)))

theorem endAirtime_lawful (W : LawWalk P) {x} (h : At P s) : At P (endAirtime x s) := by
  have ended : At P (airtimeEnded x.holder s) := by
    unfold airtimeEnded; split
    · exact cancelSent_lawful W h
    · exact W.junction h
    · exact h
  exact ite_at (fun _ => W.junction ended) fun _ => endTurn_travel W.travel ended

theorem judgeTurn_lawful (W : LawWalk P) {x} (h : At P s) : At P (judgeTurn x s) := by
  unfold judgeTurn; split
  · exact h
  · split
    · exact h
    · have told : ∀ {tag n}, At P (changeEntry tag (Entry.onJunction fun j => { j with unanswered := n }) s) :=
        changeEntry_travel W.travel (quiet_onJunction fun _ => rfl) h
      exact ite_at (fun _ => ite_at (fun _ => W.raise told) fun _ => told) fun _ => h

theorem askAgain_lawful (W : LawWalk P) {x} (h : At P s) : At P (askAgain x s) := by
  unfold askAgain; split
  · exact ite_at (fun _ => onSlot_travel W.travel h) fun _ => h
  · exact h

theorem recordAnswer_lawful (W : LawWalk P) {tag a} (h : At P s) : At P (recordAnswer tag a s) :=
  W.junction (changeEntry_travel W.travel (quiet_onJunction fun _ => rfl) h)

theorem positionFix_lawful (W : LawWalk P) {tag} (h : At P s) : At P (positionFix tag s) := by
  unfold positionFix; split
  · exact h
  · exact ite_at (fun _ => endRoute_travel W.travel (moveTo_ride W.ride h)) fun _ => W.raise h

theorem formCeiling_lawful (W : LawWalk P) (h : At P s) : At P (formCeiling s) := W.still h

theorem answerAsking_lawful (W : LawWalk P) {tag j a} (h : At P s) : At P (answerAsking tag j a s) := by
  have stopped : ∀ {st}, At P (formCeiling (enterJunction tag st (stopAskingFor tag s))) :=
    formCeiling_lawful W (enterJunction_ride W.ride (stopAskingFor_travel W.travel h))
  unfold answerAsking; split
  · exact ite_at (fun _ => positionFix_lawful W (W.raise stopped)) fun _ => h
  · exact h
  · exact W.raise stopped

theorem loseLock_lawful (W : LawWalk P) {tag n} (h : At P s) : At P (loseLock tag n s) := by
  have entered : ∀ {st}, At P (enterJunction tag st s) := enterJunction_ride W.ride h
  have asked : ∀ {u}, At P u → At P (formCeiling (startAskingFor tag u)) := fun h =>
    formCeiling_lawful W (startAskingFor_travel W.travel h)
  exact ite_at (fun _ => W.raise (asked entered)) fun _ =>
    ite_at (fun _ => W.raise (asked (askFor_event W.tone entered))) fun _ => W.raise (formCeiling_lawful W entered)

theorem takeAnswer_lawful (W : LawWalk P) {e j a} (h : At P s) : At P (takeAnswer e j a s) := by
  have recorded : At P (recordAnswer e.tag a s) := recordAnswer_lawful W h
  unfold takeAnswer; split
  · exact answerAsking_lawful W recorded
  · exact answerAsking_lawful W recorded
  · exact ite_at (fun _ => recorded) fun _ => loseLock_lawful W recorded
  · exact h

theorem takeAck_lawful (W : LawWalk P) {n} (h : At P s) : At P (takeAck n s) := by
  have quiet : Quiet (acknowledgeSignal n) := quiet_onSignal _
  exact judgeRoute_travel W.travel (W.junction (W.route (.map quiet rfl) h))

/-- The table emptied, with what follows (R61, R83, R105): `u` differs from `s` in nothing else that the laws read. -/
theorem afterEmptying_lawful (W : LawWalk P) {l} (h : At P s) (empty : u.route.table = []) (halt : u.halt = s.halt := by rfl)
    (vigilance : u.vigilance = s.vigilance := by rfl) (lines : u.lines.role = s.lines.role := by rfl)
    (axle : u.axle.standstill = s.axle.standstill := by rfl) : At P (afterEmptying l u) := by
  have refilled : At P (u.setRoute s.route) := W.still h halt vigilance lines axle
  have judged : At P (judgeJunctionCauses ((u.setRoute s.route).setRoute u.route)) :=
    W.judged (fun _ => by rw [empty]; exact List.nodup_nil) refilled
  exact ceiling_travel W.travel (judgeRoute_travel W.travel (judgeWarning_ride W.ride judged))

/-! ### Requests -/

theorem takeUp_lawful (W : LawWalk P) {g old} (h : At P s) : At P (takeUp g old s) := by
  cases g with
  | g3 => exact takeUpRoute_travel W.travel h
  | g4 => exact takeUpStops_travel W.travel h
  | g6 => exact ite_at (fun _ => h) fun _ => W.drive h
  | _ => exact h

theorem setFreeze_lawful (W : LawWalk P) {g b} (h : At P s) : At P (setFreeze g b s) := takeUp_lawful W (W.lock (W.still h))

theorem doSet_lawful (W : LawWalk P) {n v} (h : At P s) : At P (doSet n v s).1 := by
  unfold doSet; split
  · exact h
  · split
    · exact ite_at (fun _ => W.still h) fun _ => takeUp_lawful W (W.still h)
    · exact h

theorem freezes_lawful (W : LawWalk P) {g} (h : At P s) : At P (doFreeze g s).1 ∧ At P (doThaw g s).1 := by
  unfold doFreeze doThaw; split
  · exact ⟨h, h⟩
  · exact ⟨setFreeze_lawful W h, setFreeze_lawful W h⟩

theorem doRouteStart_lawful (W : LawWalk P) {o} (h : At P s) : At P (doRouteStart o s).1 :=
  refusing h (refusing h (refusing h (show At P (judgeInhibit (formCeiling _)) from
    ceiling_travel W.travel (W.still (u := s.setRoute { s.route with active := true, distance := o, residue := 0 }) h))))

theorem doRouteEnd_lawful (W : LawWalk P) (h : At P s) : At P (doRouteEnd s).1 :=
  refusing h (show At P (if s.route.active then endJourney s else s) from
    ite_at (fun _ => afterEmptying_lawful W h rfl) fun _ => h)

/-- An entry offered is in the first state of its kind (R90). -/
theorem bodyOf_calm {r : EntryRecord} {tag crossed : Nat} {body : EntryBody} (h : bodyOf r = some body) {st : JunctionState}
    (alarming : st.Alarming) : (⟨tag, crossed, body⟩ : Entry).junctionState ≠ some st := by
  unfold bodyOf at h
  split at h
  · cases h
  · split at h
    · split at h
      · cases h
      · split at h
        · cases h
        · cases h
          rcases alarming with rfl | rfl | rfl <;> simp [Entry.junctionState, Entry.junction?]
    · split at h <;> cases h
      nofun
    · split at h <;> cases h
      nofun
    · split at h <;> cases h
      nofun
    · cases h

theorem joinTable_lawful (W : LawWalk P) {e : Entry} (fresh : (findEntry e.tag s.route.table).isSome = false)
    (calm : ∀ st : JunctionState, st.Alarming → e.junctionState ≠ some st) (h : At P s) : At P (joinTable e s) := by
  refine ceiling_travel W.travel (W.route (fun tags => ⟨insertEntry_tags tags (findEntry_none fresh), fun st alarming => ?_⟩) h)
  rw [List.mem_map, List.mem_map]
  constructor
  · rintro ⟨x, mem, state⟩
    rcases mem_insertEntry.1 mem with rfl | mem
    · exact absurd state (calm st alarming)
    · exact ⟨x, mem, state⟩
  · rintro ⟨x, mem, state⟩
    exact ⟨x, mem_insertEntry.2 (.inr mem), state⟩

theorem doRouteInsert_lawful (W : LawWalk P) {r} (h : At P s) : At P (doRouteInsert r s).1 := by
  unfold doRouteInsert; split
  · exact h
  · split
    · exact h
    next body offered =>
      split
      · exact h
      · split
        · exact h
        next fresh =>
          exact refusing h (refusing h (refusing h (show At P (joinTable ⟨r.tag, 0, body⟩ s) from
            joinTable_lawful W (by simpa using fresh) (fun st alarming => bodyOf_calm offered alarming) h)))

theorem dropEntry_lawful (W : LawWalk P) {tag} {e : Entry} (found : findEntry tag s.route.table = some e)
    (calm : ∀ st : JunctionState, st.Alarming → e.junctionState ≠ some st) (h : At P s) : At P (dropEntry tag s) := by
  refine ceiling_travel W.travel (W.route (fun tags => .filter (fun x mem gone => ?_) rfl tags) h)
  obtain rfl : x.tag = tag := by simpa using gone
  obtain rfl : x = e := Option.some.inj ((findEntry_of_mem tags mem).symm.trans found)
  exact calm

/-- An entry in the first or a final state of its kind brings no cause (R61, R92). -/
theorem removable_calm {e : Entry} (removable : (e.body.isFirst || e.body.isFinal) = true) {st : JunctionState}
    (alarming : st.Alarming) : e.junctionState ≠ some st := by
  intro state
  obtain ⟨tag, crossed, body⟩ := e
  cases body with
  | junction j =>
    obtain rfl : j.state = st := Option.some.inj state
    rcases alarming with own | own | own <;> simp [EntryBody.isFirst, EntryBody.isFinal, own] at removable
  | _ => cases state

theorem doRouteRemove_lawful (W : LawWalk P) {tag} (h : At P s) : At P (doRouteRemove tag s).1 := by
  unfold doRouteRemove; split
  · exact h
  · split
    · exact h
    next e found =>
      split
      next removable => exact dropEntry_lawful W found (fun st alarming => removable_calm removable alarming) h
      · exact h

theorem cancelJunction_lawful (W : LawWalk P) {tag n j} (h : At P s) : At P (cancelJunction tag n j s) := by
  have hosted : At P (if 2 ≤ n then addCauses [.host] s else s) := ite_at (fun _ => W.add (by simp [Cause.Own]) h) fun _ => h
  have cancelled := enterJunction_ride W.ride (tag := tag) (st := .cancelled) (stopAskingFor_travel W.travel (tag := tag) hosted)
  refine settleRoute_travel W.travel (judgeRoute_travel W.travel ?_)
  unfold releaseSlot; split
  · exact cancelled
  · exact ite_at (fun _ => tryGrant_travel W.travel (W.junction (vacate_travel W.travel cancelled))) fun _ =>
      serveWaiting_travel W.travel (vacate_travel W.travel cancelled)

/-- The entry a request names, as the table holds it. -/
theorem namedJunction_found {tag : Nat} {e : Entry} {j : JunctionEntry} (named : namedJunction tag s = some (e, j)) :
    findEntry tag s.route.table = some e ∧ e.tag = tag ∧ e.junctionState = some j.state := by
  unfold namedJunction at named
  obtain ⟨x, found, own⟩ := Option.bind_eq_some_iff.1 named
  obtain ⟨k, junction, same⟩ := Option.map_eq_some_iff.1 own
  obtain ⟨rfl, rfl⟩ := Prod.mk.inj same
  exact ⟨found, by simpa using List.find?_some found, by unfold Entry.junctionState; rw [junction]; rfl⟩

theorem doJunctionCancel_lawful (W : LawWalk P) {tag} (h : At P s) : At P (doJunctionCancel tag s).1 := by
  unfold doJunctionCancel; split
  · exact h
  · split
    · exact h
    next e j named =>
      obtain ⟨found, rfl, state⟩ := namedJunction_found named
      have cancelled : At P (cancelJunction e.tag e.crossed j s) := cancelJunction_lawful W h
      unfold cancelEntry; split
      · exact h
      · split
        next pending =>
          refine dropEntry_lawful W found (fun st alarming own => ?_) h
          rw [state, pending] at own
          rcases alarming with rfl | rfl | rfl <;> cases own
        · exact h
        · exact cancelled
        · exact cancelled
        · exact cancelled
        · exact cancelled
        · exact h
        · exact h

theorem doJunctionRetry_lawful (W : LawWalk P) {tag} (h : At P s) : At P (doJunctionRetry tag s).1 := by
  unfold doJunctionRetry; split
  · exact h
  · split
    · exact h
    · refine refusing h ?_
      split
      · exact formCeiling_lawful W (startAskingFor_travel W.travel (enterJunction_ride W.ride
          (changeEntry_travel W.travel (quiet_onJunction fun _ => rfl) h)))
      · exact h

theorem masks_lawful (W : LawWalk P) {n} (h : At P s) : At P (doMask n s).1 ∧ At P (doUnmask n s).1 := by
  unfold doMask doUnmask; split
  · exact ⟨h, h⟩
  · exact ⟨W.junction h, tryGrant_travel W.travel (W.junction h)⟩

theorem doLoopReset_lawful (W : LawWalk P) (h : At P s) : At P (doLoopReset s).1 := by
  unfold doLoopReset; split
  · exact h
  · split
    · exact tryGrant_travel W.travel (W.junction h)
    · exact h

theorem doPlay_lawful (W : LawWalk P) {p} (h : At P s) : At P (doPlay p s).1 := by
  unfold doPlay; split
  · exact h
  · split
    · exact h
    · exact refusing h (requestPattern_event W.tone h)

theorem doSilence_lawful (W : LawWalk P) {p} (h : At P s) : At P (doSilence p s).1 := by
  unfold doSilence; split
  · exact judgeSound_event W.tone (W.still h)
  · exact refusing h (silencePattern_event W.tone h)

theorem doPatternLoad_lawful (W : LawWalk P) {r} (h : At P s) : At P (doPatternLoad r s).1 := by
  have replaced : ∀ p, At P (replacePattern r.number p s).1 := fun p => refusing h (show At P (s.setSound _) from W.still h)
  unfold doPatternLoad
  refine refusing h (refusing h ?_)
  split
  · exact replaced _
  · split
    · exact h
    · exact replaced _

theorem doAxleReset_lawful (W : LawWalk P) {i} (h : At P s) : At P (doAxleReset i s).1 := by
  unfold doAxleReset; split
  · exact h
  · split
    · dsimp only [taken]
      exact resetChannel_lawful W (resetChannel_lawful W (resetChannel_lawful W (resetChannel_lawful W h)))
    · split
      · exact h
      · exact resetChannel_lawful W h

theorem restartJourney_lawful (W : LawWalk P) (h : At P s) : At P (restartJourney s) :=
  W.stop (clearStopLatch_lawful W (afterEmptying_lawful W h rfl))

/-- P holds of the state a RESTART FULL taken in `s` leaves, whatever the link is (R179). -/
def Restarts (P : State → Prop) (s : State) : Prop :=
  s.axle.standstill = true → ¬(s.lines.role = .lead ∧ s.lines.coupled = true) → ∀ link, At P (restartFull (s.setHost link))

theorem doRestart_lawful (W : LawWalk P) {a} (full : a = 0 → Restarts P s) (h : At P s) : At P (doRestart a s).1 := by
  unfold doRestart; split
  · exact h
  · split
    · exact h
    next still =>
      split
      · exact restartJourney_lawful W h
      · split
        · exact h
        next other lead => exact full (by omega) (by simpa using still) lead s.host

/-- Every request keeps what a lawful walk keeps, RESTART FULL where the restart itself does. -/
theorem perform_lawful (W : LawWalk P) {r} (full : r = .restart 0 → Restarts P s) (h : At P s) : At P (perform r s).1 := by
  have own : ∀ c ∈ [Cause.host], c.Own := by simp [Cause.Own]
  cases r with
  | ident => exact h
  | status => exact h
  | events n => exact refusing h (W.host h)
  | set n v => exact doSet_lawful W h
  | get n => exact doGet_at h
  | freeze g => exact (freezes_lawful W h).1
  | thaw g => exact (freezes_lawful W h).2
  | routeStart o => exact doRouteStart_lawful W h
  | routeInsert e => exact doRouteInsert_lawful W h
  | routeRemove tag => exact doRouteRemove_lawful W h
  | routeRead i j => exact doRouteRead_at h
  | routeEnd => exact doRouteEnd_lawful W h
  | junctionCancel tag => exact doJunctionCancel_lawful W h
  | junctionRetry tag => exact doJunctionRetry_lawful W h
  | mask n => exact (masks_lawful W h).1
  | unmask n => exact (masks_lawful W h).2
  | loopReset => exact doLoopReset_lawful W h
  | halt => exact W.add own h
  | resume => exact W.remove own h
  | stopRequest a => exact refusing h (refusing h (trigger_lawful W h))
  | stopClear => exact clearStopLatch_lawful W h
  | play p => exact doPlay_lawful W h
  | silence p => exact doSilence_lawful W h
  | patternLoad p => exact doPatternLoad_lawful W h
  | axleRead c => exact doAxleRead_at h
  | axleReset c => exact doAxleReset_lawful W h
  | buttonRead i => exact doButtonRead_at h
  | restart a => exact doRestart_lawful W (fun zero => full (by rw [zero])) h
  | unknownKind k => exact h
  | badLength k => exact h

/-! ### The host link -/

/-- Some request of the queue is RESTART FULL. -/
def RestartWaits (s : State) : Prop := ∃ q ∈ s.host.queue, q.request = .restart 0

theorem pump_lawful (W : LawWalk P) (full : mayExecute s = true → RestartWaits s → Restarts P s) (h : At P s) : At P (pump s) := by
  unfold pump
  split
  next may =>
    unfold executeHead
    split
    · exact h
    next q rest queue => exact W.host (perform_lawful W (fun own => full may ⟨q, by rw [queue]; exact List.mem_cons_self, own⟩) h)
  · exact h

theorem submit_lawful (W : LawWalk P) {tag r} (full : r = .restart 0 ∨ mayExecute s = true ∧ RestartWaits s → Restarts P s)
    (h : At P s) : At P (submit tag r s) := by
  unfold submit
  split
  · refine pump_lawful W (fun may => ?_) (W.host h)
    rintro ⟨q, mem, own⟩
    rcases List.mem_append.1 mem with mem | mem
    · exact full (.inr ⟨may, q, mem, own⟩)
    · obtain rfl := List.mem_singleton.1 mem
      exact full (.inl own)
  · split
    · exact W.host h
    · exact W.host h
    · exact h

theorem lineFreed_lawful (W : LawWalk P) (full : RestartWaits s → Restarts P s) (h : At P s) : At P (lineFreed s) := by
  unfold lineFreed; split
  · exact W.host h
  · exact pump_lawful W (fun _ => full) h

theorem endReply_lawful (W : LawWalk P) (full : RestartWaits s → Restarts P s) (h : At P s) : At P (endReply s) := by
  unfold endReply; split
  · exact h
  · exact lineFreed_lawful W full (W.host h)
  · exact lineFreed_lawful W (fun ⟨q, mem, own⟩ => full ⟨q, List.mem_of_mem_tail mem, own⟩) (W.host h)

theorem hunt_lawful (W : LawWalk P) {b} (h : At P s) : At P (hunt b s) := ite_at (fun _ => W.host h) fun _ => h

theorem receive_lawful (W : LawWalk P) {b f} (full : RestartsFull (.byteReceived b f) s → Restarts P s) (h : At P s) :
    At P (receive b f s) := by
  unfold receive
  split
  · exact W.host h
  next whole =>
    split
    · exact hunt_lawful W h
    next bytes last receiver =>
      split
      · exact hunt_lawful W (W.host h)
      · refine ite_at (fun _ => W.host h) fun _ => ite_at (fun _ => ite_at (fun _ => submit_lawful W (fun restart => ?_) (W.host h))
          fun _ => W.host h) fun _ => W.host h
        rcases restart with own | waits
        · exact full (.inr (.inr ⟨b, bytes, last, by simp [whole], receiver, own⟩))
        · exact full (.inr (.inl ⟨.inr waits.1, waits.2⟩))

theorem abandonFrame_lawful (W : LawWalk P) (h : At P s) : At P (abandonFrame s) := by
  unfold abandonFrame; split
  · exact h
  · exact W.still h

/-- A row that is a request keeps what a lawful walk keeps. -/
theorem request_lawful (W : LawWalk P) {c : Instr} {tag : Nat} {r : HostRequest} (hc : c.request = some (tag, r))
    (full : RestartsFull c s → Restarts P s) (h : At P s) : Keeps P (exec c s) := by
  rw [exec_request hc]
  refine keeps_next (submit_lawful W (fun restart => full ?_) h)
  rcases restart with rfl | ⟨may, waits⟩
  · refine .inl ⟨tag, ?_⟩
    cases c <;> simp only [Instr.request, Option.some.injEq, Prod.mk.injEq, reduceCtorEq, and_false] at hc
    · rw [hc.1]
    · cases hc.2
  · exact .inr (.inl ⟨.inr may, waits⟩)

end Sys2Proof.Machine
end

section
/-! Every command but a sample, STANDSTILL_SET, a pass, HALT_RELEASED and POWER_UP keeps what a lawful step keeps. -/

namespace Sys2Proof.Machine

variable {P : State → Prop} {s : State}

/-- A command with a step of its own for each law: a sample, STANDSTILL_SET, a pass, HALT_RELEASED and POWER_UP. -/
def Lawgiving (c : Instr) : Prop :=
  c = .speedSample ∨ c = .standstillSet ∨ (∃ inputs, c = .controlPeriod inputs) ∨ c = .haltReleased ∨ c = .powerUp

theorem loseDemand_lawful (W : LawWalk P) (h : At P s) : At P (loseDemand s) :=
  W.raise (W.add (by simp [Cause.Own]) h)

theorem stepPlayer_lawful (W : LawWalk P) {c} (h : At P s) : At P (stepPlayer c s) := by
  unfold stepPlayer; split
  · split
    · exact enterStep_event W.tone h
    · exact leavePlayer_event W.tone h
  · exact h

theorem dropPress_lawful (W : LawWalk P) {i} (h : At P s) : At P (dropPress i s) := by
  unfold dropPress; split
  · exact h
  · exact W.raise (W.stop h)

theorem senseStopreq_lawful (W : LawWalk P) (h : At P s) : At P (senseStopreq s) :=
  ite_at (fun _ => h) fun _ => ite_at (fun _ => trigger_lawful W (W.stop h)) fun _ => W.stop h

theorem pressed_lawful (W : LawWalk P) {c p u} (h : At P s) : At P ((driverTakes c p s).setSound u) := by
  have note : ∀ {u x}, At P u → At P (u.setSound x) := fun h => W.still h
  refine note (judgeSound_event W.tone (note ?_))
  split
  · exact W.raise h
  · exact h

theorem enterLoopFault_lawful (W : LawWalk P) (h : At P s) : At P (enterLoopFault s) := W.raise (W.junction h)

theorem endWindow_lawful (W : LawStep P) {n} (h : At P s) : At P (endWindow n s) := by
  have measured : At P (judgeWindow (s.setLines { s.lines with demandU := dutyMeasured n })) := judgeWindow_lawful W (W.still h)
  exact W.still measured

theorem exec_lawful (W : LawStep P) (c : Instr) (special : Lawgiving c → Keeps P (exec c s))
    (full : RestartsFull c s → Restarts P s) (h : At P s) : Keeps P (exec c s) := by
  have L := W.toLawWalk
  have O := L.outer
  have pins : ∀ {u x}, At P u → At P (u.setPins x) := fun h => L.still h
  cases c
  case powerUp => exact special (.inr (.inr (.inr (.inr rfl))))
  case encoderEdge => exact keeps_next (ite_at (fun _ => h) fun _ => takeEdge_lawful L h)
  case phaseErrorWindowExpiry => exact keeps_next (atExpiry_at O (fun h => onChannel_travel L.travel h) h)
  case speedSample => exact special (.inl rfl)
  case axleSuspect => exact keeps_next (atExpiry_at O (fun h => L.still (suspectSlower_travel L.travel h)) h)
  case agreementRunComplete => exact keeps_next (atExpiry_at O (fun h => onChannel_travel L.travel h) h)
  case standstillSet => exact special (.inr (.inl rfl))
  case controlPeriod inputs => exact special (.inr (.inr (.inl ⟨inputs, rfl⟩)))
  case directionSettleExpiry => exact keeps_next (atExpiry_at O (fun h => L.still h) h)
  case handleHoldExpiry => exact keeps_next (atExpiry_at O (fun h => L.still h) h)
  case handleFault => exact keeps_next (ite_at (fun _ => h) fun _ => atExpiry_at O (fun h => L.raise (L.still h)) h)
  case demandLost => exact keeps_next (atExpiry_at O (fun h => loseDemand_lawful L h) h)
  case adhesionFault i => exact keeps_next (atExpiry_at O (fun h => raiseAdhesionFault_lawful L h) h)
  case sandRunExpiry => exact keeps_next (atExpiry_at O (fun h => L.still h) h)
  case sandRestExpiry => exact keeps_next (atExpiry_at O (fun h => L.still h) h)
  case doorReleaseAsserted =>
    exact keeps_next (ite_at (fun _ => h) fun _ => clearStopLatch_lawful L (serveStops_travel L.travel (L.travel.inhibit (pins h))))
  case doorReleaseReleased => exact keeps_next (pins h)
  case haltReleased => exact special (.inr (.inr (.inr (.inl rfl))))
  case vigilPress => exact keeps_next (ite_at (fun _ => h) fun _ => vigilPressed_lawful W (pins h))
  case vigilRelease =>
    refine keeps_next (ite_at (fun _ => ?_) fun _ => h)
    exact ite_at (fun held => W.watch (by rw [held]; simp [VigilState.Timed]) (by simp [VigilState.Timed]) (pins h)) fun _ => pins h
  case holdLimitExpiry =>
    exact keeps_next (vigilExpiry_lawful L (fun own h => enterWarn_lawful W (by simp [own, VigilState.Timed])
      (by simp [VigilState.Timed]) h) h)
  case graceExpiry =>
    exact keeps_next (vigilExpiry_lawful L (fun own h => enterWarn_lawful W (by simp [own, VigilState.Timed])
      (by simp [VigilState.Timed]) h) h)
  case warnToHaltExpiry =>
    exact keeps_next (vigilExpiry_lawful L (fun own h => W.trip (by simp [own, VigilState.Timed]) h) h)
  case repressWindowExpiry =>
    exact keeps_next (vigilExpiry_lawful L (fun own h => W.trip (by simp [own, VigilState.Timed]) h) h)
  case roleInputChange => exact keeps_next (pins h)
  case demandWindowExpiry n => exact keeps_next (endWindow_lawful W (L.still h))
  case haltLineChange => exact keeps_next (ite_at (fun _ => h) fun _ => senseLine_lawful L (pins h))
  case startEmissionExpiry => exact keeps_next (atExpiry_at O (fun h => L.still h) h)
  case startEdge => exact keeps_next (ite_at (fun _ => startPulse_lawful L h) fun _ => h)
  case startRetentionExpiry => exact keeps_next (atExpiry_at O (fun h => L.still h) h)
  case loopOkReleased =>
    exact keeps_next (ite_at (fun _ => h) fun _ => ite_at (fun _ => enterLoopFault_lawful L (pins h)) fun _ => pins h)
  case telegramAirtimeEnd =>
    refine keeps_next ?_
    split
    · exact endAirtime_lawful L (L.still h)
    · exact h
  case answerWindowExpiry =>
    refine keeps_next ?_
    split
    · exact endTurn_travel L.travel (askAgain_lawful L (judgeTurn_lawful L (L.still h)))
    · exact h
  case slotRepeatExpiry =>
    exact keeps_next (atExpiry_at O (fun h => ite_at (fun _ => startAsking_travel L.travel h) fun _ => onSlot_travel L.travel h) h)
  case signalRepeatExpiry tag =>
    refine keeps_next ?_
    split
    · exact h
    · exact ite_at (fun _ => atExpiry_at O
        (fun h => offerSignal_travel L.travel (changeEntry_travel L.travel (quiet_onSignal _) h)) h) fun _ => h
  case pointAnswer =>
    refine keeps_next (ite_at (fun _ => ?_) fun _ => h)
    split
    · exact h
    · split
      · exact h
      · exact takeAnswer_lawful L h
  case priorityAck =>
    refine keeps_next (ite_at (fun _ => ?_) fun _ => h)
    split
    · exact h
    · exact takeAck_lawful L h
  case scan =>
    unfold exec execScan; dsimp only; split
    · exact keeps_next (scanButtons_lawful L (L.still h))
    · intro t e; cases e
  case buttonStuck => exact keeps_next (atExpiry_at O (fun h => dropPress_lawful L h) h)
  case stopCancel => exact keeps_next (ite_at (fun _ => clearStopLatch_lawful L h) fun _ => h)
  case stopreqEdge => exact keeps_next (ite_at (fun _ => h) fun _ => senseStopreq_lawful L (pins h))
  case stepExpiry => exact keeps_next (atExpiry_at O (fun h => stepPlayer_lawful L h) h)
  case strikePulseExpiry => exact keeps_next (atExpiry_at O (fun h => L.still h) h)
  case bellPedalPress =>
    exact keeps_next (ite_at (fun _ => h) fun _ => ite_at (fun _ => strike_event L.tone (pressed_lawful L (pins h))) fun _ => pins h)
  case bellPedalRelease => exact keeps_next (releaseBell_event L.tone (pins h))
  case bellIntervalExpiry => exact keeps_next (atExpiry_at O (fun h => strike_event L.tone (L.still h)) h)
  case hornPress =>
    exact keeps_next (ite_at (fun _ => h) fun _ => ite_at (fun _ => pressed_lawful L (pins h)) fun _ => pins h)
  case hornRelease =>
    refine keeps_next ?_
    split
    · exact ite_at (fun _ => endHorn_event L.tone (pins h)) fun _ => L.still h
    · exact pins h
  case hornTailExpiry => exact keeps_next (atExpiry_at O (fun h => endHorn_event L.tone h) h)
  case byteReceived => exact keeps_next (receive_lawful L full h)
  case frameGapExpiry => exact keeps_next (abandonFrame_lawful L h)
  case replyEnd => exact keeps_next (endReply_lawful L (fun waits => full (.inr (.inl ⟨.inl rfl, waits⟩))) h)
  all_goals exact request_lawful L rfl full h

end Sys2Proof.Machine
end

section
/-! The role, the standstill flag and the resets, carried by a law of the tram; and so every step. -/

namespace Sys2Proof.Machine

variable {P : State → Prop} {s : State}

/-! ### The role -/

/-- The state a change of the role leaves before vigilance is judged (R68, R72). -/
def roleTaken (role : Role) (coupled : Bool) (s : State) : State :=
  let leftLead := if s.lines.role = .lead ∧ role ≠ .lead then leaveLead s else s
  let taken := (leftLead.setLines { leftLead.lines with role := role, coupled := coupled }).setHalt
    { leftLead.halt with ackRun := none }
  let leftTrail := if s.lines.role = .trail ∧ role ≠ .trail then leaveTrail taken else taken
  refreshSetLength (enterInhibited (if role = .trail ∧ s.lines.role ≠ .trail then enterTrail leftTrail else leftTrail))

theorem changeRole_taken (role : Role) (coupled : Bool) (s : State) :
    changeRole role coupled s = judgeVigilance (roleTaken role coupled s) := rfl

/-- What does not read the role outlives a change of it until vigilance is judged. -/
theorem roleTaken_travel (W : TravelWalk P) (lines : ∀ {s l}, At P s → At P (s.setLines l)) {r c} (h : At P s) :
    At P (roleTaken r c s) := by
  have stilled : ∀ {u x}, At P u → At P (u.setTraction x) := fun h => W.still h
  have left : At P (if s.lines.role = .lead ∧ r ≠ .lead then leaveLead s else s) :=
    ite_at (fun _ => W.controls (stilled (lines h))) fun _ => h
  have trailed : ∀ {u}, At P u → At P (leaveTrail u) := fun h =>
    tryGrant_travel W (W.remove (by simp [Cause.Own]) (stilled h))
  have entered : ∀ {u}, At P u → At P (enterTrail u) := fun {u} h => by
    unfold enterTrail; split
    · exact h
    · exact W.junction h
    · exact W.junction h
  have acked : ∀ {u x}, At P u → At P (u.setHalt { u.halt with ackRun := x }) := fun {u _} h =>
    W.plain (s := u) rfl rfl rfl rfl rfl rfl rfl h
  have taken := acked (x := none) (lines (l := { (if s.lines.role = .lead ∧ r ≠ .lead then leaveLead s else s).lines with
    role := r, coupled := c }) left)
  refine refreshSetLength_travel W (W.inhibit (ite_at (fun _ => entered ?_) fun _ => ?_))
  all_goals exact ite_at (fun _ => trailed taken) fun _ => taken

/-! ### The stages of a sample -/

theorem judgeAgreement_travel (W : TravelWalk P) {r} (h : At P s) : At P (judgeAgreement r s) := by
  have told : ∀ {i f}, At P (onChannel i f s) := onChannel_travel W h
  exact ite_at (fun _ => ite_at (fun _ => told) fun _ => told) fun _ => told

/-- The stages before the judgement of standstill (R5 to R12). -/
theorem agreed_travel (W : TravelWalk P) (h : At P s) : At P (agreed s) := by
  have channels : At P (sampleChannels s) := W.still h
  have disagreed : At P (formed s) :=
    ite_at (fun _ => ite_at (fun _ => suspectSlower_travel W channels) fun _ => W.still channels) fun _ => W.still channels
  have selected : At P (referenced s) := reportSource_travel W (W.still disagreed)
  exact judgeAgreement_travel W (judgeAgreement_travel W selected)

theorem judgeStandstillGroups_travel (W : TravelWalk P) (h : At P s) : At P (judgeStandstillGroups s) := by
  have locked : At P (judgeLock .g6 (!s.axle.standstill) (judgeLock .g1 (!s.axle.standstill) (judgeLock .g0 (!s.axle.standstill) s))) :=
    W.lock (W.lock (W.lock h))
  exact ite_at (fun _ => locked) fun _ => W.drive locked

/-! ### A law of the tram -/

/-- The state in which vigilance is judged at the event that clears the flag (R14, R64). -/
def flagCleared (s : State) : State :=
  let flagged := latchStopped false (s.setAxle { s.axle with standstill := false })
  flagged.setHalt { flagged.halt with ackRun := none }

theorem clearStandstill_flagCleared (s : State) : clearStandstill s = judgeStandstillGroups (judgeVigilance (flagCleared s)) := rfl

/-- The lawful step with the flag's own steps, the release of the latch and the reset of every block (R14, R66, R178, R179). -/
structure TramWalk (P : State → Prop) : Prop extends LawStep P where
  rest : ∀ {s}, At P s → At P (flagSet s)
  depart : ∀ {s}, At P s → At P (judgeVigilance (flagCleared s))
  release : ∀ {s}, s.halt.causes.any = false → s.halt.latch.isSome = true → At P s →
    At P ((s.setHalt { s.halt with latch := none, ackRun := none }).setTraction { s.traction with state := .inhibited })
  reset : ∀ s, At P (resetBlocks s)

theorem setStandstill_lawful (W : TramWalk P) (h : At P s) : At P (setStandstill s) := by
  have L := W.toLawWalk
  rw [setStandstill_flagSet]
  exact sampleRole_lawful W.toLawStep (judgeStandstillGroups_travel L.travel (serveStops_travel L.travel (W.rest h)))

theorem clearStandstill_lawful (W : TramWalk P) (h : At P s) : At P (clearStandstill s) := by
  rw [clearStandstill_flagCleared]
  exact judgeStandstillGroups_travel W.toLawWalk.travel (W.depart h)

theorem judgeStandstill_lawful (W : TramWalk P) (h : At P s) : At P (judgeStandstill s) := by
  have L := W.toLawWalk
  have counted : ∀ run, At P (s.setAxle { s.axle with standstillRun := run }) := fun _ => L.still h
  exact ite_at (fun _ => h) fun _ => ite_at
    (fun _ => ite_at (fun _ => setStandstill_lawful W (counted _)) fun _ => counted _)
    fun _ => ite_at (fun _ => clearStandstill_lawful W (counted _)) fun _ => counted _

theorem speedSample_lawful (W : TramWalk P) (h : At P s) : At P (speedSample s) := by
  have judged : At P (judgeStandstill (agreed s)) := judgeStandstill_lawful W (agreed_travel W.toLawWalk.travel h)
  have before : At P (beforeRoute s) := ite_at (fun _ => sampleRole_lawful W.toLawStep judged) fun _ => judged
  have routed : At P (routeSample (beforeRoute s)) := routeSample_ride W.toLawWalk.ride before
  obtain ⟨last, due, sample⟩ := speedSample_routed (s := s) (t := speedSample s) rfl
  generalize speedSample s = t at sample
  subst sample
  generalize routeSample (beforeRoute s) = u at routed
  exact W.toLawWalk.axle rfl routed

theorem releaseLatch_lawful (W : TramWalk P) (none : s.halt.causes.any = false) (h : At P s) : At P (releaseLatch s) := by
  unfold releaseLatch; split
  · exact h
  next r set =>
    exact silencePattern_event W.toLawWalk.tone (W.toLawWalk.raise (W.release none (by rw [set]; rfl) h))

/-- HALT_RELEASED is due while a STOPPED latch without causes has its acknowledgement run (R67). -/
theorem releaseAt_some {n : Nat} : releaseAt s = some n ↔
    (∃ r, s.halt.latch = some r ∧ r.stopped = true) ∧ s.halt.causes.any = false ∧ ∃ start, s.halt.ackRun = some start ∧
      start + 1000 = n := by
  unfold releaseAt
  simp [Option.any_eq_true, and_assoc]

theorem haltReleased_lawful (W : TramWalk P) (h : At P s) : At P (atExpiry (releaseAt s) releaseLatch s) := by
  unfold atExpiry; split
  · exact h
  next n due =>
    obtain ⟨-, none, -⟩ := releaseAt_some.1 due
    exact releaseLatch_lawful W none (W.toLawWalk.still h)

theorem endReset_lawful (W : LawStep P) (h : At P s) : At P (endReset s) := by
  have sensed := W.sense (sampleRole_lawful W h)
  exact ite_at (fun _ => sensed) fun _ => enterLoopFault_lawful W.toLawWalk sensed

/-- What a law of the tram gives, every step keeps. -/
theorem step_lawful (W : TramWalk P) {t : State} (h : P s) (next : step s = .next t) : P t := by
  have L := W.toLawWalk
  have reset : ∀ {u x}, At P ((resetBlocks u).setHost x) := L.host (W.reset _)
  unfold step at next
  split at next
  · cases next; exact L.still h
  next c rest _ =>
    have waiting : At P (s.setPending rest) := L.still h
    refine exec_lawful W.toLawStep c (fun own => ?_) (fun _ _ _ link => ?_) waiting t next
    · rcases own with rfl | rfl | ⟨inputs, rfl⟩ | rfl | rfl
      · exact keeps_next (speedSample_lawful W (L.still waiting))
      · exact keeps_next (atExpiry_at L.outer (fun h => setStandstill_lawful W (L.still h)) waiting)
      · exact keeps_next (effortPass_pass (L.pass W.release) (L.still waiting))
      · exact keeps_next (haltReleased_lawful W waiting)
      · exact keeps_next (endReset_lawful W.toLawStep reset)
    · exact endReset_lawful W.toLawStep reset

end Sys2Proof.Machine
end

section
/-! The three laws of a tram: the monitor watches a moving LEAD, the latch has the standstill flag, and JUNCTION and BREACH follow
the table (R61, R64, R68, R71). -/

namespace Sys2Proof.Machine

variable {P : State → Prop} {s u : State}

/-! ### The monitor -/

/-- VIGILANCE is present exactly while the monitor is TRIPPED (R61, R71): what remains of the monitor's law while the role or the
flag has changed and vigilance is not yet judged. -/
def TripLaw (s : State) : Prop := s.halt.causes.vigilance = true ↔ s.vigilance.state = .tripped

/-- A law of the monitor, its cause, the role and the flag alone is lawful. -/
theorem lawWalk_monitor (transfer : ∀ {s u : State}, u.vigilance = s.vigilance → u.halt.causes.vigilance = s.halt.causes.vigilance →
      u.lines.role = s.lines.role → u.axle.standstill = s.axle.standstill → At P s → At P u) : LawWalk P where
  plain := fun _ causes vigilance role flag _ => transfer vigilance (by rw [causes]) role flag
  route := fun _ => transfer rfl rfl rfl rfl
  judged := fun {s r} _ => transfer (by unfold judgeJunctionCauses; simp) (by
    unfold judgeJunctionCauses
    have sub := removeCauses_has (y := .vigilance) (by decide)
    have add := addCauses_has (y := .vigilance) (by decide)
    refine (sub _ _).trans ?_
    rw [if_neg (by split <;> split <;> simp), add, if_neg (by split <;> split <;> simp)]
    rfl) (by unfold judgeJunctionCauses; simp) (by unfold judgeJunctionCauses; simp)
  add := fun {s cs} own => transfer (by simp)
    ((addCauses_has (y := .vigilance) (by decide) cs s).trans (if_neg fun inside => (own _ inside).1 rfl)) (by simp) (by simp)
  remove := fun {s cs} own => transfer (by simp)
    ((removeCauses_has (y := .vigilance) (by decide) cs s).trans (if_neg fun inside => (own _ inside).1 rfl)) (by simp) (by simp)
  sense := fun {s} => transfer (by simp) (senseHalt_has s .vigilance) (by simp) (by simp)
  drive := fun {s} => transfer (by simp) (judgeDrive_has (y := .vigilance) (by decide) s) (by simp) (by simp)

theorem lawWalk_trip : LawWalk TripLaw :=
  lawWalk_monitor fun vigilance cause _ _ h => by unfold At TripLaw at *; rw [vigilance, cause]; exact h

theorem lawWalk_watch : LawWalk MonitorLaw :=
  lawWalk_monitor fun vigilance cause role flag h =>
    ⟨by rw [vigilance, role, flag]; exact h.active, by rw [vigilance, role, flag]; exact h.watching,
      by rw [vigilance, role]; exact h.tripped, by rw [vigilance, cause]; exact h.cause⟩

theorem MonitorLaw.trip (h : MonitorLaw s) : TripLaw s := h.cause

theorem vigilActive_iff : vigilActive s = true ↔ s.lines.role = .lead ∧ s.axle.standstill = false := by simp [vigilActive]

/-- The monitor that starts: at the time `n`, HELD or RELEASED as VIGIL is, with its timer (R68). -/
def monitorStarted (s : State) (n : Nat) : Vigilance :=
  if s.pins.vigil then ⟨.held, some (n + s.cfgN Setting.holdLimit * 1000)⟩
  else ⟨.released, some (n + s.cfgN Setting.vigilanceGrace * 1000)⟩

/-- The monitor as the role and the flag leave it (R68). -/
def monitorJudged (s : State) : Vigilance :=
  if s.lines.role = .lead ∧ s.axle.standstill = false then
    if s.vigilance.state = .off then monitorStarted s s.now else s.vigilance
  else if s.vigilance.state = .off ∨ s.vigilance.state = .tripped ∧ s.lines.role = .lead then s.vigilance
  else ⟨.off, none⟩

theorem judgeVigilance_monitor (s : State) : (judgeVigilance s).vigilance = monitorJudged s := by
  unfold judgeVigilance monitorJudged
  simp only [vigilActive_iff]
  split
  · unfold monitorStarted
    split
    · split <;> rfl
    · rfl
  next resting =>
    cases state : s.vigilance.state <;> simp [vigilTo]
    split
    · rfl
    · simp

/-- VIGILANCE ends with the role of a unit that has tripped (R68). -/
theorem judgeVigilance_cause (s : State) : (judgeVigilance s).halt.causes.vigilance =
    if s.vigilance.state = .tripped ∧ s.lines.role ≠ .lead then false else s.halt.causes.vigilance := by
  unfold judgeVigilance
  simp only [vigilActive_iff]
  split
  next active =>
    have kept : ¬(s.vigilance.state = .tripped ∧ s.lines.role ≠ .lead) := fun h => h.2 active.1
    rw [if_neg kept]
    split
    · split <;> rfl
    · rfl
  next resting =>
    cases state : s.vigilance.state <;> simp only [reduceCtorEq, false_and, if_false, true_and, silencePattern_halt] <;>
      try rfl
    split
    next lead => simp [lead]
    next other =>
      rw [silencePattern_halt]
      exact removeCauses_has (y := .vigilance) (by decide) [.vigilance] (vigilTo .off none s)

theorem monitorStarted_timed (s : State) (n : Nat) : (monitorStarted s n).state = .held ∨ (monitorStarted s n).state = .released := by
  unfold monitorStarted; split
  · exact .inl rfl
  · exact .inr rfl

/-- The monitor judged is lawful whatever the role and the flag have become (R68). -/
theorem judgeVigilance_watch (h : TripLaw s) : MonitorLaw (judgeVigilance s) := by
  have started := monitorStarted_timed s s.now
  unfold TripLaw at h
  constructor
  case active | watching | tripped =>
    simp only [judgeVigilance_monitor, judgeVigilance_lines_role, judgeVigilance_axle, monitorJudged]
    grind
  case cause =>
    rw [judgeVigilance_monitor, judgeVigilance_cause]
    unfold monitorJudged
    grind

end Sys2Proof.Machine
end

section
/-! VIGILANCE WARNING on the buzzer: no block but the monitor asks for it, so a buzzer rid of it stays rid (R70, R155, R157). -/

namespace Sys2Proof.Machine

variable {s : State} {l l' : SoundLine}

/-- The player of the line sounds VIGILANCE WARNING. -/
def Warning (l : SoundLine) : Prop := ∃ step pass x, l.player = .playing 4 step pass x

/-- VIGILANCE WARNING waits in the queue of the line. -/
def WarningWaits (l : SoundLine) : Prop := ∃ w ∈ l.queue, w.pattern = 4

/-- The line `l'` after `l`: VIGILANCE WARNING neither begins nor joins. -/
def Unwarned (l l' : SoundLine) : Prop := (Warning l' → Warning l) ∧ (WarningWaits l' → WarningWaits l)

theorem Unwarned.refl (l : SoundLine) : Unwarned l l := ⟨id, id⟩

theorem Unwarned.of_eq (h : l' = l) : Unwarned l l' := h ▸ .refl l

theorem Unwarned.trans {l'' : SoundLine} (a : Unwarned l l') (b : Unwarned l' l'') : Unwarned l l'' :=
  ⟨fun h => a.1 (b.1 h), fun h => a.2 (b.2 h)⟩

/-- The line neither sounds VIGILANCE WARNING nor has it waiting. -/
def Rid (l : SoundLine) : Prop := ¬Warning l ∧ ¬WarningWaits l

theorem Rid.unwarned (h : Rid l) (calm : Unwarned l l') : Rid l' := ⟨fun p => h.1 (calm.1 p), fun w => h.2 (calm.2 w)⟩

theorem Rid.idle {q : List Waiting} (no : ∀ w ∈ q, w.pattern ≠ 4) : Rid ⟨.idle, q⟩ := by
  constructor
  · rintro ⟨_, _, _, plays⟩; cases plays
  · rintro ⟨w, mem, own⟩; exact no w mem own

theorem plays_warning : l.plays 4 = true ↔ Warning l := by
  unfold SoundLine.plays Warning
  cases l.player <;> simp

/-- A player that takes a pattern other than VIGILANCE WARNING, or none. -/
theorem Unwarned.taken {p step pass x : Nat} (other : p ≠ 4) (l : SoundLine) : Unwarned l { l with player := .playing p step pass x } :=
  ⟨fun ⟨_, _, _, plays⟩ => absurd (Player.playing.inj plays).1 other, id⟩

theorem Unwarned.queued {q : List Waiting} (no : ∀ w ∈ q, w.pattern = 4 → WarningWaits l) : Unwarned l { l with queue := q } :=
  ⟨id, fun ⟨w, mem, own⟩ => no w mem own⟩

/-! ### The lines of the sound unit -/

theorem SoundUnit.setLine_buzzer (u : SoundUnit) (c : SoundChannel) (l : SoundLine) :
    (u.setLine c l).buzzer = if c = .buzzer then l else u.buzzer := by cases c <;> rfl

theorem Unwarned.setLine {u : SoundUnit} {c : SoundChannel} (h : Unwarned (u.line c) l) : Unwarned u.buzzer (u.setLine c l).buzzer := by
  cases c
  case buzzer => exact h
  all_goals exact .refl _

theorem strike_buzzer (s : State) : (strike s).sound.buzzer = s.sound.buzzer := by unfold strike; split <;> rfl

/-- A pattern taken: the player of its channel has it, or nothing has changed. -/
theorem takePattern_buzzer (c : SoundChannel) (p : Nat) (s : State) : (takePattern c p s).sound.buzzer = s.sound.buzzer ∨
    c = .buzzer ∧ ∃ step pass x, (takePattern c p s).sound.buzzer = { s.sound.buzzer with player := .playing p step pass x } := by
  unfold takePattern; split
  next st _ =>
    have set : ∀ t, (enterStep c p st 0 0 t s).sound.buzzer =
        if c = .buzzer then { s.sound.line c with player := .playing p 0 0 (t + st.duration * 10) } else s.sound.buzzer := fun t => by
      unfold enterStep; dsimp only; split
      · rw [strike_buzzer]; exact SoundUnit.setLine_buzzer _ _ _
      · exact SoundUnit.setLine_buzzer _ _ _
    rw [set]
    by_cases own : c = .buzzer
    · subst own; exact .inr ⟨rfl, 0, 0, _, rfl⟩
    · rw [if_neg own]; exact .inl rfl
  · exact .inl rfl

theorem takePattern_unwarned (c : SoundChannel) {p : Nat} (other : p ≠ 4) (s : State) :
    Unwarned s.sound.buzzer (takePattern c p s).sound.buzzer := by
  rcases takePattern_buzzer c p s with same | ⟨-, step, pass, x, taken⟩
  · exact .of_eq same
  · rw [taken]; exact .taken other _

@[simp] theorem judgeSound_sound (s : State) : (judgeSound s).sound = s.sound := judgeLock_sound _ _ _

/-- A channel other than the buzzer leaves its player without the buzzer's notice. -/
theorem leavePlayer_other {c : SoundChannel} (other : c ≠ .buzzer) (s : State) : (leavePlayer c s).sound.buzzer = s.sound.buzzer := by
  unfold leavePlayer; split
  · rw [judgeSound_sound]; exact (SoundUnit.setLine_buzzer _ _ _).trans (if_neg other)
  next w rest _ =>
    rw [judgeSound_sound]
    rcases takePattern_buzzer c w.pattern (s.setSound (s.sound.setLine c ⟨.idle, rest⟩)) with same | ⟨own, -⟩
    · exact same.trans ((SoundUnit.setLine_buzzer _ _ _).trans (if_neg other))
    · exact absurd own other

/-- The buzzer leaves its player for what waits: with no VIGILANCE WARNING waiting it is rid of it. -/
theorem leavePlayer_rid (no : ¬WarningWaits s.sound.buzzer) : Rid (leavePlayer .buzzer s).sound.buzzer := by
  unfold leavePlayer; split
  · rw [judgeSound_sound]; exact .idle nofun
  next w rest queue =>
    have waits : ∀ x ∈ w :: rest, x.pattern ≠ 4 := fun x mem own => no ⟨x, queue ▸ mem, own⟩
    have idle : Rid ⟨.idle, rest⟩ := .idle fun x mem => waits x (List.mem_cons_of_mem _ mem)
    rw [judgeSound_sound]
    exact idle.unwarned (takePattern_unwarned .buzzer (waits w List.mem_cons_self)
      (s.setSound (s.sound.setLine .buzzer ⟨.idle, rest⟩)))

/-! ### Requests -/

theorem mem_joinQueue {w x : Waiting} {q : List Waiting} (mem : x ∈ joinQueue w q) : x = w ∨ x ∈ q := by
  unfold joinQueue at mem; split at mem
  · rcases List.mem_append.1 mem with mem | mem
    · exact .inr (List.takeWhile_subset _ mem)
    · exact (List.mem_cons.1 mem).imp_right fun mem => List.dropWhile_subset _ mem
  · exact (List.mem_append.1 mem).symm.imp List.mem_singleton.1 id

theorem displaceNewest_subset {q rest : List Waiting} {gone : Waiting} (h : displaceNewest q = some (gone, rest)) : rest ⊆ q := by
  unfold displaceNewest at h; split at h
  · cases h
    intro x mem
    exact List.mem_reverse.1 (List.eraseP_subset (List.mem_reverse.1 mem))
  · cases h

theorem queueRequest_unwarned (c : SoundChannel) {w : Waiting} (other : w.pattern ≠ 4) (s : State) :
    Unwarned s.sound.buzzer (queueRequest c w s).1.sound.buzzer := by
  have joined : ∀ q, q ⊆ (s.sound.line c).queue →
      Unwarned s.sound.buzzer (s.sound.setLine c { s.sound.line c with queue := joinQueue w q }).buzzer := fun q sub =>
    .setLine (.queued fun x mem own => by
      rcases mem_joinQueue mem with rfl | mem
      · exact absurd own other
      · exact ⟨x, sub mem, own⟩)
  unfold queueRequest; dsimp only
  split
  · exact joined _ fun _ mem => mem
  · split
    · exact .refl _
    next displaced => rw [raise_sound]; exact joined _ (displaceNewest_subset displaced)
    · rw [raise_sound]; exact .refl _

/-- A block that asks for another pattern brings no VIGILANCE WARNING (R155). -/
theorem askFor_unwarned {p : Nat} (other : p ≠ 4) (s : State) : Unwarned s.sound.buzzer (askFor p s).sound.buzzer := by
  unfold askFor requestPattern; split
  · exact .refl _
  next r _ =>
    dsimp only; split
    · exact .refl _
    · split
      · refine .setLine (.queued fun x mem own => ?_)
        obtain ⟨y, inside, rfl⟩ := List.mem_map.1 mem
        exact ⟨y, inside, by split at own <;> exact own⟩
      · split
        · rw [judgeSound_sound]; exact takePattern_unwarned _ other s
        next q _ _ _ _ =>
          split
          · have taken := takePattern_unwarned r.channel other (raise 8 q p s)
            rwa [raise_sound] at taken
          · exact queueRequest_unwarned _ other s
        · exact queueRequest_unwarned _ other s

/-- The driver's controls are not on the buzzer (R159 to R161). -/
theorem releaseControls_buzzer (s : State) : (releaseControls s).sound.buzzer = s.sound.buzzer := by
  have bell : (releaseBell s).sound.buzzer = s.sound.buzzer := by
    unfold releaseBell; split
    · exact leavePlayer_other (by decide) _
    · rfl
  unfold releaseControls; dsimp only; split
  · exact (leavePlayer_other (by decide) _).trans bell
  · exact bell

/-- Silencing drops a pattern from the queue, or lets the player leave it (R157). -/
theorem silencePattern_buzzer {p : Nat} (own : p = 1 ∨ p = 4) (s : State) :
    (s.sound.buzzer.plays p = true ∧ silencePattern p s = leavePlayer .buzzer s) ∨
    (s.sound.buzzer.plays p = false ∧
      (silencePattern p s).sound.buzzer = { s.sound.buzzer with queue := s.sound.buzzer.queue.filter fun w => w.pattern != p }) := by
  rcases own with rfl | rfl
  all_goals
    cases plays : s.sound.buzzer.plays _
    · refine .inr ⟨rfl, ?_⟩
      simp [silencePattern, SoundUnit.pattern, fixedPattern, SoundUnit.line, plays, SoundUnit.setLine]
    · refine .inl ⟨rfl, ?_⟩
      simp [silencePattern, SoundUnit.pattern, fixedPattern, SoundUnit.line, plays]

/-- VIGILANCE WARNING silenced on a buzzer that has it once (R157). -/
theorem silencePattern_rid (once : ¬(Warning s.sound.buzzer ∧ WarningWaits s.sound.buzzer)) :
    Rid (silencePattern 4 s).sound.buzzer := by
  rcases silencePattern_buzzer (.inr rfl) s with ⟨plays, left⟩ | ⟨silent, dropped⟩
  · rw [left]; exact leavePlayer_rid fun waits => once ⟨plays_warning.1 plays, waits⟩
  · rw [dropped]
    refine ⟨fun warning => ?_, fun ⟨w, mem, own⟩ => ?_⟩
    · have plays : s.sound.buzzer.plays 4 = true := plays_warning.2 warning
      rw [plays] at silent; cases silent
    · simp [own] at mem

/-- JUNCTION WARNING silenced lets no VIGILANCE WARNING begin where none waits. -/
theorem silencePattern_junction_rid (h : Rid s.sound.buzzer) : Rid (silencePattern 1 s).sound.buzzer := by
  rcases silencePattern_buzzer (.inl rfl) s with ⟨-, left⟩ | ⟨-, dropped⟩
  · rw [left]; exact leavePlayer_rid h.2
  · rw [dropped]; exact h.unwarned (.queued fun w mem own => ⟨w, List.mem_of_mem_filter mem, own⟩)

/-! ### Causes that join -/

theorem joinCauses_unwarned (cs : List Cause) (s : State) : Unwarned s.sound.buzzer (joinCauses cs s).sound.buzzer := by
  rcases joinCauses_cases cs s with ⟨same, -⟩ | ⟨first, c, -, -, -, joined⟩
  · rw [same]; exact .refl _
  · have sound : (joinCauses cs s).sound = (if s.halt.latch.isNone then setLatch first s else s).sound := by
      rw [joined]; dsimp only; split
      · rw [breachBraking_eq, judgeLock_sound]; rfl
      · rfl
    rw [sound]; split
    · rw [setLatch_sound]; exact askFor_unwarned (by decide) s
    · exact .refl _

theorem senseHalt_unwarned (s : State) : Unwarned s.sound.buzzer (senseHalt s).sound.buzzer := by
  unfold senseHalt; split
  · exact joinCauses_unwarned _ s
  · exact .refl _

theorem judgeDrive_unwarned (s : State) : Unwarned s.sound.buzzer (judgeDrive s).sound.buzzer := by
  unfold judgeDrive; dsimp only; split
  · exact .refl _
  · split
    · exact .refl _
    · exact senseHalt_unwarned (s.setLines { s.lines with halting := false })

theorem addCauses_unwarned (cs : List Cause) (s : State) : Unwarned s.sound.buzzer (addCauses cs s).sound.buzzer :=
  (joinCauses_unwarned cs s).trans (judgeDrive_unwarned _)

theorem removeCauses_unwarned (cs : List Cause) (s : State) : Unwarned s.sound.buzzer (removeCauses cs s).sound.buzzer :=
  judgeDrive_unwarned (dropCauses cs s)

end Sys2Proof.Machine
end

section
/-! The monitor's law over every step (R61, R68, R71). -/

namespace Sys2Proof.Machine

variable {s : State}

theorem MonitorLaw.lead (h : MonitorLaw s) (timed : s.vigilance.state.Timed) :
    s.lines.role = .lead ∧ s.axle.standstill = false := by
  obtain ⟨off, tripped⟩ := timed
  exact h.watching (by cases state : s.vigilance.state <;> simp_all)

/-- A timed state for a timed one: the monitor still watches (R69, R70). -/
theorem MonitorLaw.timed {v : Vigilance} (h : MonitorLaw s) (before : s.vigilance.state.Timed) (after : v.state.Timed) :
    MonitorLaw (s.setVigilance v) := by
  have absent : s.halt.causes.vigilance ≠ true := fun present => before.2 (h.cause.1 present)
  exact ⟨fun _ _ => after.1, fun _ => h.lead before, fun tripped => absurd tripped after.2,
    ⟨fun present => absurd present absent, fun tripped => absurd tripped after.2⟩⟩

/-- A LEAD trips, and VIGILANCE is present with it (R61, R71). -/
theorem enterTripped_watch (timed : s.vigilance.state.Timed) (h : MonitorLaw s) : MonitorLaw (enterTripped s) := by
  have monitor : (enterTripped s).vigilance = ⟨.tripped, none⟩ := by unfold enterTripped; rw [addCauses_vigilance]; rfl
  have cause : (enterTripped s).halt.causes.vigilance = true :=
    addCauses_has (y := .vigilance) (by decide) [.vigilance] (vigilTo .tripped none s)
  constructor
  case active => simp [monitor]
  case watching => simp [monitor]
  case tripped => intro _; rw [enterTripped_lines_role]; exact (h.lead timed).1
  case cause => simp [monitor, cause]

/-- A press on a tripped monitor ends VIGILANCE, and the monitor watches or is OFF as the flag has it (R68, R69). -/
theorem vigilPressed_watch (tripped : s.vigilance.state = .tripped) : MonitorLaw (vigilPressed s) := by
  have monitor := vigilPressed_tripped_monitor tripped
  have cause : (vigilPressed s).halt.causes.vigilance = false := by
    rw [vigilPressed_tripped_halt tripped]; exact removeCauses_has (y := .vigilance) (by decide) [.vigilance] s
  split at monitor
  next active =>
    exact ⟨by simp [monitor], by simpa [monitor] using active, by simp [monitor], by simp [monitor, cause]⟩
  next still =>
    exact ⟨by simpa [monitor] using still, by simp [monitor], by simp [monitor], by simp [monitor, cause]⟩

theorem tramWalk_watch : TramWalk MonitorLaw where
  toLawWalk := lawWalk_watch
  watch := fun before after h => MonitorLaw.timed h before after
  role := fun h => judgeVigilance_watch (roleTaken_travel lawWalk_trip.travel (fun h => h) h.trip)
  trip := enterTripped_watch
  clear := fun tripped _ => vigilPressed_watch tripped
  rest := fun {s} h => by
    have flagged : At TripLaw (latchStopped true ((releaseSand s).setAxle { (releaseSand s).axle with standstill := true })) :=
      lawWalk_trip.travel.sand h.trip
    exact judgeVigilance_watch (lawWalk_trip.remove (by simp [Cause.Own]) flagged)
  depart := fun h => judgeVigilance_watch h.trip
  release := fun _ _ h => ⟨h.active, h.watching, h.tripped, h.cause⟩
  reset := fun s => ⟨nofun, by simp [resetBlocks, Vigilance.atReset], nofun,
    by simp [resetBlocks, Vigilance.atReset, HaltLatch.atReset, Causes.none]⟩

end Sys2Proof.Machine
end

section
/-! The laws that read neither the role nor the monitor: the latch with the flag, and the causes with the table (R61, R64). -/

namespace Sys2Proof.Machine

variable {P : State → Prop} {s u t : State}

/-- The lawful walk of a law that reads neither the role nor the monitor nor its cause. -/
structure BlindWalk (P : State → Prop) : Prop extends LawWalk P where
  lines : ∀ {s l}, At P s → At P (s.setLines l)
  vigil : ∀ {s v}, At P s → At P (s.setVigilance v)
  trips : ∀ {s}, At P s → At P (addCauses [.vigilance] s)
  untrips : ∀ {s}, At P s → At P (removeCauses [.vigilance] s)

theorem judgeVigilance_blind (W : BlindWalk P) (h : At P s) : At P (judgeVigilance s) :=
  judgeVigilance_preserves (fun _ _ h => W.vigil h) (fun _ h => silencePattern_event W.toLawWalk.tone h) (fun _ h => W.untrips h) h

theorem BlindWalk.step (W : BlindWalk P) : LawStep P where
  toLawWalk := W.toLawWalk
  watch := fun _ _ h => W.vigil h
  role := fun h => judgeVigilance_blind W (roleTaken_travel W.toLawWalk.travel W.lines h)
  trip := fun _ h => W.trips (W.vigil h)
  clear := fun {s} tripped h => by
    have cleared : At P (vigilCleared s) := silencePattern_event W.toLawWalk.tone (W.untrips h)
    rw [vigilPressed_tripped tripped]
    exact ite_at (fun _ => W.vigil cleared) fun _ => W.vigil cleared

/-! ### The latch as causes come and go -/

/-- From `s` to `u` a set latch keeps its record, and one that sets has the flag of its time, which has not changed (R62, R64). -/
structure Latching (s u : State) : Prop where
  flag : u.axle.standstill = s.axle.standstill
  kept : ∀ r, s.halt.latch = some r → u.halt.latch = some r
  fresh : ∀ r, u.halt.latch = some r → s.halt.latch = some r ∨ r.stopped = s.axle.standstill

theorem Latching.same (flag : u.axle.standstill = s.axle.standstill) (latch : u.halt.latch = s.halt.latch) : Latching s u :=
  ⟨flag, fun _ set => latch.trans set, fun _ set => .inl (latch.symm.trans set)⟩

theorem Latching.trans (a : Latching s u) (b : Latching u t) : Latching s t where
  flag := b.flag.trans a.flag
  kept := fun r set => b.kept r (a.kept r set)
  fresh := fun r set => (b.fresh r set).elim (a.fresh r) fun own => .inr (own.trans a.flag)

theorem joinCauses_latching (cs : List Cause) (s : State) : Latching s (joinCauses cs s) := by
  have flag : (joinCauses cs s).axle.standstill = s.axle.standstill := by rw [joinCauses_axle]
  rcases joinCauses_cases cs s with ⟨same, -⟩ | ⟨first, c, -, -, -, joined⟩
  · exact .same flag (by rw [same])
  · have latch : (joinCauses cs s).halt.latch = (if s.halt.latch.isNone then setLatch first s else s).halt.latch := by
      rw [joined]; dsimp only; split
      · rw [breachBraking_halt]; rfl
      · rfl
    split at latch
    next clear =>
      rw [setLatch_halt] at latch
      exact ⟨flag, fun r set => by simp [set] at clear, fun r set => .inr (by rw [latch] at set; cases set; rfl)⟩
    · exact .same flag latch

theorem senseHalt_latching (s : State) : Latching s (senseHalt s) := by
  unfold senseHalt; split
  · exact joinCauses_latching _ s
  · exact .same rfl rfl

theorem judgeDrive_latching (s : State) : Latching s (judgeDrive s) := by
  unfold judgeDrive; dsimp only; split
  · exact .same rfl rfl
  · split
    · exact .same rfl rfl
    · have freed : Latching s (s.setLines { s.lines with halting := false }) := .same rfl rfl
      exact freed.trans (senseHalt_latching _)

theorem addCauses_latching (cs : List Cause) (s : State) : Latching s (addCauses cs s) :=
  (joinCauses_latching cs s).trans (judgeDrive_latching _)

theorem removeCauses_latching (cs : List Cause) (s : State) : Latching s (removeCauses cs s) :=
  .trans (u := dropCauses cs s) (.same rfl rfl) (judgeDrive_latching _)

theorem judgeJunctionCauses_latching (r : RouteEngine) (s : State) : Latching s (judgeJunctionCauses (s.setRoute r)) := by
  have routed : Latching s (s.setRoute r) := .same rfl rfl
  exact (routed.trans (addCauses_latching _ _)).trans (removeCauses_latching _ _)

/-- What latching keeps, and what neither the latch nor the flag moves, is blind. -/
theorem blindWalk_latching (latching : ∀ {s u}, Latching s u → At P s → At P u) : BlindWalk P where
  plain := fun latch _ _ _ flag _ => latching (.same flag latch)
  route := fun _ => latching (.same rfl rfl)
  judged := fun {s r} _ => latching (judgeJunctionCauses_latching r s)
  add := fun _ => latching (addCauses_latching _ _)
  remove := fun _ => latching (removeCauses_latching _ _)
  sense := latching (senseHalt_latching _)
  drive := latching (judgeDrive_latching _)
  lines := latching (.same rfl rfl)
  vigil := latching (.same rfl rfl)
  trips := latching (addCauses_latching _ _)
  untrips := latching (removeCauses_latching _ _)

theorem LatchLaw.latching (h : LatchLaw s) (l : Latching s u) : LatchLaw u := fun r set => by
  rw [l.flag]; exact (l.fresh r set).elim (h r) id

theorem blindWalk_latch : BlindWalk LatchLaw := blindWalk_latching fun l h => LatchLaw.latching h l

/-- The latch takes the flag with it (R64). -/
theorem latchStopped_law (b : Bool) (s : State) (flag : s.axle.standstill = b) : LatchLaw (latchStopped b s) := by
  intro r set
  obtain ⟨x, -, rfl⟩ := Option.map_eq_some_iff.1 set
  exact flag.symm

theorem tramWalk_latch : TramWalk LatchLaw where
  toLawStep := blindWalk_latch.step
  rest := fun {s} _ => judgeVigilance_blind blindWalk_latch
    (blindWalk_latch.remove (by simp [Cause.Own]) (latchStopped_law true _ rfl))
  depart := fun {s} _ => judgeVigilance_blind blindWalk_latch
    (latchStopped_law false (s.setAxle { s.axle with standstill := false }) rfl)
  release := fun _ _ _ _ set => by cases set
  reset := fun _ _ set => by cases set

/-! ### The causes and the table -/

/-- Tags stand once, and JUNCTION and BREACH follow the entries of the table (R61, R89). -/
def TableLaw (s : State) : Prop :=
  (s.route.table.map (·.tag)).Nodup ∧ Follow s.halt.causes (s.route.table.map Entry.junctionState)

theorem TableLaw.transfer (h : TableLaw s) (table : u.route.table = s.route.table)
    (causes : ∀ c, c = .junction ∨ c = .breach → u.halt.causes.has c = s.halt.causes.has c) : TableLaw u := by
  have junction : u.halt.causes.junction = s.halt.causes.junction := causes .junction (.inl rfl)
  have breach : u.halt.causes.breach = s.halt.causes.breach := causes .breach (.inr rfl)
  unfold TableLaw Follow at *
  rw [table, junction, breach]
  exact h

theorem TableLaw.causes (h : TableLaw s) : CausesFollow s := (causesFollow_iff s).2 h.2

theorem judgeJunctionCauses_table (tags : (s.route.table.map (·.tag)).Nodup) : TableLaw (judgeJunctionCauses s) := by
  have table : (judgeJunctionCauses s).route = s.route := by unfold judgeJunctionCauses; simp
  exact ⟨by rw [table]; exact tags, by rw [table]; exact judgeJunctionCauses_follow s⟩

/-- A calm change of the table leaves JUNCTION and BREACH as they follow it. -/
theorem TableLaw.calm {r : RouteEngine} (h : TableLaw s) (calm : s.route.Calm r) : TableLaw (s.setRoute r) := by
  refine ⟨calm.tags, ?_⟩
  obtain ⟨junction, breach⟩ := h.2
  have overdue := calm.states .overdue (.inl rfl)
  have refused := calm.states .refused (.inr (.inl rfl))
  have breached := calm.states .breached (.inr (.inr rfl))
  exact ⟨by rw [show (s.setRoute r).route = r from rfl, overdue, refused, breached]; exact junction,
    by rw [show (s.setRoute r).route = r from rfl, breached]; exact breach⟩

/-- A cause that neither JUNCTION nor BREACH is moves neither of them. -/
theorem TableLaw.add {cs : List Cause} (h : TableLaw s) (other : ∀ c ∈ cs, c ≠ .junction ∧ c ≠ .breach) :
    TableLaw (addCauses cs s) ∧ TableLaw (removeCauses cs s) := by
  have absent : ∀ c, c = .junction ∨ c = .breach → c ∉ cs := fun c own inside => by
    rcases own with rfl | rfl
    · exact (other _ inside).1 rfl
    · exact (other _ inside).2 rfl
  have inner : ∀ c : Cause, c = .junction ∨ c = .breach → c ≠ .trainline := fun c own => by rcases own with rfl | rfl <;> decide
  exact ⟨h.transfer (by simp) fun c own => by rw [addCauses_has (inner c own), if_neg (absent c own)],
    h.transfer (by simp) fun c own => by rw [removeCauses_has (inner c own), if_neg (absent c own)]⟩

theorem blindWalk_table : BlindWalk TableLaw where
  plain := fun _ causes _ _ _ table h => TableLaw.transfer h table fun _ _ => by rw [causes]
  route := fun calm h => TableLaw.calm h (calm h.1)
  judged := fun tags h => judgeJunctionCauses_table (tags h.1)
  add := fun own h => (TableLaw.add h fun c inside => (own c inside).2).1
  remove := fun own h => (TableLaw.add h fun c inside => (own c inside).2).2
  sense := fun {s} h => TableLaw.transfer h (by simp) fun c own => by
    rw [senseHalt_has, if_neg]; rcases own with rfl | rfl <;> decide
  drive := fun {s} h => TableLaw.transfer h (by simp) fun c own => by
    rw [judgeDrive_has]; rcases own with rfl | rfl <;> decide
  lines := fun h => h
  vigil := fun h => h
  trips := fun h => (TableLaw.add h (by simp)).1
  untrips := fun h => (TableLaw.add h (by simp)).2

theorem tramWalk_table : TramWalk TableLaw where
  toLawStep := blindWalk_table.step
  rest := fun {s} h => by
    have W := blindWalk_table.toLawWalk
    have released : At TableLaw (releaseSand s) := W.travel.sand h
    exact judgeVigilance_blind blindWalk_table (W.remove (by simp [Cause.Own]) released)
  depart := fun {s} h => judgeVigilance_blind (s := flagCleared s) blindWalk_table h
  release := fun _ _ h => h
  reset := fun s => ⟨List.nodup_nil, by simp [resetBlocks, Follow, RouteEngine.atReset, HaltLatch.atReset, Causes.none]⟩

end Sys2Proof.Machine
end

section
/-! The monitor and its warning over a sample and STANDSTILL_SET (R14, R68). -/

namespace Sys2Proof.Machine

variable {s u : State} {n : Nat}

/-! ### What the stages leave -/

/-- The monitor, the flag, a condition on the role and one on the buzzer. -/
structure Tracks (v : Vigilance) (b : Bool) (R : Role → Prop) (S : SoundLine → Prop) (u : State) : Prop where
  monitor : u.vigilance = v
  flag : u.axle.standstill = b
  role : R u.lines.role
  buzzer : S u.sound.buzzer

variable {v : Vigilance} {b : Bool} {R : Role → Prop} {S : SoundLine → Prop}

theorem Tracks.transfer {u' : State} (stays : ∀ {l l'}, Unwarned l l' → S l → S l') (h : Tracks v b R S u)
    (calm : Unwarned u.sound.buzzer u'.sound.buzzer) (monitor : u'.vigilance = u.vigilance) (role : u'.lines.role = u.lines.role)
    (flag : u'.axle.standstill = u.axle.standstill) : Tracks v b R S u' :=
  ⟨monitor.trans h.monitor, flag.trans h.flag, by rw [role]; exact h.role, stays calm h.buzzer⟩

theorem travelWalk_tracks (stays : ∀ {l l'}, Unwarned l l' → S l → S l') : TravelWalk (Tracks v b R S) where
  plain := fun _ _ monitor role flag _ sound h => Tracks.transfer stays h (.of_eq (by rw [sound])) monitor role flag
  route := fun _ h => Tracks.transfer stays h (.refl _) rfl rfl rfl
  add := fun {s cs} _ h => Tracks.transfer stays h (addCauses_unwarned cs s) (by simp) (by simp) (by simp)
  remove := fun {s cs} _ h => Tracks.transfer stays h (removeCauses_unwarned cs s) (by simp) (by simp) (by simp)
  sense := fun {s} h => Tracks.transfer stays h (senseHalt_unwarned s) (by simp) (by simp) (by simp)
  drive := fun {s} h => Tracks.transfer stays h (judgeDrive_unwarned s) (by simp) (by simp) (by simp)
  ask := fun {s p} other h => Tracks.transfer stays h (askFor_unwarned other s) (by simp) (by simp) (by simp)
  controls := fun {s} h => Tracks.transfer stays h (.of_eq (releaseControls_buzzer s)) (by simp) (by simp) (by simp)

theorem rideWalk_tracks {c : Prop} : RideWalk (Tracks v b R fun l => c → Rid l) where
  toTravelWalk := travelWalk_tracks fun calm h own => (h own).unwarned calm
  judged := fun {s r} _ h => by
    have calm : Unwarned s.sound.buzzer (judgeJunctionCauses (s.setRoute r)).sound.buzzer :=
      (addCauses_unwarned _ (s.setRoute r)).trans (removeCauses_unwarned _ _)
    exact Tracks.transfer (fun calm h own => (h own).unwarned calm) h calm (by unfold judgeJunctionCauses; simp)
      (by unfold judgeJunctionCauses; simp) (by unfold judgeJunctionCauses; simp)
  silence := fun {s} h => ⟨by simpa using h.monitor, by simpa using h.flag, by simpa using h.role,
    fun own => silencePattern_junction_rid (h.buzzer own)⟩

/-! ### The monitor's own judgement -/

/-- The buzzer has VIGILANCE WARNING but once. -/
def Once (l : SoundLine) : Prop := ¬(Warning l ∧ WarningWaits l)

/-- The monitor has asked for its warning (R70, R71). -/
def VigilState.Warned (v : VigilState) : Prop := v = .warnReleased ∨ v = .warnHeld ∨ v = .tripped

theorem Once.unwarned {l l' : SoundLine} (calm : Unwarned l l') (h : Once l) : Once l' := fun both => h ⟨calm.1 both.1, calm.2 both.2⟩

theorem Rid.once {l : SoundLine} (h : Rid l) : Once l := fun both => h.1 both.1

/-- The monitor judged adds no warning, and silences that of one it takes to OFF (R68). -/
theorem judgeVigilance_buzzer (once : Once s.sound.buzzer) : Once (judgeVigilance s).sound.buzzer ∧
    (s.vigilance.state.Warned → (judgeVigilance s).vigilance.state = .off → Rid (judgeVigilance s).sound.buzzer) := by
  have silenced : ∀ u : State, Unwarned s.sound.buzzer u.sound.buzzer → Rid (silencePattern 4 u).sound.buzzer := fun u calm =>
    silencePattern_rid (once.unwarned calm)
  have warning := silenced (vigilTo .off none s) (.refl _)
  unfold judgeVigilance
  split
  · split
    next off =>
      refine ⟨by split <;> exact once, fun warned => ?_⟩
      rw [off] at warned; rcases warned with e | e | e <;> cases e
    next on => exact ⟨once, fun _ off => absurd off on⟩
  · cases state : s.vigilance.state
    case off => exact ⟨once, fun warned => by rcases warned with e | e | e <;> cases e⟩
    case held => exact ⟨once, fun warned => by rcases warned with e | e | e <;> cases e⟩
    case released => exact ⟨once, fun warned => by rcases warned with e | e | e <;> cases e⟩
    case warnReleased => exact ⟨warning.once, fun _ _ => warning⟩
    case warnHeld => exact ⟨warning.once, fun _ _ => warning⟩
    case tripped =>
      dsimp only
      split
      · exact ⟨once, fun _ off => by rw [state] at off; cases off⟩
      · have rid := silenced _ (removeCauses_unwarned [.vigilance] (vigilTo .off none s))
        exact ⟨rid.once, fun _ _ => rid⟩

theorem judgeVigilance_off (off : s.vigilance.state = .off) (still : s.axle.standstill = true) : judgeVigilance s = s := by
  unfold judgeVigilance
  rw [if_neg (by rw [vigilActive_iff, still]; simp), off]

/-! ### The monitor of the event -/

/-- The monitor that an event from `s` at the time `n` leaves with the role `r` and the flag `b` (R68). -/
def monitorAt (s : State) (n : Nat) (r : Role) (b : Bool) : Vigilance :=
  if r = .lead ∧ b = false then
    if s.vigilance.state = .off then monitorStarted s n else s.vigilance
  else if s.vigilance.state = .off ∨ s.vigilance.state = .tripped ∧ r = .lead then s.vigilance
  else ⟨.off, none⟩

/-- A lawful monitor is that of its own role and flag. -/
theorem monitorAt_own (law : MonitorLaw s) (n : Nat) : monitorAt s n s.lines.role s.axle.standstill = s.vigilance := by
  unfold monitorAt
  split
  next active => rw [if_neg (law.active active.1 active.2)]
  next resting =>
    rw [if_pos]
    have watching := law.watching
    have tripped := law.tripped
    cases state : s.vigilance.state <;> simp_all

/-- The event so far: the monitor is that of the role and the flag, and its warning is silenced where it asked for one and is OFF. -/
structure Monitored (s : State) (n : Nat) (u : State) : Prop where
  monitor : u.vigilance = monitorAt s n u.lines.role u.axle.standstill
  once : Once s.sound.buzzer → Once u.sound.buzzer
  rid : s.vigilance.state.Warned → u.vigilance.state = .off → Once s.sound.buzzer → Rid u.sound.buzzer

/-- The buzzer of an event from `s`, where `off` says that its monitor has gone OFF: the warning is there no more than once if it was,
and not at all where it had been asked for. -/
def Hushed (s : State) (off : Prop) (l : SoundLine) : Prop :=
  (Once s.sound.buzzer → Once l) ∧ (s.vigilance.state.Warned → off → Once s.sound.buzzer → Rid l)

theorem Hushed.unwarned {off : Prop} {l l' : SoundLine} (calm : Unwarned l l') (h : Hushed s off l) : Hushed s off l' :=
  ⟨fun once => (h.1 once).unwarned calm, fun warned gone once => (h.2 warned gone once).unwarned calm⟩

/-- Stages that travel leave an event monitored, with its monitor, its role and its flag. -/
theorem Monitored.travel {f : State → State} (h : Monitored s n u)
    (walk : ∀ {P : State → Prop}, TravelWalk P → At P u → At P (f u)) :
    Monitored s n (f u) ∧ (f u).lines.role = u.lines.role ∧ (f u).axle.standstill = u.axle.standstill := by
  have tracks : Tracks u.vigilance u.axle.standstill (· = u.lines.role) (Hushed s (u.vigilance.state = .off)) (f u) :=
    walk (travelWalk_tracks Hushed.unwarned) ⟨rfl, rfl, rfl, h.once, h.rid⟩
  obtain ⟨once, rid⟩ := tracks.buzzer
  exact ⟨⟨by rw [tracks.monitor, tracks.role, tracks.flag]; exact h.monitor, once, by rw [tracks.monitor]; exact rid⟩,
    tracks.role, tracks.flag⟩

theorem Monitored.same (law : MonitorLaw s) (monitor : u.vigilance = s.vigilance) (role : u.lines.role = s.lines.role)
    (flag : u.axle.standstill = s.axle.standstill) (calm : Unwarned s.sound.buzzer u.sound.buzzer) : Monitored s n u where
  monitor := by rw [role, flag, monitorAt_own law]; exact monitor
  once := fun once => once.unwarned calm
  rid := fun warned off => by
    rw [monitor] at off
    rcases warned with e | e | e <;> rw [e] at off <;> cases off

/-- The monitor judged where the flag alone has moved. -/
theorem Monitored.judged (monitor : u.vigilance = s.vigilance) (calm : Unwarned s.sound.buzzer u.sound.buzzer)
    (starts : u.axle.standstill = false → monitorStarted u u.now = monitorStarted s n) : Monitored s n (judgeVigilance u) where
  monitor := by
    rw [judgeVigilance_monitor, judgeVigilance_lines_role, judgeVigilance_axle]
    unfold monitorJudged monitorAt
    rw [monitor]
    refine ite_congr rfl (fun active => ?_) fun _ => rfl
    rw [starts active.2]
  once := fun once => (judgeVigilance_buzzer (once.unwarned calm)).1
  rid := fun warned off once => (judgeVigilance_buzzer (once.unwarned calm)).2 (by rw [monitor]; exact warned) off

/-- The role sampled at standstill (R72): the monitor is judged again, and at the role of the event's start it has tripped in a LEAD
alone. -/
theorem Monitored.sampled (law : MonitorLaw s) (h : Monitored s n u) (still : u.axle.standstill = true)
    (role : u.lines.role = s.lines.role) : Monitored s n (sampleRole u) := by
  unfold sampleRole
  dsimp only
  split
  · exact h
  · rw [changeRole_taken]
    generalize roleFrom u.lines.role u.pins.activeCab u.pins.coupling = r
    generalize hx : roleTaken r u.pins.coupling u = x
    have tracks : Tracks u.vigilance true (fun _ => True) (Hushed s (u.vigilance.state = .off)) x :=
      hx ▸ roleTaken_travel (travelWalk_tracks Hushed.unwarned) (fun h => { h with }) ⟨rfl, still, trivial, h.once, h.rid⟩
    obtain ⟨once, rid⟩ := tracks.buzzer
    have monitor := h.monitor
    rw [still, role] at monitor
    have start : u.vigilance = if s.vigilance.state = .off ∨ s.vigilance.state = .tripped then s.vigilance else ⟨.off, none⟩ := by
      rw [monitor]; unfold monitorAt
      rw [if_neg (by simp)]
      refine if_congr (or_congr_right (and_iff_left_of_imp law.tripped)) rfl rfl
    refine ⟨?_, fun own => (judgeVigilance_buzzer (once own)).1, fun warned off own => ?_⟩
    · rw [judgeVigilance_monitor, judgeVigilance_lines_role, judgeVigilance_axle]
      unfold monitorJudged monitorAt
      rw [tracks.flag, tracks.monitor, start]
      grind
    · by_cases gone : u.vigilance.state = .off
      · rw [judgeVigilance_off (by rw [tracks.monitor]; exact gone) tracks.flag]
        exact rid warned gone own
      · refine (judgeVigilance_buzzer (once own)).2 ?_ off
        rw [tracks.monitor, start]
        rw [start] at gone
        split at gone
        next kept => rw [if_pos kept]; exact warned
        · exact absurd rfl gone

/-! ### The sample and STANDSTILL_SET -/

theorem flagSet_monitored {x : State} (monitor : x.vigilance = s.vigilance) (calm : Unwarned s.sound.buzzer x.sound.buzzer) :
    Monitored s n (flagSet x) := by
  have ended : Unwarned s.sound.buzzer (removeCauses [.rollback]
      (latchStopped true ((releaseSand x).setAxle { (releaseSand x).axle with standstill := true }))).sound.buzzer := by
    refine calm.trans (.trans (.of_eq ?_) (removeCauses_unwarned _ _))
    rw [releaseSand_eq]; rfl
  refine .judged ?_ ended fun moving => ?_
  · rw [removeCauses_vigilance, releaseSand_eq]; exact monitor
  · rw [removeCauses_axle] at moving; cases moving

/-- The flag set, with all that follows within the event (R14). -/
theorem setStandstill_monitored {x : State} (law : MonitorLaw s) (monitor : x.vigilance = s.vigilance)
    (role : x.lines.role = s.lines.role) (calm : Unwarned s.sound.buzzer x.sound.buzzer) : Monitored s n (setStandstill x) := by
  rw [setStandstill_flagSet]
  have flagged : (flagSet x).lines.role = s.lines.role := by
    unfold flagSet
    rw [judgeVigilance_lines_role, removeCauses_lines_role, releaseSand_eq]; exact role
  obtain ⟨grouped, kept, still⟩ := (flagSet_monitored (n := n) monitor calm).travel
    (f := fun u => judgeStandstillGroups (serveStops u)) fun W h => judgeStandstillGroups_travel W (serveStops_travel W h)
  exact grouped.sampled law (still.trans (flagSet_standstill x)) (kept.trans flagged)

/-- The flag cleared, with all that follows within the event (R14). -/
theorem clearStandstill_monitored {x : State} (monitor : x.vigilance = s.vigilance) (calm : Unwarned s.sound.buzzer x.sound.buzzer)
    (starts : monitorStarted x x.now = monitorStarted s n) : Monitored s n (clearStandstill x) :=
  ((Monitored.judged (u := flagCleared x) monitor calm fun _ => starts).travel judgeStandstillGroups_travel).1

theorem agreed_cfgN {m : Nat} (timer : m = Setting.holdLimit ∨ m = Setting.vigilanceGrace ∨ m = Setting.warnToHalt) (s : State) :
    (agreed s).cfgN m = s.cfgN m := by
  obtain ⟨x, e⟩ := agreed_eq s
  have selected : (referenced s).cfg m = s.cfg m :=
    reportSource_quiet (monitorSetting_walk timer (s.cfg m)) trivial (fun _ _ h => h) (fun _ _ h => h) (formed_cfg s m)
  rw [e]
  exact congrArg Int.toNat selected

/-- A sample before its route part leaves the event monitored. -/
theorem beforeRoute_monitored (law : MonitorLaw s) : Monitored s s.now (beforeRoute s) := by
  obtain ⟨monitor, flag, role, calm⟩ : Tracks s.vigilance s.axle.standstill (· = s.lines.role) (Unwarned s.sound.buzzer) (agreed s) :=
    agreed_travel (travelWalk_tracks fun calm h => h.trans calm) ⟨rfl, rfl, rfl, .refl _⟩
  have ready := agreed_ready (s := s) (t := speedSample s) rfl
  have starts : monitorStarted (agreed s) (agreed s).now = monitorStarted s s.now := by
    unfold monitorStarted
    rw [ready.pins, ready.now, agreed_cfgN (.inl rfl), agreed_cfgN (.inr (.inl rfl))]
  unfold beforeRoute
  generalize agreed s = x at monitor flag role calm starts
  obtain ⟨run, counted | ⟨-, set⟩ | ⟨-, cleared⟩⟩ := judgeStandstill_cases x
  · have same : Monitored s s.now (judgeStandstill x) := by rw [counted]; exact .same law monitor role flag calm
    split
    next still => exact same.sampled law still (by rw [counted]; exact role)
    · exact same
  · rw [set, sampleRole_setStandstill, ite_self]
    exact setStandstill_monitored (x := x.setAxle _) law monitor role calm
  · rw [cleared, if_neg (by rw [clearStandstill_axle]; simp)]
    exact clearStandstill_monitored (x := x.setAxle _) monitor calm starts

theorem speedSample_monitored (law : MonitorLaw s) : let t := speedSample s
    t.vigilance = monitorAt s s.now t.lines.role t.axle.standstill ∧
    (s.vigilance.state.Warned → t.vigilance.state = .off → Once s.sound.buzzer → Rid t.sound.buzzer) := by
  intro t
  have before := beforeRoute_monitored law
  obtain ⟨monitor, flag, role, rid⟩ : Tracks (beforeRoute s).vigilance (beforeRoute s).axle.standstill (· = (beforeRoute s).lines.role)
      (fun l => s.vigilance.state.Warned ∧ (beforeRoute s).vigilance.state = .off ∧ Once s.sound.buzzer → Rid l)
      (routeSample (beforeRoute s)) :=
    routeSample_ride rideWalk_tracks ⟨rfl, rfl, rfl, fun own => before.rid own.1 own.2.1 own.2.2⟩
  obtain ⟨last, due, routed⟩ := speedSample_routed (s := s) (t := t) rfl
  generalize t = u at routed
  generalize routeSample (beforeRoute s) = x at monitor flag role rid routed
  subst routed
  refine ⟨?_, fun warned off once => rid ⟨warned, by rw [← monitor]; exact off, once⟩⟩
  show x.vigilance = monitorAt s s.now x.lines.role x.axle.standstill
  rw [monitor, flag, role]
  exact before.monitor

end Sys2Proof.Machine
end

section
/-! The laws of the monitor, of the latch and of the junction causes over every step, and the monitor over the samples (O11). -/

namespace Sys2Proof.Machine

variable {s t : State}

theorem speedSample_now (s : State) : (speedSample s).now = s.now := by
  obtain ⟨last, due, routed⟩ := speedSample_routed (s := s) (t := speedSample s) rfl
  have ready := agreed_ready (s := s) (t := speedSample s) rfl
  have judged : (judgeStandstill (agreed s)).now = s.now :=
    (judgeStandstill_trip (tripKept_walk (agreed s)) (tripKept_role _) trivial (.refl _)).now.trans ready.now
  have before : (beforeRoute s).now = s.now := by
    unfold beforeRoute; split
    · rw [sampleRole_now]; exact judged
    · exact judged
  generalize speedSample s = u at routed
  subst routed
  generalize hx : routeSample (beforeRoute s) = x
  show x.now = s.now
  rw [← hx, routeSample_now, before]

/-- Every step keeps JUNCTION and BREACH with the table whose tags stand once (R61). -/
theorem step_causesFollow (route : RouteLaw s.route) (follow : CausesFollow s) (next : step s = .next t) : CausesFollow t :=
  (step_lawful tramWalk_table (s := s) ⟨route.tags, (causesFollow_iff s).1 follow⟩ next).causes

/-- A sample, and STANDSTILL_SET, leave the monitor as the role and the flag have become (R68). -/
theorem sample_monitor {c : Instr} (which : c = .speedSample ∨ c = .standstillSet) (law : MonitorLaw s) (next : exec c s = .next t) :
    t.vigilance = monitorAt s t.now t.lines.role t.axle.standstill ∧
    (s.vigilance.state.Warned → t.vigilance.state = .off → Once s.sound.buzzer → Rid t.sound.buzzer) := by
  rcases which with rfl | rfl
  · have sample := exec_speedSample next
    subst sample
    rw [speedSample_now]
    exact speedSample_monitored (s := s.reach s.axle.sampleDue) ⟨law.active, law.watching, law.tripped, law.cause⟩
  · obtain rfl := Host.Outcome.next.inj next
    unfold atExpiry; split
    · have same : Monitored s s.now s := .same law rfl rfl rfl (.refl _)
      exact ⟨same.monitor, same.rid⟩
    next n _ =>
      dsimp only
      generalize hx : (s.reach n).setAxle { (s.reach n).axle with standstillRun := some 500 } = x
      have set : Monitored s (setStandstill x).now (setStandstill x) := by
        rw [← hx]; exact setStandstill_monitored law rfl rfl (.refl _)
      exact ⟨set.monitor, set.rid⟩

/-- Settles O11: each law by its walk over the commands, the monitor over a sample by the course of the event. -/
theorem monitorAndLatchFollowTheTram : Obligations.MonitorAndLatchFollowTheTram := by
  refine ⟨fun s t law next => step_lawful tramWalk_watch law next, fun s t law next => step_lawful tramWalk_latch law next,
    fun s t route follow next => step_causesFollow route follow next, fun c s t which law next => ?_⟩
  intro started plays waits
  obtain ⟨monitor, rid⟩ := sample_monitor which law next
  exact ⟨monitor, fun warned off once => rid warned off once⟩

end Sys2Proof.Machine
end

section
/-! The release of the latch by the acknowledgement run, and what leaves a set latch set (R62, R64, R66, R67, R179). -/

namespace Sys2Proof.Machine

variable {P : State → Prop} {s t : State} {r : LatchRecord}

/-! ### The event set over the later stages of a pass -/

theorem writeOutputs_host (x : Int) (s : State) : (writeOutputs x s).host = s.host := by
  unfold writeOutputs; dsimp only; rw [driveTrainLines_eq]; rfl

/-- The adhesion step raises ADHESION FAULT alone (R51). -/
theorem adhesionStep_events {st : SettingsStore} (only : ∀ s u, u.host = s.host → P s → P u)
    (raises : ∀ {s : State} {j : Nat} {v : Int}, P s → P (raise 23 j v s)) (h : P s) : P (adhesionStep st s) := by
  have fault : ∀ {u i x}, P u → P (raiseAdhesionFault st i x u) := fun {u i x} h => by
    unfold raiseAdhesionFault; split
    · exact raises (only u _ rfl h)
    · exact raises (only u _ rfl h)
  have bogie : ∀ {u g i}, P u → P (stepBogie st g i u) := fun {u g i} h =>
    ite_at (P := P) (fun _ => only u _ rfl h) fun _ => ite_at (fun _ => fault (only u _ rfl h)) fun _ => only u _ rfl h
  have sand : ∀ {u}, P u → P (judgeSand st u) := fun {u} h => by
    unfold judgeSand; split
    · exact ite_at (P := P) (fun _ => only u _ rfl h) fun _ => h
    · exact ite_at (P := P) (fun _ => h) fun _ => only u _ rfl h
    · exact h
  have placed : ∀ {u x}, P u → P (u.setAdhesion x) := fun {u x} h => only u _ rfl h
  exact placed (sand (placed (bogie (bogie h))))

theorem judgeRollback_events {st : SettingsStore} (only : ∀ s u, u.host = s.host → P s → P u)
    (raises : ∀ {s : State} {k j : Nat} {v : Int}, k = 6 ∨ k = 7 ∨ k = 8 ∨ k = 30 → P s → P (raise k j v s)) (h : P s) :
    P (judgeRollback st s) :=
  ite_at (P := P) (fun _ => judgeDrive_events only raises (joinCauses_events only raises h)) fun _ => h

theorem moveEffort_events {st : SettingsStore} {h2 : Int} (only : ∀ s u, u.host = s.host → P s → P u)
    (raises : ∀ {s : State} {j : Nat} {v : Int}, P s → P (raise 6 j v s)) (h : P s) : P (moveEffort st h2 s) := by
  have judged : ∀ {u b x}, P u → P (judgeLock .g2 b (u.setSettings x)) := fun {u _ _} h =>
    judgeLock_events (P := P) (fun {s _} h => only s _ rfl h) raises (only u _ rfl h)
  exact judged (only s _ rfl h)

/-- Of the event set the stages after the first change the records of the kinds 6 to 8, 23 and 30 alone. -/
theorem effortPass_events (only : ∀ s u, u.host = s.host → P s → P u)
    (raises : ∀ {s : State} {k j : Nat} {v : Int}, k = 6 ∨ k = 7 ∨ k = 8 ∨ k = 23 ∨ k = 30 → P s → P (raise k j v s))
    (h : P (passFirst s)) : P (effortPass s) := by
  have judged : P (passJudged s) := only (passFirst s) (passJudged s) (passJudged_rest s).2 h
  have third : P (passThird s) := by
    rw [passThird_eq]; exact judgeRollback_events only (fun kind => raises (by omega)) judged
  have stepped : P (passStepped s) :=
    adhesionStep_events only (raises (by decide)) (moveEffort_events only (raises (by decide)) third)
  rw [effortPass_written]
  have written : P (passWritten s) := only (passStepped s) (passWritten s) (writeOutputs_host _ _) stepped
  generalize passWritten s = w at written
  exact only w _ rfl written

/-! ### The acknowledgement -/

/-- The acknowledgement on a set latch (R66, R67): the run continues where the latch is STOPPED without causes and the handle at
−900 or deeper, to the release at 1 s; else it ends. -/
theorem acknowledge_eq (set : s.halt.latch = some r) (h : Int) : acknowledge h s =
    if r.stopped = true ∧ s.halt.causes.any = false ∧ h ≤ -900 then
      if s.halt.ackRun.getD s.now + 1000 ≤ s.now then releaseLatch s
      else s.setHalt { s.halt with ackRun := some (s.halt.ackRun.getD s.now) }
    else s.setHalt { s.halt with ackRun := none } := by
  unfold acknowledge
  rw [set]
  simp only [Option.any_some, Bool.and_eq_true, Bool.not_eq_true', decide_eq_true_eq, and_assoc]

/-- The release: the latch and its run are gone, the unit INHIBITED, HALT RELEASED raised (R67). -/
theorem releaseLatch_set (set : s.halt.latch = some r) :
    (releaseLatch s).halt = { s.halt with latch := none, ackRun := none } ∧
    (releaseLatch s).traction = { s.traction with state := .inhibited } ∧
    Recorded 20 r.first.code ((s.now - r.time) / 1000 : Nat) (releaseLatch s) := by
  unfold releaseLatch
  rw [set]
  dsimp only
  refine ⟨by rw [silencePattern_halt, raise_halt]; rfl, by rw [silencePattern_traction, raise_traction]; rfl, ?_⟩
  exact silencePattern_event (recorded_tone (by decide) _ _) (raise_recorded _ _ _ _)

/-! ### A pass on a set latch -/

theorem passRead_latched (set : s.halt.latch = some r) :
    (passRead s).halt.latch = some r ∧ (passRead s).halt.ackRun = s.halt.ackRun := by
  have opened := passOpened_frame s
  rcases passRead_judged s with stays | sets
  · exact ⟨by rw [stays.latch, opened.halt]; exact set, by rw [stays.run, opened.halt]⟩
  · have clear := sets.clear
    rw [opened.halt, set] at clear; cases clear

theorem passFirst_halt (s : State) : (passFirst s).halt = (acknowledge (passDemand s) (passRead s)).halt := by
  unfold passFirst
  exact (judgeEmission_rest _ _).2.1

/-- A latch set after stage 1 outlives the pass with its run. -/
theorem effortPass_latched (set : (passFirst s).halt.latch = some r) :
    (effortPass s).halt.latch = some r ∧ (effortPass s).halt.ackRun = (passFirst s).halt.ackRun := by
  rw [effortPass_halt]
  rcases passThird_judged s with stays | sets
  · exact ⟨by rw [stays.latch, passJudged_halt]; exact set, by rw [stays.run, passJudged_halt]⟩
  · have clear := sets.clear
    rw [passJudged_halt, set] at clear; cases clear

/-- What the reading leaves for the acknowledgement: STOPPED, no cause, the handle at −900 or deeper (R66). -/
def Acknowledging (r : LatchRecord) (s : State) : Prop :=
  r.stopped = true ∧ (passRead s).halt.causes.any = false ∧ passDemand s ≤ -900

theorem passFirst_acknowledges (set : s.halt.latch = some r) : (passFirst s).halt =
    if r.stopped = true ∧ (passRead s).halt.causes.any = false ∧ passDemand s ≤ -900 then
      if s.halt.ackRun.getD s.now + 1000 ≤ s.now then { (passRead s).halt with latch := none, ackRun := none }
      else { (passRead s).halt with ackRun := some (s.halt.ackRun.getD s.now) }
    else { (passRead s).halt with ackRun := none } := by
  obtain ⟨latch, run⟩ := passRead_latched set
  rw [passFirst_halt, acknowledge_eq latch, run, (passRead_frame s).now]
  split
  · split
    · exact (releaseLatch_set latch).1
    · rfl
  · rfl

/-- A pass that does not acknowledge ends the run. -/
theorem effortPass_unacknowledged (set : s.halt.latch = some r) (unfit : ¬Acknowledging r s) :
    (effortPass s).halt.latch = some r ∧ (effortPass s).halt.ackRun = none := by
  have first := passFirst_acknowledges set
  unfold Acknowledging at unfit
  rw [if_neg unfit] at first
  obtain ⟨latch, run⟩ := effortPass_latched (s := s) (r := r) (by rw [first]; exact (passRead_latched set).1)
  exact ⟨latch, by rw [run, first]⟩

/-- A pass that acknowledges for less than 1 s continues the run. -/
theorem effortPass_acknowledges (set : s.halt.latch = some r) (fit : Acknowledging r s)
    (short : s.now < s.halt.ackRun.getD s.now + 1000) :
    (effortPass s).halt.latch = some r ∧ (effortPass s).halt.ackRun = some (s.halt.ackRun.getD s.now) := by
  have first := passFirst_acknowledges set
  unfold Acknowledging at fit
  rw [if_pos fit, if_neg (by omega)] at first
  obtain ⟨latch, run⟩ := effortPass_latched (s := s) (r := r) (by rw [first]; exact (passRead_latched set).1)
  exact ⟨latch, by rw [run, first]⟩

/-- The pass 1 s after the run's first releases the latch after stage 1 (R67). -/
theorem passFirst_releases (set : s.halt.latch = some r) (fit : Acknowledging r s) (long : s.halt.ackRun.getD s.now + 1000 ≤ s.now) :
    (passFirst s).halt.latch = none ∧ (passFirst s).halt.ackRun = none ∧ (passFirst s).traction.state = .inhibited ∧
    Recorded 20 r.first.code ((s.now - r.time) / 1000 : Nat) (effortPass s) := by
  obtain ⟨latch, run⟩ := passRead_latched set
  have frame := passRead_frame s
  have released : acknowledge (passDemand s) (passRead s) = releaseLatch (passRead s) := by
    unfold Acknowledging at fit
    rw [acknowledge_eq latch, if_pos fit, if_pos (by rw [run, frame.now]; exact long)]
  obtain ⟨halt, traction, recorded⟩ := releaseLatch_set latch
  obtain ⟨emitted, -, -, host, -⟩ := judgeEmission_rest (passDemand s) (releaseLatch (passRead s))
  have first : passFirst s = judgeEmission (passDemand s) (releaseLatch (passRead s)) := by unfold passFirst; rw [released]
  have halted : (passFirst s).halt = { (passRead s).halt with latch := none, ackRun := none } := by
    rw [passFirst_halt, released]; exact halt
  refine ⟨by rw [halted], by rw [halted], ?_, ?_⟩
  · rw [first, emitted, traction]
    exact congrArg Traction.state (if_neg fun held => nomatch held.2)
  · refine effortPass_events (fun _ _ same h => by unfold Recorded at *; rwa [same]) (fun kind h => h.raise (by omega)) ?_
    rw [frame.now] at recorded
    unfold Recorded at *
    rw [first, host]
    exact recorded

/-- A pass lets a set latch go only by the release. -/
theorem effortPass_lets_go (set : s.halt.latch = some r) (gone : (effortPass s).halt.latch ≠ some r) :
    Acknowledging r s ∧ s.halt.ackRun.getD s.now + 1000 ≤ s.now := by
  by_contra kept
  rw [not_and_or] at kept
  by_cases fit : Acknowledging r s
  · exact gone (effortPass_acknowledges set fit (by have := kept.resolve_left (not_not.2 fit); omega)).1
  · exact gone (effortPass_unacknowledged set fit).1

/-! ### The causes the reading ends -/

/-- Where H is −900 or deeper a TRAIL has read a valid duty (R32). -/
theorem passDemand_valid (trail : s.lines.role = .trail) (full : passDemand s ≤ -900) :
    30 ≤ s.lines.demandU ∧ s.lines.demandU ≤ 970 := by
  by_contra invalid
  have reads := passOpened_reads s
  obtain ⟨-, -, lost⟩ := readDemandOf_trail (s := passOpened s) (reads.role.trans trail)
  have zero : passDemand s = 0 := (lost (by rw [reads.demandU]; exact invalid)).1
  omega

/-- Of the causes present before a pass that acknowledges, the reading has ended those that are none after it: DEMAND LOST of a TRAIL,
and TRAINLINE with the drive. -/
theorem passRead_ended (full : passDemand s ≤ -900) {x : Cause} (before : s.halt.causes.has x = true)
    (after : (passRead s).halt.causes.has x = false) :
    s.lines.role = .trail ∧ 30 ≤ s.lines.demandU ∧ s.lines.demandU ≤ 970 ∧
      (x = .demandLost ∨ x = .trainline ∧ s.lines.halting = true) := by
  have reads := passOpened_reads s
  have opened := passOpened_frame s
  have trail : s.lines.role = .trail := by
    by_contra other
    have same : (passRead s).halt = s.halt :=
      (readDemandOf_halt (s := passOpened s) (by rw [reads.role]; exact other)).trans opened.halt
    rw [same, before] at after; cases after
  obtain ⟨low, high⟩ := passDemand_valid trail full
  refine ⟨trail, low, high, ?_⟩
  by_cases lost : x = .demandLost
  · exact .inl lost
  · by_cases line : x = .trainline
    · subst line
      refine .inr ⟨rfl, ?_⟩
      by_contra idle
      have kept := ((readDemandOf_trainline (passOpened s)).2 (.inl (by rw [opened.lines]; simpa using idle))).1
      rw [opened.halt] at kept
      have same : (passRead s).halt.causes.has .trainline = s.halt.causes.has .trainline := kept
      rw [same, before] at after; cases after
    · rw [passRead_causes s line lost, before] at after; cases after

/-- Without causes before the pass, and the HALT line not driven, a demand at −900 or deeper is read with none (R66). -/
theorem passRead_free (free : s.halt.causes.any = false) (idle : s.lines.halting = false) (full : passDemand s ≤ -900) :
    (passRead s).halt.causes.any = false := by
  have reads := passOpened_reads s
  have opened := passOpened_frame s
  have absent : ∀ x, s.halt.causes.has x = false := fun x =>
    Bool.eq_false_of_not_eq_true fun present => by rw [Causes.any_of_has present] at free; cases free
  have read : ∀ x, (passRead s).halt.causes.has x = false := fun x => by
    by_cases line : x = .trainline
    · subst line
      have kept := ((readDemandOf_trainline (passOpened s)).2 (.inl (by rw [opened.lines]; exact idle))).1
      rw [opened.halt] at kept
      exact (show (passRead s).halt.causes.has .trainline = s.halt.causes.has .trainline from kept).trans (absent _)
    · by_cases lost : x = .demandLost
      · subst lost
        have judged : (passRead s).halt.causes.has .demandLost = _ := (readDemandOf_causes (passOpened s)).2
        rw [judged, reads.role, reads.demandU, opened.halt]
        split
        · exact absent .demandLost
        next trail => rw [if_pos (passDemand_valid (not_not.1 trail) full)]
      · exact (passRead_causes s line lost).trans (absent x)
  simp [Causes.any, read]

/-! ### The other commands -/

/-- The latch is set with the record `r`, and the flag is `b`. -/
def LatchHeld (r : LatchRecord) (b : Bool) (s : State) : Prop := s.halt.latch = some r ∧ s.axle.standstill = b

theorem blindWalk_latchHeld (r : LatchRecord) (b : Bool) : BlindWalk (LatchHeld r b) :=
  blindWalk_latching fun l h => ⟨l.kept r h.1, l.flag.trans h.2⟩

/-- No command but a sample, STANDSTILL_SET, a pass, HALT_RELEASED, POWER_UP and a RESTART FULL that is taken moves a set latch or the
flag (R62, R64, R179). -/
theorem exec_latchHeld {c : Instr} (other : ¬Lawgiving c) (next : exec c s = .next t) (set : s.halt.latch = some r)
    (part : s.axle.standstill = true → ¬(s.lines.role = .lead ∧ s.lines.coupled = true) → ¬RestartsFull c s) :
    t.halt.latch = some r ∧ t.axle.standstill = s.axle.standstill :=
  exec_lawful (blindWalk_latchHeld r s.axle.standstill).step c (fun own => absurd own other)
    (fun full still uncoupled => absurd full (part still uncoupled)) ⟨set, rfl⟩ t next

/-- A set latch outlives every command but those that reset or release it, BRAKING or STOPPED with the flag (R62, R64). -/
theorem exec_keeps_latch {c : Instr} (next : exec c s = .next t) (set : s.halt.latch = some r)
    (pass : ∀ inputs, c ≠ .controlPeriod inputs) (release : c ≠ .haltReleased) (reset : c ≠ .powerUp)
    (part : s.axle.standstill = true → ¬(s.lines.role = .lead ∧ s.lines.coupled = true) → ¬RestartsFull c s) :
    t.halt.latch = some { r with
      stopped := if t.axle.standstill = s.axle.standstill then r.stopped else t.axle.standstill } := by
  by_cases sample : c = .speedSample ∨ c = .standstillSet
  · exact (sampleKeepsLatchAndTraction c s t sample next).1 r set
  · have other : ¬Lawgiving c := by
      rintro (own | own | ⟨inputs, own⟩ | own | own)
      · exact sample (.inl own)
      · exact sample (.inr own)
      · exact pass inputs own
      · exact release own
      · exact reset own
    obtain ⟨latch, flag⟩ := exec_latchHeld other next set part
    rw [latch, if_pos flag]

/-! ### HALT_RELEASED -/

/-- HALT_RELEASED lets go only a latch that is due (R67). -/
theorem haltReleased_lets_go (next : exec .haltReleased s = .next t) (set : s.halt.latch = some r) (gone : t.halt.latch ≠ some r) :
    r.stopped = true ∧ s.halt.causes.any = false ∧ s.halt.ackRun ≠ none := by
  obtain rfl := Host.Outcome.next.inj next
  cases due : releaseAt s with
  | none => rw [due] at gone; exact absurd set gone
  | some n =>
    obtain ⟨⟨x, own, stopped⟩, free, start, run, -⟩ := releaseAt_some.1 due
    obtain rfl := Option.some.inj (set.symm.trans own)
    exact ⟨stopped, free, by rw [run]; simp⟩

/-- HALT_RELEASED on a latch that is due (R67). -/
theorem haltReleased_releases {x : Nat} (set : s.halt.latch = some r) (stopped : r.stopped = true) (free : s.halt.causes.any = false)
    (run : s.halt.ackRun = some x) : exec .haltReleased s = .next (releaseLatch (s.reach (x + 1000))) := by
  have due : releaseAt s = some (x + 1000) := releaseAt_some.2 ⟨⟨r, set, stopped⟩, free, x, run, rfl⟩
  show Host.Outcome.next (atExpiry (releaseAt s) releaseLatch s) = _
  rw [atExpiry_some due]

/-- What the release leaves alone (R67). -/
theorem releaseLatch_rest (s : State) :
    (releaseLatch s).now = s.now ∧ (releaseLatch s).axle = s.axle ∧ (releaseLatch s).adhesion = s.adhesion ∧
    (releaseLatch s).vigilance = s.vigilance ∧ (releaseLatch s).lines = s.lines ∧ (releaseLatch s).route = s.route ∧
    (releaseLatch s).junction = s.junction ∧ (releaseLatch s).stop = s.stop ∧ (releaseLatch s).pins = s.pins := by
  unfold releaseLatch
  split
  · exact ⟨rfl, rfl, rfl, rfl, rfl, rfl, rfl, rfl, rfl⟩
  · simp

/-! ### The passes of the statement -/

/-- A pass that leaves the latch let go without a cause leaves the unit INHIBITED (R67). -/
theorem effortPass_released (clear : (passFirst s).halt.latch = none) (run : (passFirst s).halt.ackRun = none)
    (state : (passFirst s).traction.state = .inhibited) (free : (effortPass s).halt.causes.any = false) :
    (effortPass s).halt.latch = none ∧ (effortPass s).halt.ackRun = none ∧ (effortPass s).traction.state = .inhibited := by
  rw [effortPass_halt] at free ⊢
  rcases passThird_judged s with stays | sets
  · refine ⟨by rw [stays.latch, passJudged_halt, clear], by rw [stays.run, passJudged_halt, run], ?_⟩
    rw [(effortPass_setup s).1, stays.state]
    exact (judgeOverspeed_judged s.settings (passFirst s)).1.trans state
  · rw [sets.any] at free; cases free

/-- A pass on a set latch (R64, R66). -/
theorem pass_latched {inputs : PassInputs} (next : exec (.controlPeriod inputs) s = .next t) (set : s.halt.latch = some r) :
    let h := t.lines.previousDemand
    let ends := fun x : Cause => s.lines.role = .trail ∧ 30 ≤ s.lines.demandU ∧ s.lines.demandU ≤ 970 ∧
      (x = .demandLost ∨ x = .trainline ∧ s.lines.halting = true)
    (r.stopped = false ∨ -900 < h → t.halt.latch = some r ∧ t.halt.ackRun = none) ∧
    (t.halt.latch ≠ some r → r.stopped = true ∧ h ≤ -900 ∧
      (∃ start, s.halt.ackRun = some start ∧ start + 1000 ≤ max s.now s.traction.passDue) ∧
      (∀ x, s.halt.causes.has x = true → ends x) ∧ Told s t 20 r.first.code ((t.now - r.time) / 1000 : Nat)) := by
  obtain rfl := exec_controlPeriod_next next
  have own : (passStart inputs s).halt.latch = some r := set
  rw [effortPass_previousDemand, (effortPass_frame (passStart inputs s)).now]
  refine ⟨fun unfit => effortPass_unacknowledged own fun fit => ?_, fun gone => ?_⟩
  · obtain ⟨stopped, -, full⟩ := fit
    rcases unfit with braking | shallow
    · rw [stopped] at braking; cases braking
    · omega
  · obtain ⟨fit, long⟩ := effortPass_lets_go own gone
    obtain ⟨-, -, -, recorded⟩ := passFirst_releases own fit long
    obtain ⟨stopped, free, full⟩ := fit
    have started : ∃ start, s.halt.ackRun = some start ∧ start + 1000 ≤ max s.now s.traction.passDue := by
      have time : s.halt.ackRun.getD (max s.now s.traction.passDue) + 1000 ≤ max s.now s.traction.passDue := long
      cases run : s.halt.ackRun with
      | none => rw [run, Option.getD_none] at time; omega
      | some start => exact ⟨start, rfl, by rw [run] at time; exact time⟩
    refine ⟨stopped, full, started, fun x present => passRead_ended full present ?_, recorded.told⟩
    exact Bool.eq_false_of_not_eq_true fun after => by rw [Causes.any_of_has after] at free; cases free

/-- Settles O40: the commands by the walk of the latch, a pass by its acknowledgement, HALT_RELEASED by its due time. -/
theorem acknowledgementReleasesHalt : Obligations.AcknowledgementReleasesHalt := by
  refine ⟨fun c r s t next set pass release reset part => exec_keeps_latch next set pass release reset part,
    fun inputs r s t next set => pass_latched next set, fun r s t next set gone => haltReleased_lets_go next set gone,
    fun inputs r s t next set stopped free idle => ?_, fun r x s set stopped free run => ?_⟩
  · obtain rfl := exec_controlPeriod_next next
    have own : (passStart inputs s).halt.latch = some r := set
    have fit : passDemand (passStart inputs s) ≤ -900 → Acknowledging r (passStart inputs s) := fun full =>
      ⟨stopped, passRead_free free idle full, full⟩
    rw [effortPass_previousDemand]
    refine ⟨fun shallow => effortPass_unacknowledged own fun fit => ?_, fun full short => effortPass_acknowledges own (fit full) short,
      fun full long => ?_, fun full long still => ?_⟩
    · obtain ⟨-, -, full⟩ := fit
      omega
    · obtain ⟨-, -, -, recorded⟩ := passFirst_releases own (fit full) long
      exact recorded.told
    · obtain ⟨clear, ended, state, -⟩ := passFirst_releases own (fit full) long
      exact effortPass_released clear ended state still
  · obtain ⟨halt, traction, recorded⟩ := releaseLatch_set (s := s.reach (x + 1000)) set
    obtain ⟨now, rest⟩ := releaseLatch_rest (s.reach (x + 1000))
    exact ⟨_, haltReleased_releases set stopped free run, recorded.told, halt, traction, now, rest⟩

end Sys2Proof.Machine
end
